-- ==== Sys2Proof/Word.lean ====
section
/-!
DEFINITION. Word.lean: the word types, and the shapes of the register tables.
-/

namespace Sys2Proof

/-- One byte of a memory, a frame or a packet (R6). -/
abbrev Byte := BitVec 8

/-- One peripheral register (R7), or one 32-bit memory word. -/
abbrev Word := BitVec 32

/-- A 64-bit register of a trestle's cores (R12). -/
abbrev DWord := BitVec 64

/-- A sparse map kept as data: the entries in rising order of key, none of them equal to what a key without an entry
reads as. `Machine.tabGet` and `Machine.tabSet` are its two operations. -/
abbrev Tab (α : Type) := List (Nat × α)

/-- The access codes of register tables (R9). `secro` is the column's "SEC RO". -/
inductive Acc where
  | ro | rw | wo | w1c | rwl | sec | secro
deriving DecidableEq, Repr

/-- One field of a register table: its name, lowest bit, width, access code, value after reset, and the values a write
may give it where the table says that other values are ignored. -/
structure FieldRow where
  name : String
  lo : Nat
  width : Nat
  acc : Acc
  reset : Nat
  takes : Option (Nat × Nat)
deriving DecidableEq, Repr

/-- One row of a register table: the spec's name, the place of its first register, the repetitions (stride and count of
each index), and its fields. -/
structure RegRow where
  name : String
  off : Nat
  dims : List (Nat × Nat)
  fields : List FieldRow
deriving DecidableEq, Repr

/-- A field's place: its register's number, its lowest bit and its width. -/
structure Fld where
  reg : Nat
  lo : Nat
  width : Nat
deriving DecidableEq, Repr

end Sys2Proof
end

