-- ==== Sys2Proof/Types.lean ====
section
/-!
DEFINITION. Types.lean: what the commands carry, and what the block sends out.
The numbers in brackets name the chapter of the spec.
-/

namespace Sys2Proof

/-! ### Pair (01) -/

/-- What a role message brings (R26, R27, R36): the sender's slot, its configured preference, whether it reports a trestle fault or
configuration hold, whether it arrives from LONE, whether the role command has ended both roles, its role, its zone state, its
configuration CRC and its cycle number. -/
structure RoleReport where
  slotB : Bool := false
  prefers : Bool := false
  barred : Bool := false
  fromLone : Bool := false
  restart : Bool := false
  role : Nat := 2
  zone : Nat := 0
  crc : Word := 0
  cycle : Word := 0
deriving DecidableEq, Repr

/-- A digest message (R33): its frame, and for each chain the digest and the coverage map. A partner of link version 1 sends
the zone digest alone, and `complete` says whether every configured satellite reached it (R34); `skip`: the member skipped the
frame (R182). -/
structure DigestMsg where
  frame : Word := 0
  chains : List (Word × BitVec 48) := []
  zone : Word := 0
  complete : Bool := true
  skip : Bool := false
deriving DecidableEq, Repr

/-! ### Grid angle (02) -/

/-- What the tracker has measured over the cycle that ends: the phase error of the reference phase (its own fundamental minus
tracked angle, counts; the offset of R49 for phases B and C is not in it), its frequency (µHz), the rotation (true for A-C-B), and the increment at which the loops of R47
leave the oscillator (the loops' arithmetic is not in the spec). -/
structure LineMeas where
  err : Int := 0
  freq : Nat := 0
  rot : Bool := false
  inc : Nat := 0
deriving DecidableEq, Repr

/-- Host time of an IEEE 802.1AS port. -/
structure PtpTime where
  sec : Nat := 0
  ns : Nat := 0
deriving DecidableEq, Repr

/-- Amplitudes of the three line-sense fundamentals, in hundredths of a percent of ANG_VNOM. -/
structure Amplitudes where
  a : Nat := 0
  b : Nat := 0
  c : Nat := 0
deriving DecidableEq, Repr

/-! ### Kazilo chains (03) -/

/-- A port of a chain. -/
inductive Port where
  | a | b
deriving DecidableEq, Repr

/-- A receiver that has regained lock: its port, and how many data code groups it discards before the next SOF (R109). -/
structure Relock where
  port : Port
  orphans : Nat := 0
deriving DecidableEq, Repr

/-- The fields of a SYNC (R98). -/
structure SyncBody where
  cycle : Nat := 0
  inc : Nat := 0
  cnt : Nat := 0
  ordP : Nat := 0
  ordQ : Nat := 0
  qualified : Bool := false
  balEn : Bool := false
  alertEn : Bool := false
  slotLen : Nat := 0
  fromB : Bool := false
deriving DecidableEq, Repr

/-- An ENUM_RESP as a port receives it (R97, R124): the port, the header's position and HOP, the direction of the ENUM it answers, the
body, and the time from the end of that ENUM to its arrival in units of 2.5 ns (R128). -/
structure EnumResp where
  port : Port := .a
  pos : Nat := 0x3F
  hop : Nat := 0
  dirB : Bool := false
  uid : Nat := 0
  maxVer : Nat := 2
  nCell : Nat := 32
  cap : Nat := 0
  fw : Nat := 0
  oldPos : Nat := 0x3F
  elapsed : Nat := 0
deriving DecidableEq, Repr

/-- What an ENUM_RECEIVED brings: an ENUM frame, an ENUM_COMMIT with its version, count and alert enable, or the RESET_POS that begins
a full enumeration. -/
inductive EnumSeen where
  | resetPos
  | enum (dirB : Bool)
  | commit (ver count : Nat) (alerts : Bool)
deriving DecidableEq, Repr

/-- A truncated frame (R108): whether it was a DATA frame, its position when the header arrived whole, and the code groups
discarded after it (R109). -/
structure TruncInfo where
  isData : Bool := true
  pos : Option Nat := none
  orphans : Nat := 0
deriving DecidableEq, Repr

/-! ### Estimator bench (05) -/

/-- How one run of a cell update on a lane ends (R175, R177): written back, a residue mismatch, or a parity error in word
`word` of the state block, at byte `offset` of the chemistry set, in the input FIFO entry, or at microcode word `addr`. -/
inductive LaneResult where
  | ok
  | residue
  | statePar (word : Nat)
  | paramPar (offset : Nat)
  | fifoPar
  | ucodePar (addr : Nat)
deriving DecidableEq, Repr

/-- The state blocks of one position in an alignment transfer (R183): 32 blocks of 128 bytes. -/
structure PosBlocks where
  chain : Nat := 0
  pos : Nat := 0
  bytes : List Byte := []
deriving DecidableEq, Repr

/-! ### Protection (06) -/

/-- A coil role of a string, in the order of CONTACTOR_FB_FAULT (R220). -/
inductive Role where
  | neg | pre | pos
deriving DecidableEq, Repr

/-! ### Load switches (07) -/

/-- One channel as LSW measures it over 1 ms: mean current and on-phase current (mA), whether an on-phase of it can be
evaluated and lay below the open-load threshold for OL_MS, TJ and DT (1/8 °C, two's complement), limitation, and the
estimated loss (mW; the estimate's arithmetic is not in the spec). -/
structure ChanMeas where
  iAvg : Nat := 0
  iOn : Option Nat := none
  tj : BitVec 12 := 0
  dt : BitVec 12 := 0
  limiting : Bool := false
  loss : Nat := 0
deriving DecidableEq, Repr

/-! ### Trestles (08) -/

/-- An error that the trestle finds while an instruction runs: a cache line (trailing core, data cache, line address), the epoch
store buffer at the commit check, a delay line; or at its fetch, a word of boot ROM, SRAM or DRAM, or the returned data (R274, R275, R405, R406). -/
inductive RunCheck where
  | good
  | cacheLine (trailing dataCache : Bool) (line : Word)
  | storeBuffer
  | delayLine
  | romWord
  | sramWord (lanes : Byte)
  | dramBurst
  | fetchParity
deriving DecidableEq, Repr

/-- What kind of instruction retires, as far as epochs and worlds depend on it (R268). The RISC-V specifications of R12 define
what each instruction computes; that comes as the operands of the retirement. -/
inductive RetKind where
  /-- any instruction without an epoch rule of its own -/
  | plain
  /-- AMO, LR, SC: whether it is an LR, the virtual address and size, and the reservation afterwards -/
  | atomic (lr : Bool) (va : DWord) (size : Nat) (resv : Option (BitVec 40))
  | fence
  | mret
  | sret
  | wfi
  /-- an exception: cause and tval -/
  | trap (cause : BitVec 6) (tval : DWord)
  /-- a custom-0 encoding that R293 does not list -/
  | custom0
deriving DecidableEq, Repr

/-- A store: virtual address, size in bytes, data, and whether it is an HSV (R300). -/
structure StoreOp where
  va : DWord := 0
  size : Nat := 8
  data : DWord := 0
  hyp : Bool := false
deriving DecidableEq, Repr

/-- A CSR access: its number, the value it writes if it writes one, and the register that takes the old value. -/
structure CsrOp where
  num : BitVec 12 := 0
  write : Option DWord := none
  rd : Fin 32 := 0
deriving DecidableEq, Repr

/-- What one instruction retires: the address of the next one, its register writes, the floating-point flags it accrues, its CSR access
and its store. -/
structure Retired where
  kind : RetKind := .plain
  next : DWord := 0
  x : Option (Fin 32 × DWord) := none
  f : Option (Fin 32 × DWord) := none
  fflags : BitVec 5 := 0
  csr : Option CsrOp := none
  store : Option StoreOp := none
deriving DecidableEq, Repr

/-- A load: virtual address, size in bytes, destination, sign extension, whether it is an HLV or HLVX (R300), and the address of
the next instruction. -/
structure LoadOp where
  va : DWord := 0
  size : Nat := 8
  rd : Fin 32 := 0
  fp : Bool := false
  signed : Bool := true
  hyp : Bool := false
  next : DWord := 0
deriving DecidableEq, Repr

/-- The memory check of an access (R405, R407): an SRAM byte-lane parity error, a DRAM burst CRC error, a ROM word parity
error, or a parity error at the target of a write (R406). -/
inductive MemCheck where
  | good
  | sramParity (lanes : Byte)
  | dramCrc
  | romParity
  | targetParity
deriving DecidableEq, Repr

/-- The outcome of a comparator difference test (R283). -/
inductive TestResult where
  | pass
  | fail (group : BitVec 4) (bit : BitVec 7) (pol delay : Bool)
deriving DecidableEq, Repr

/-! ### Worlds and tenants (09) -/

/-- A debug-module access to a hart (R284): an integer or floating-point register, a CSR, the PC, or memory through the hart, as its
program buffer reaches it (R314). -/
inductive DebugReg where
  | x (i : Fin 32)
  | f (i : Fin 32)
  | csr (num : BitVec 12)
  | pc
  | mem (va : DWord) (size : Nat)
deriving DecidableEq, Repr

/-- A TAP instruction of R316. -/
inductive TapInstr where
  | bypass | idcode | sample | extest | clamp | highz
deriving DecidableEq, Repr

/-! ### Aidex (10) -/

/-- A request as a port receives it, its CRC right (R327): the port (0 ETH_0, 1 ETH_1, 2 the wake port), source address and UDP
port, and the fields of the packet. -/
structure AixPacket where
  via : Fin 3 := 0
  src : BitVec 128 := 0
  sport : BitVec 16 := 0
  ver : Byte := 3
  drawer : Fin 8 := 0
  seq : BitVec 16 := 0
  session : Word := 0
  payload : List Byte := []
deriving DecidableEq, Repr

/-- An IP address in the 16-byte form of R362, and the addresses of an Ethernet frame that a port answers (R326): the address
asked for, the VLAN identifier the frame carries if it is tagged. -/
structure NetFrame where
  src : BitVec 128 := 0
  dst : BitVec 128 := 0
  vid : Option (BitVec 12) := none
deriving DecidableEq, Repr

/-- A datagram as an Ethernet port receives it: its source, its destination UDP port, whether it is an IPv4 fragment or carries an IPv6
extension header, whether the frame's FCS is bad, and the UDP payload. -/
structure Datagram where
  port : Fin 2 := 0
  src : BitVec 128 := 0
  sport : BitVec 16 := 0
  dport : BitVec 16 := 47810
  vid : Option (BitVec 12) := none
  split : Bool := false
  badFcs : Bool := false
  bytes : List Byte := []
deriving DecidableEq, Repr

/-! ### Bridges (12) -/

/-- The answer to an outbound peer request (R402 to R404): the bytes read (none for a write), a partner's cause, or RETRY. -/
inductive PeerAnswer where
  | data (bs : List Byte)
  | error (cause : BitVec 4)
  | retry
deriving DecidableEq, Repr

/-! ### CAN (13) -/

/-- A CAN frame: identifier and IDE, the FDF, BRS, ESI and RTR bits, and the data. -/
structure CanFrame where
  id : Nat := 0
  ide : Bool := false
  fdf : Bool := false
  brs : Bool := false
  esi : Bool := false
  rtr : Bool := false
  data : List Byte := []
deriving DecidableEq, Repr

/-- How an attempt fails (R419, R424): an error that is not a collision, an identifier collision, or an error that ISO 11898-1
exempts from counting in TEC. -/
inductive CanFail where
  | error | collision | exempt
deriving DecidableEq, Repr

/-! ### Power (14) -/

/-- What the hutch measures over a sleep (R458, R459): its ticks from the seal to the wake decision, and the RC frequency at
return in mHz. -/
structure SleepMeas where
  ticks : BitVec 48 := 0
  fExit : Word := 0
deriving DecidableEq, Repr

/-! ### Sideboard (15) -/

/-- How the MRAM answers the write of one record (R480): read back at once, read back after the second write, neither,
or no response within 10 µs. -/
inductive MramResult where
  | ok | second | mismatch | silent
deriving DecidableEq, Repr

/-! ### Field update (16) -/

/-- What a member reports to its partner about updates (R499, R504): its peer-link range, its update state, whether its active bank is
TRIAL, and its UCODE version. -/
structure UpdReport where
  peerMin : Nat := 0
  peerMax : Nat := 0
  state : Nat := 0
  trial : Bool := false
  ucode : Word := 0
deriving DecidableEq, Repr

/-! ### What leaves the block -/

/-- One thing the block has sent out: on a link, a bus, a port, an interrupt or trigger line, or as the data of a read. -/
inductive Output where
  /-- slot `n` raises its interrupt at trestle `tl` (R77) -/
  | slotIrq (tl n : Nat)
  /-- slot `n` asserts the trigger line to target `target` (R77) -/
  | trigger (target n : Nat)
  /-- an angle message to the partner: timestamp, source code, and whether it is usable (R59) -/
  | angleMessage (ts source : Nat) (usable : Bool)
  /-- a SYNC leaves a port of chain `n` (R98) -/
  | sync (n : Nat) (p : Port) (body : SyncBody)
  /-- RESET_POS leaves a port (R124) -/
  | resetPos (n : Nat) (p : Port)
  /-- an ENUM leaves a port, with DIR, BASE and MAXVER (R97) -/
  | enum (n : Nat) (p : Port) (base maxVer : Nat)
  /-- an ENUM_COMMIT leaves a port (R97) -/
  | enumCommit (n : Nat) (p : Port) (ver count : Nat) (alerts : Bool)
  /-- a RETX for one position leaves a port (R110) -/
  | retx (n : Nat) (p : Port) (pos frame : Nat)
  /-- a service frame leaves a port: REG_WR or REG_RD with position, SEQ, word address and data (R105) -/
  | service (n : Nat) (p : Port) (write : Bool) (pos seq addr data : Nat)
  /-- the alert thresholds written to a satellite, with the mask of enabled entries (R198) -/
  | alertThresholds (n pos : Nat) (thr : List Nat) (mask : Nat)
  /-- the primary's A delay table of a chain, to the secondary: the positions that have a valid A entry (R140) -/
  | delayTable (n : Nat) (dly : List (Option Nat))
  /-- the secondary's per-frame report of SYNCs and ENUMs at its B ends (R117) -/
  | chainReport (syncs enums : Nat)
  /-- the secondary's request for the state blocks of positions, by chain and position (R183) -/
  | alignRequest (ps : List (Nat × Nat))
  /-- the primary's state blocks after frame `f` (R183) -/
  | alignTransfer (f : Nat) (blocks : List PosBlocks)
  /-- the digest message of a frame (R33, R182) -/
  | digest (m : DigestMsg)
  /-- STEP_REQ, STEP_CONF, STEP_REFUSE and STEP_GO to the partner (R214) -/
  | stepReq (n role : Nat) (on : Bool) (cycle : Nat)
  | stepConf (n role cycle : Nat)
  | stepRefuse (n cause : Nat)
  | stepGo (n role cycle : Nat)
  /-- a trip notice for a string, or for the zone, to the partner (R216) -/
  | tripNotice (zone : Bool) (n : Nat)
  /-- the notice to end a close sequence (R211) -/
  | closeEnd (n : Nat)
  /-- a local interrupt of trestle `t` becomes pending (R277, R292, R396) -/
  | localIrq (t i : Nat)
  /-- CPX asserts a device reset (R280) -/
  | deviceReset (cause : Nat)
  /-- a register value returned to the debugger, or its error (R315) -/
  | debugData (t : Nat) (v : Option DWord)
  /-- the answer of a port to ARP, to a neighbour solicitation and to an echo request: port, tag (VID and PCP), destination, the host it
  goes to next, address or bytes (R326) -/
  | arpReply (port : Nat) (tag : Option (Nat × Nat)) (dst addr : Nat)
  | neighbourAdvert (port : Nat) (tag : Option (Nat × Nat)) (dst hop addr : Nat)
  | echoReply (port : Nat) (tag : Option (Nat × Nat)) (dst hop : Nat) (bytes : List Byte)
  /-- the drawer interrupt of tenant `k` at trestle `t` (R363) -/
  | drawerIrq (t k : Nat)
  /-- bytes the device sends in a read transfer of the wake port (R360) -/
  | twpRead (bytes : List Byte)
  /-- the zone state that the next peer-link frame carries (R36) -/
  | frameZone (z : Nat)
  /-- a request to the partner, its answer, or a link control frame (R399, R402, R403) -/
  | peerRequest (write : Bool) (addr size data : Nat)
  | peerResponse (data : Option Nat) (cause : Nat)
  | peerRetry
  | peerControl
  | peerFrames (n : Nat)
  /-- a frame leaves a CAN channel (R419) -/
  | canFrame (n : Nat) (f : CanFrame)
  /-- a UDP datagram leaves an Ethernet port: tag (VID and PCP), destination address, the host it goes to next, destination and source
  port, bytes (R325, R326, R428, R429) -/
  | udp (port : Nat) (tag : Option (Nat × Nat)) (dst hop : Nat) (dport sport : Nat) (bytes : List Byte)
  /-- REG_EN takes a level (R434) -/
  | regEn (level : Bool)
  /-- the data a read of a peripheral register returned to trestle `tl` -/
  | readData (tl : Nat) (reg : Nat) (w : Nat)
  /-- a member's update report, its activation request, and its answer to one, with the reason of a refusal (R499) -/
  | updReport (r : UpdReport)
  | activationRequest
  | activationAnswer (granted : Bool) (reason : Nat)
  /-- the role message and the grant acknowledgement of negotiation (R26) -/
  | roleMessage (r : RoleReport)
  | grantAck
deriving DecidableEq, Repr

end Sys2Proof
end

