-- ==== Sys2Proof/Syntax.lean ====
section
/-!
DEFINITION. Syntax.lean: the commands, one constructor per row of spec/opcode_table.json in the table's order.
The docstring of a constructor is its row's rule and summary.
-/

namespace Sys2Proof

/-- A command: one row of the opcode table with its operands. -/
inductive Instr where
  /-- REGISTER_WRITE (R9). A write to a peripheral register that has no row of its own sets its fields according to their access codes and lock state. -/
  | registerWrite (t : Fin 5) (attr : Byte) (reg : BitVec 21) (w : Word)
  /-- EXECUTE_INSTRUCTION (R259). A trestle executes one instruction on both cores, and the comparator checks it two cycles apart. -/
  | executeInstruction (t : Fin 5) (r : Retired) (chk : RunCheck)
  /-- INTERRUPT_TAKEN (R292). A pending and enabled interrupt of the current world is taken at an instruction boundary as a trap. -/
  | interruptTaken (t : Fin 5) (cause : BitVec 6)
  /-- LOAD (R396). A load is issued to the fabric; a refusal or a failed access raises a precise load access fault. -/
  | load (t : Fin 5) (l : LoadOp) (chk : MemCheck)
  /-- LOAD_DATA_RETURN (R262). Returned read data reaches the leading core, and the trailing core through the delay line. -/
  | loadDataReturn (t : Fin 5) (parity : Bool)
  /-- STORE_DRAIN (R269). A committed store leaves the epoch store buffer to the fabric in program order. -/
  | storeDrain (t : Fin 5) (chk : MemCheck) (parity : Bool)
  /-- COMPARATOR_MISMATCH (R267). A comparator mismatch is either attributed by the witness as a divergence and rolled back, or is a fault. -/
  | comparatorMismatch (t : Fin 5) (group : BitVec 4) (bit : BitVec 7) (halves : Bool)
  /-- ROLLBACK_RESTART (R272). After restoring its checkpoint, the trestle restarts L at the checkpoint PC and T two cycles later. -/
  | rollbackRestart (t : Fin 5) (parity : Bool)
  /-- DIVERGENCE_INTERVAL (R273). A 10 ms divergence-counting interval ends, and the count starts again. -/
  | divergenceInterval
  /-- DIN_CHANGE (R265). A direct input level changes at a trestle's synchronisers and may raise local interrupt 16. -/
  | dinChange (t : Fin 5) (k : Fin 16) (level split : Bool)
  /-- TL_CTRL_RESTART (R279). TL0 restarts a trestle of TL1 to TL4, which runs the comparator test and is released at its reset vector. -/
  | tlCtrlRestart (t : Fin 5)
  /-- TL_CTRL_STOP (R282). TL0 stops a trestle of TL1 to TL4 without recording a fault. -/
  | tlCtrlStop (t : Fin 5)
  /-- TL_CTRL_TEST (R283). TL0 runs the comparator difference test on a READY, STOPPED or FAULTED trestle. -/
  | tlCtrlTest (t : Fin 5)
  /-- TL_CTRL_CLR_CNT (R287). A write clears a trestle's divergence and recovery counters. -/
  | tlCtrlClrCnt (t : Fin 5)
  /-- COMPARATOR_TEST_DONE (R283). A comparator difference test ends, and the trestle moves on by its pass or failure. -/
  | comparatorTestDone (t : Fin 5) (r : TestResult)
  /-- TL0_STOPPED_RESET (R280). 1.0 s after TL0 entered STOPPED, CPX asserts a device reset with cause 3. -/
  | tl0StoppedReset
  /-- WGATE (R294). The gateway instruction checks its target and enters secure M-mode at the WENTRY word. -/
  | wgate (t : Fin 5) (rs1 : DWord)
  /-- WRET (R296). The gateway return restores privilege, V and MIE and returns to normal world at WEPC. -/
  | wret (t : Fin 5)
  /-- WENTRY (R293). WENTRY in the ordinary instruction stream acts as a no-op. -/
  | wentry (t : Fin 5)
  /-- WTENANT_WRITE (R302). A write of the tenant tag takes effect only for an enabled tenant placed on the trestle. -/
  | wtenantWrite (t : Fin 5) (tid : BitVec 3)
  /-- TENANT_RESET (R305). A RESET of a tenant blocks it, completes its requests, cancels its transfers, clears its slots and empties its drawer. -/
  | tenantReset (t : Fin 5) (k : Fin 8)
  /-- TENANT_RELEASE (R305). A RELEASE of a tenant in RESET clears BLOCKED and makes it ACTIVE or FAULTED. -/
  | tenantRelease (k : Fin 8)
  /-- WLD_SECBLK_WRITE (R313). A write of WLD_SECBLK makes blocks secure or normal for later accesses and interrupts. -/
  | wldSecblkWrite (w : Word)
  /-- CAB_READ (R318). The cabinet READ operation copies a slot's bytes to CAB_DATA. -/
  | cabRead (t : Fin 5) (w : BitVec 20) (busy : Bool)
  /-- CAB_WRITE (R318). The cabinet WRITE operation stores bytes of CAB_DATA in a slot. -/
  | cabWrite (t : Fin 5) (w : BitVec 20) (busy : Bool)
  /-- CAB_LOCK (R318). The cabinet LOCK operation locks a slot until the next clearing. -/
  | cabLock (t : Fin 5) (w : BitVec 20) (busy : Bool)
  /-- CAB_CLEAR (R318). The cabinet CLEAR operation empties an unlocked slot. -/
  | cabClear (t : Fin 5) (w : BitVec 20) (busy : Bool)
  /-- CAB_DERIVE (R318). The cabinet DERIVE operation writes an HMAC-SHA-384 of CAB_DATA keyed by a slot into a destination slot. -/
  | cabDerive (t : Fin 5) (w : BitVec 20) (busy : Bool)
  /-- CAB_UNDEFINED_OP (R318). A cabinet command with operation 6 to 15 fails with error 6. -/
  | cabUndefinedOp (t : Fin 5) (op : Fin 10) (w : BitVec 20) (busy : Bool)
  /-- DBG_RT_WRITE (R315). A write of the run-time debug enables changes the effective enables and may resume a halted trestle. -/
  | dbgRtWrite (rt : BitVec 4)
  /-- DBG_PROG (R314). A keyed write from secure world starts the programming of OTP debug enable bits. -/
  | dbgProg (raise : BitVec 4) (key : Byte)
  /-- OTP_PROGRAMMED (R324). OTP programming ends, and its result is recorded. -/
  | otpProgrammed (ok : Bool)
  /-- HALT_REQUEST (R315). A debug halt request acts, waits for normal world, or is refused under the enables of the trestle's world. -/
  | haltRequest (t : Fin 5)
  /-- RESUME_REQUEST (R284). The debug module resumes a halted trestle, with a checkpoint taken first. -/
  | resumeRequest (t : Fin 5) (step : Bool)
  /-- ABSTRACT_COMMAND (R284). A debug register or CSR access reaches both cores under the invasive enable. -/
  | abstractCommand (t : Fin 5) (r : DebugReg) (v : Option DWord)
  /-- SYSTEM_BUS_ACCESS (R315). A debug-module system-bus access is made with the world tag that the enables allow. -/
  | systemBusAccess (write : Bool) (a : BitVec 40) (size : Fin 65) (data : DWord) (chk : MemCheck)
  /-- BOUNDARY_SCAN_INSTRUCTION (R316). A TAP instruction runs, and EXTEST, CLAMP and HIGHZ run only under S_INV while the zone is not armed. -/
  | boundaryScanInstruction (x : TapInstr)
  /-- ROLE_EXCHANGE (R26). A peer-link role message brings the slot, preference, health and configuration CRC into negotiation. -/
  | roleExchange (r : RoleReport)
  /-- ROLE_GRANT_ACK (R26). The primary's receipt of the grant acknowledgement commits the roles. -/
  | roleGrantAck
  /-- ALONE_WAIT_TIMEOUT (R25). 2.0 s after the image was applied with no peer link and no partner pulse, the member enters LONE. -/
  | aloneWaitTimeout
  /-- PARTNER_LOST (R36). The peer link or the partner monitor stays silent beyond its limit, and the member declares its partner lost and enters LONE. -/
  | partnerLost (cause : Fin 3)
  /-- DIGEST_MESSAGE (R34). A partner's per-frame digest message is compared chain by chain where coverage agrees. -/
  | digestMessage (msg : DigestMsg)
  /-- DIGEST_LATE (R33). A digest message that has not arrived by the end of frame N+2 counts as late. -/
  | digestLate
  /-- STEP_REQ (R214). The secondary receives a step request, checks the close conditions and answers STEP_CONF or STEP_REFUSE. -/
  | stepReq (n : Fin 48) (r : Role) (on : Bool) (cycle : Word)
  /-- STEP_CONF (R214). The primary's receipt of the confirmation commits the close step, and it sends STEP_GO. -/
  | stepConf (n : Fin 48) (r : Role) (cycle : Word)
  /-- STEP_REFUSE (R214). A refusal from the secondary abandons the close with cause 1. -/
  | stepRefuse (n : Fin 48)
  /-- STEP_GO (R214). The secondary receives the go for a confirmed step and will drive the edge at its step firing. -/
  | stepGo (n : Fin 48) (r : Role) (cycle : Word)
  /-- CLOSE_ABANDONED (R214). STEP_CONF has not arrived by count 0 of the target cycle, so the primary abandons the close. -/
  | closeAbandoned
  /-- PARTNER_TRIP_NOTICE (R216). A trip notice from the partner makes the same trip open, recorded with source 6. -/
  | partnerTripNotice (zone : Bool) (n : Fin 48)
  /-- CLOSE_END_NOTICE (R211). A partner's notice to end a close sequence turns this member's coils of the set off. -/
  | closeEndNotice (n : Fin 48)
  /-- ACTIVATION_REQUEST (R499). A partner's activation request is granted or refused under the one-part-at-a-time rule. -/
  | activationRequest (same : Bool)
  /-- ALIGN_REQUEST (R183). The primary receives a request for unaligned positions and sends their state blocks in its publish window. -/
  | alignRequest (ps : List (Fin 16 × Fin 48))
  /-- ALIGN_TRANSFER (R183). The secondary receives a state block transfer and installs it when it is complete and checked. -/
  | alignTransfer (f : Word) (bs : List PosBlocks) (good : Bool)
  /-- PEER_ANGLE_MESSAGE (R59). A partner's angle message is received, corrected by half the round trip and checked for consistency. -/
  | peerAngleMessage (ts : BitVec 48) (usable : Bool)
  /-- ANGLE_MESSAGE_SEND (R59). Every 4,096 counts the member sends its timestamp and source code to its partner. -/
  | angleMessageSend
  /-- CYCLE_BOUNDARY (R39). The angle count wraps to 0, the cycle number increments, and per-cycle work takes effect. -/
  | cycleBoundary (m : LineMeas) (t : PtpTime)
  /-- BAND_CLASSIFY (R46). Every 4,096 counts the tracker classifies each phase's amplitude into a band. -/
  | bandClassify (m : Amplitudes)
  /-- COAST_MAX_EXPIRY (R47). After COAST_MAX cycles in COAST, line sense is disqualified and the reference counts as lost. -/
  | coastMaxExpiry
  /-- SLEW_COMPLETE (R53). A slew correction brings the phase error to zero, and SLEWING clears. -/
  | slewComplete
  /-- TIMESTAMP_HOLD_END (R54). The tracked angle reaches a held timestamp, and the hold ends. -/
  | timestampHoldEnd
  /-- PTP_SYNC (R57). An IEEE 802.1AS Sync interval updates the PTP offset and its qualification. -/
  | ptpSync (port : Fin 2) (offset : Int) (t : PtpTime)
  /-- PTP_SYNC_MISSING (R57). Three missing Sync intervals disqualify the PTP source. -/
  | ptpSyncMissing
  /-- PEER_ANGLE_MISSING (R57). Four missing angle messages disqualify the PEER source. -/
  | peerAngleMissing
  /-- ANG_PTP_COMMIT (R60). A write moves the PTP epoch and frequency shadows into use at the next cycle boundary. -/
  | angPtpCommit
  /-- FORCE_HOLD (R61). Setting FORCE_HOLD forces holdover for test, recorded with cause 3. -/
  | forceHold (on : Bool)
  /-- HOLD_WARN (R61). After ANG_HOLD.WARN cycles in holdover, HOLD_WARN becomes 1. -/
  | holdWarn
  /-- ANGLE_UNQUALIFIED (R61). After ANG_HOLD.MAX cycles in holdover, QUALIFIED becomes 0. -/
  | angleUnqualified
  /-- ANG_NOW_LO_READ (R42). A read of ANG_NOW_LO latches the upper timestamp bits for the reading trestle. -/
  | angNowLoRead (t : Fin 5)
  /-- SLOT_CTRL_WRITE (R78). A write to a slot's registers commits at the angle block, and an overdue ONCE slot fires late. -/
  | slotCtrlWrite (n : Fin 32) (reg : Fin 4) (v : Word)
  /-- SLOT_FIRE (R76). The timestamp reaches a slot's target, and the slot raises its interrupt, its trigger or both. -/
  | slotFire (n : Fin 32)
  /-- RECEIVER_LOCK (R94). A Kazilo receiver gains lock on three idle ordered sets. -/
  | receiverLock (n : Fin 16) (r : Relock)
  /-- RECEIVER_LOCK_LOSS (R94). A Kazilo receiver loses lock on code-group errors or loss of signal. -/
  | receiverLockLoss (n : Fin 16) (p : Port)
  /-- FRAME_TRUNCATED (R108). A frame in progress at a port ends truncated, and nothing from it is used. -/
  | frameTruncated (n : Fin 16) (p : Port) (t : TruncInfo)
  /-- DATA_BURST (R107). A DATA burst with a valid CRC commits at a port, is accepted or discarded, and goes to acquisition and protection. -/
  | dataBurst (n : Fin 16) (port : Port) (bs : List Byte) (parity : Bool)
  /-- DATA_RETX (R110). A retransmitted burst is received and accepted under the burst rules. -/
  | dataRetx (n : Fin 16) (port : Port) (bs : List Byte)
  /-- RETX_SEND (R110). Once the last slot has ended, the master requests a missing burst with RETX. -/
  | retxSend (n : Fin 16)
  /-- RETX_TIMEOUT (R110). A RETX that is not answered within KZC_SVC.TMO is not repeated, and the next may go. -/
  | retxTimeout (n : Fin 16)
  /-- ALERT (R112). A valid alert symbol is extracted, deduplicated and handed to protection and to the alert FIFO. -/
  | alert (n : Fin 16) (port : Port) (p c a : Byte)
  /-- KZC_ALERT_FIFO_READ (R132). A read pops one alert entry and latches its arrival timestamp. -/
  | kzcAlertFifoRead (t : Fin 5)
  /-- SYNC_RECEIVED (R119). A SYNC of the primary arrives at a B port; a B_SEG master stops, and a listener takes the orders. -/
  | syncReceived (n : Fin 16) (port : Port) (b : SyncBody) (travel : Nat)
  /-- MASTERSHIP_TAKEOVER (R29). After two frame periods without a master frame at its B port, a member takes the chain from B. -/
  | mastershipTakeover (n : Fin 16)
  /-- CHAIN_FAILED (R116). A chain with no accepted burst for KZC_HEAL.FAIL frames enters FAILED. -/
  | chainFailed (n : Fin 16)
  /-- CHAIN_HEAL (R120). After HEAL consecutive intact cycles or frames, the chain returns to RING. -/
  | chainHeal (n : Fin 16)
  /-- ENUM (R124). A full enumeration starts with RESET_POS on the owned ports. -/
  | enum (n : Fin 16)
  /-- ENUM_SEND (R124). At least 100 µs after RESET_POS, the master sends ENUM from A. -/
  | enumSend (n : Fin 16)
  /-- ENUM_RETURN_TIMEOUT (R124). An ENUM that has not returned at B within 2 ms is followed by an ENUM from B. -/
  | enumReturnTimeout (n : Fin 16)
  /-- ENUM_RESP (R124). A satellite's enumeration response is assigned to its position, and its delay is measured. -/
  | enumResp (n : Fin 16) (r : EnumResp)
  /-- ENUM_RECEIVED (R124). An ENUM or ENUM_COMMIT passing a listener's B port teaches it positions and the chain version. -/
  | enumReceived (n : Fin 16) (e : EnumSeen)
  /-- ENUM_COMMIT (R124). The master sends ENUM_COMMIT with the chain version, and applies exclusions and restorations. -/
  | enumCommit (n : Fin 16)
  /-- FILL (R126). A write of CH_CTRL.FILL sends a fill-in ENUM. -/
  | fill (n : Fin 16)
  /-- REENUM_DUE (R126). A configured position silent for KZC_REENUM.CYCLES frames makes a fill-in ENUM due. -/
  | reenumDue (n : Fin 16)
  /-- FILL_IN_ENUM (R126). In its service window the master sends an ENUM without RESET_POS. -/
  | fillInEnum (n : Fin 16)
  /-- CH_CLR_CNT (R133). A write clears a chain's error counters. -/
  | chClrCnt (n : Fin 16)
  /-- REG_RESP (R106). A matching service response completes a transaction piece or requests a busy retry. -/
  | regResp (n : Fin 16) (pos seq result : Byte) (data : BitVec 16)
  /-- SVC_TIMEOUT (R106). A service transaction with no response repeats, and fails after its last repeat. -/
  | svcTimeout (n : Fin 16)
  /-- KZB_TRANSACTION_START (R392). Within the service window the master starts the next queued bridge transaction of a chain. -/
  | kzbTransactionStart (n : Fin 16)
  /-- KZB_BUSY_RETRY (R393). 100 µs after a busy answer, the bridge sends the piece again. -/
  | kzbBusyRetry (n : Fin 16)
  /-- RETRY_EXPIRED (R394). Read data not collected within HOLD_US is discarded and recorded. -/
  | retryExpired (j : Nat)
  /-- FRAME_CLOSE (R143). At ACQ_END, acquisition closes the frame, ages positions and decides strings and excitation. -/
  | frameClose
  /-- ESTIMATE_WORK_START (R71). At START, or at the end of the previous publish window, the estimate work of a frame starts. -/
  | estimateWorkStart
  /-- CELL_UPDATE (R160). A free lane runs the update or reinitialisation of one cell and writes its state block back. -/
  | cellUpdate (l : Fin 8) (r : LaneResult)
  /-- PARAM_RELOADED (R177). TL0 completes the reload of a bad chemistry set from the committed slot. -/
  | paramReloaded (k : Fin 8)
  /-- UCODE_RELOADED (R177). TL0 completes the reload of the microcode and restarts the bench. -/
  | ucodeReloaded (version : BitVec 16)
  /-- ESTIMATE_CUTOFF (R167). The cut-off tick passes, and positions not yet ready are no longer queued for the frame. -/
  | estimateCutoff
  /-- ESTIMATE_WORK_END (R167). The frame's estimate work ends, and its publish window starts. -/
  | estimateWorkEnd
  /-- PUBLISH_COMMIT (R179). The new result set and its digests are complete and published in one tick, and the digest message leaves. -/
  | publishCommit
  /-- EST_CELL_INIT (R189). A write with GO submits a request to reinitialise one cell or every cell. -/
  | estCellInit (cell : BitVec 15) (all atFrame : Bool)
  /-- EST_CTRL_EN (R187). A write of EN starts the bench processing frames or stops it after the updates in progress. -/
  | estCtrlEn (on : Bool)
  /-- EST_CLR_CNT (R187). A write clears the bench error counters. -/
  | estClrCnt
  /-- LANE_RESTORE (R176). A write of EST_LANE.RESTORE starts the self-test of a fenced lane. -/
  | laneRestore (mask : Byte)
  /-- LANE_RESTORED (R176). A lane's self-test ends, and on a pass the lane returns to service. -/
  | laneRestored (l : Fin 8) (pass : Bool)
  /-- SWITCH_INPUT_EDGE (R192). A debounced switch input level changes, and its role acts: trip, feedback or wake. -/
  | switchInputEdge (j : Fin 48) (level : Bool)
  /-- ANALOG_SAMPLE (R192). A general analog input is sampled and compared against its limit. -/
  | analogSample (k : Fin 8) (value : BitVec 16)
  /-- SAFE_N_FALL (R206). The filtered SAFE_N falls, and every output goes to its safe state and the zone to SAFE. -/
  | safeNFall
  /-- SAFE_EXIT (R202). SAFE_N high for 10 ms moves the zone from SAFE to TRIPPED or DISARMED. -/
  | safeExit
  /-- PROT_CMD_ARM (R203). ARM is accepted in DISARMED when its conditions hold, and latches the configuration CRC. -/
  | protCmdArm
  /-- PROT_CMD_DISARM (R204). DISARM empties the close queue and opens every string. -/
  | protCmdDisarm
  /-- ZCLR (R200). A zone latch clear is accepted or refused, and moves the zone out of TRIPPED. -/
  | zclr
  /-- PROT_CMD_RECONF (R217). RECONF ends ENGINE_HOLD, returning to the previous state or tripping on a CRC mismatch. -/
  | protCmdReconf
  /-- PROT_STR_CMD_CLOSE (R210). A close request that meets its conditions enters the close queue. -/
  | protStrCmdClose (n : Fin 48)
  /-- PROT_STR_CMD_OPEN (R211). An open request starts a normal open, ends a close sequence or removes the string from the queue. -/
  | protStrCmdOpen (n : Fin 48)
  /-- PROT_STR_CMD_CLR (R200). A string trip latch clear is accepted or refused. -/
  | protStrCmdClr (n : Fin 48)
  /-- PROT_KICK (R205). A kick of 0xA5 refreshes the engine watchdog and clears KICK_LATE. -/
  | protKick (key : BitVec 8)
  /-- KICK_MISSED (R205). KICK_MS passes without a kick: ENGINE_HOLD in ARMED and DISARMING, KICK_LATE otherwise. -/
  | kickMissed
  /-- ENGINE_HOLD_EXPIRY (R217). HOLD_MS passes without reconfirmation, and the zone enters TRIPPED. -/
  | engineHoldExpiry
  /-- CONTACTOR_FB_FAULT (R213). A feedback not following its coil within FB_MS puts the string into FAULT. -/
  | contactorFbFault (n : Fin 48) (r : Role)
  /-- LSO_FAULT (R524). A low-side output over-current shuts the output down and is recorded. -/
  | lsoFault (k : Fin 16)
  /-- LSO_OPEN_LOAD (R524). An off output below 4.0 V for 10 ms is recorded as an open load. -/
  | lsoOpenLoad (k : Fin 16)
  /-- CH_CMD_ON (R231). A write of the commanded state of a load channel is stored and applied under the zone-state rule. -/
  | chCmdOn (ch : Fin 32) (on : Bool)
  /-- CH_CMD_CLR (R247). A clear returns a latched channel to OFF unless it is still too hot. -/
  | chCmdClr (ch : Fin 32)
  /-- CH_PWM_DUTY (R235). A duty write is stored and takes effect at the next PWM period start. -/
  | chPwmDuty (ch : Fin 32) (duty : BitVec 11)
  /-- PWM_PERIOD_START (R235). A PWM period starts with the duty then in force, dropping phases that are too short. -/
  | pwmPeriodStart (ch : Fin 32) (vf : Nat)
  /-- PULL_IN_END (R236). PULL_MS after a fresh turn-on, the configured duty takes over. -/
  | pullInEnd (ch : Fin 32)
  /-- SLEW_RAMP_END (R238). A SLEW-mode ramp reaches VAUX minus 1 V, and the channel is fully on. -/
  | slewRampEnd (ch : Fin 32)
  /-- INRUSH_WINDOW_END (R244). At the end of the inrush window, a channel still limiting or short of VAUX turns off. -/
  | inrushWindowEnd (ch : Fin 32) (low : Bool)
  /-- CURRENT_LIMIT (R243). A channel's current reaches I_LIM, and it enters limitation. -/
  | currentLimit (ch : Fin 32)
  /-- CH_SHORT (R244). Accumulated limitation of 40 to 60 µs turns the channel off under protection. -/
  | chShort (ch : Fin 32)
  /-- CH_OVERTEMP (R245). A channel reaching its TJ or DT limit turns off under protection. -/
  | chOvertemp (ch : Fin 32) (byDt : Bool) (tj dt : BitVec 12)
  /-- CHANNEL_RETRY (R246). After RETRY × 10 ms and cooling, a waiting channel makes a fresh turn-on. -/
  | channelRetry (ch : Fin 32)
  /-- RESTART_COUNT_CLEAR (R246). A channel on for 1 s without a protective turn-off clears its restart count. -/
  | restartCountClear (ch : Fin 32)
  /-- CH_OPEN_LOAD (R241). On-state current below OL_TH for OL_MS sets OL_ON and is recorded. -/
  | chOpenLoad (ch : Fin 32)
  /-- OFF_STATE_TEST (R242). Every OLOFF_PER period an off channel tests for a short to VAUX and for an open load. -/
  | offStateTest (ch : Fin 32) (hiOff hiOn : Bool)
  /-- LOSS_ESTIMATE (R250). Every 1 ms LSW estimates each channel's loss and updates the averaged module loss. -/
  | lossEstimate (vaux : Nat) (ms : List ChanMeas)
  /-- LOSS_BUDGET (R250). While the averaged loss exceeds the budget, one unbound channel is shed every 10 ms. -/
  | lossBudget
  /-- SUPPLY_UV_START (R251). VAUX below the lockout turns every channel off into SUPPLY. -/
  | supplyUvStart (vaux : Nat)
  /-- SUPPLY_UV_END (R253). VAUX above 12 V for 1 ms returns every channel to its commanded state. -/
  | supplyUvEnd
  /-- SUPPLY_OV_START (R251). VAUX above 40 V turns every channel off into SUPPLY. -/
  | supplyOvStart (vaux : Nat)
  /-- SUPPLY_OV_END (R253). VAUX below 38.5 V for 1 ms returns every channel to its commanded state. -/
  | supplyOvEnd
  /-- GROUND_LOSS (R251). Loss of ground with VAUX present turns every channel off within 100 µs. -/
  | groundLoss
  /-- DATAGRAM_DISCARDED (R329). A received datagram failing format, CRC or source checks is discarded without reply and counted. -/
  | datagramDiscarded (g : Datagram)
  /-- HELLO (R330). HELLO negotiates the protocol version and opens a session in a drawer slot. -/
  | hello (r : AixPacket)
  /-- BYE (R332). BYE closes the session after its reply. -/
  | bye (r : AixPacket)
  /-- PING (R348). PING returns the angle timestamp and echoes the request bytes. -/
  | ping (r : AixPacket)
  /-- STATUS (R348). STATUS returns the zone, role, source, flags and string masks. -/
  | status (r : AixPacket)
  /-- ABORT (R344). ABORT of a request in the session is decided by the target's state when it reaches the queue. -/
  | abort (r : AixPacket)
  /-- SESSION_TIMEOUT (R332). A session with no valid packet for SESS_TMO seconds closes. -/
  | sessionTimeout (key : Fin 33)
  /-- INTERIM_REPLY (R340). A command not finished ACCEPT_MS after its start receives an interim reply. -/
  | interimReply
  /-- AIX_CMT (R343). The engine's commit write completes a request, and AIX sends its final reply. -/
  | aixCmt
  /-- CONFIG_LOAD (R349). CONFIG_LOAD adds data to, or starts, the staging image. -/
  | configLoad (r : AixPacket) (hold : Bool)
  /-- CONFIG_COMMIT (R381). CONFIG_COMMIT checks the staging image, writes a slot and makes a configuration restart. -/
  | configCommit (r : AixPacket) (hold : Bool) (fault : Option Nat)
  /-- CONFIG_READ (R349). CONFIG_READ returns bytes of a slot or of the staging image. -/
  | configRead (r : AixPacket) (hold : Bool)
  /-- PAIR_ROLE (R27). PAIR_ROLE ends both roles and renegotiates with the requested member preferred. -/
  | pairRole (r : AixPacket) (hold : Bool)
  /-- ARM (R350). The Aidex ARM request arms the zone under R203. -/
  | arm (r : AixPacket) (hold : Bool)
  /-- DISARM (R350). The Aidex DISARM request disarms the zone in ARMED. -/
  | disarm (r : AixPacket) (hold : Bool)
  /-- STRING_CMD (R350). STRING_CMD closes, opens or clears the latch of a string. -/
  | stringCmd (r : AixPacket) (hold : Bool)
  /-- ZONE_CLEAR (R350). ZONE_CLEAR clears the zone trip latch under R200. -/
  | zoneClear (r : AixPacket) (hold : Bool)
  /-- CHANNEL_CMD (R350). CHANNEL_CMD switches, sets the duty of, or clears a load channel or low-side output that the drawer may use. -/
  | channelCmd (r : AixPacket) (hold : Bool)
  /-- OUTPUT_STATUS (R350). OUTPUT_STATUS returns the channel, output and sequencer states. -/
  | outputStatus (r : AixPacket) (hold : Bool)
  /-- EST_READ (R352). EST_READ copies consistent published records of a chain into fragmented replies. -/
  | estRead (r : AixPacket) (hold : Bool)
  /-- RECORD_READ (R351). RECORD_READ returns a position's latest records as received. -/
  | recordRead (r : AixPacket) (hold : Bool)
  /-- CELL_INIT (R351). CELL_INIT writes a cell reinitialisation request. -/
  | cellInit (r : AixPacket) (hold : Bool)
  /-- BAL_ENABLE (R351). BAL_ENABLE sets the balancing permission. -/
  | balEnable (r : AixPacket) (hold : Bool)
  /-- BAL_SET (R351). BAL_SET writes a satellite's balancing registers through service transactions. -/
  | balSet (r : AixPacket) (hold : Bool)
  /-- LOG_READ (R479). LOG_READ returns a contiguous range of sideboard records. -/
  | logRead (r : AixPacket) (hold : Bool)
  /-- LOG_STATUS (R353). LOG_STATUS returns the ring's oldest, newest and held counts and the fallback flags. -/
  | logStatus (r : AixPacket) (hold : Bool)
  /-- UPDATE_BEGIN (R488). UPDATE_BEGIN checks an image header, opens an update and starts erasing staging. -/
  | updateBegin (r : AixPacket) (hold : Bool)
  /-- STAGING_ERASE_DONE (R493). The staging erase completes, and the update becomes OPEN. -/
  | stagingEraseDone
  /-- UPDATE_BLOCK (R492). UPDATE_BLOCK applies one delta record and programs each completed block that passes its CRC. -/
  | updateBlock (r : AixPacket) (hold : Bool)
  /-- UPDATE_ACTIVATE (R495). UPDATE_ACTIVATE checks the result, prepares it, commits and makes it effective. -/
  | updateActivate (r : AixPacket) (hold : Bool)
  /-- UPDATE_STATUS (R354). UPDATE_STATUS returns the update state and versions. -/
  | updateStatus (r : AixPacket) (hold : Bool)
  /-- UPDATE_CANCEL (R500). UPDATE_CANCEL discards an open update or withdraws a pending result. -/
  | updateCancel (r : AixPacket) (hold : Bool)
  /-- SLEEP (R356). SLEEP commits only with no wake source active, and hands the sleep request to PWR. -/
  | sleep (r : AixPacket) (hold : Bool)
  /-- SET_PLEVEL (R447). SET_PLEVEL changes the performance level and replies when the change is complete. -/
  | setPlevel (r : AixPacket) (hold : Bool)
  /-- POWER_STATUS (R355). POWER_STATUS returns the level, wake kind and source, VAUX and time since wake. -/
  | powerStatus (r : AixPacket) (hold : Bool)
  /-- REG_READ (R358). REG_READ reads registers with the hypervisor attribute byte. -/
  | regRead (r : AixPacket) (hold : Bool)
  /-- REG_WRITE (R358). REG_WRITE writes registers with the hypervisor attribute byte. -/
  | regWrite (r : AixPacket) (hold : Bool)
  /-- SAT_READ (R357). SAT_READ reads satellite words through service transactions. -/
  | satRead (r : AixPacket) (hold : Bool)
  /-- SAT_WRITE (R357). SAT_WRITE writes one satellite word through a service transaction. -/
  | satWrite (r : AixPacket) (hold : Bool)
  /-- TENANT_CTRL (R357). TENANT_CTRL resets or releases a customer tenant. -/
  | tenantCtrl (r : AixPacket) (hold : Bool)
  /-- NET_SLEEP_POLICY (R444). NET_SLEEP_POLICY enables or disables the network sleep agreement and sets its parameters. -/
  | netSleepPolicy (r : AixPacket) (hold : Bool)
  /-- NET_STATUS (R359). NET_STATUS returns the CAN controller, transceiver and NSM states. -/
  | netStatus (r : AixPacket) (hold : Bool)
  /-- ROUTE_SEND (R359). ROUTE_SEND sends one message through a routing-table entry. -/
  | routeSend (r : AixPacket) (hold : Bool)
  /-- TENANT_REQUEST (R335). A tenant-class request is placed in the drawer's request ring for tenant software. -/
  | tenantRequest (r : AixPacket) (opcode : BitVec 15)
  /-- TENANT_REPLY (R336). Tenant software advances the reply producer index, and AIX checks and sends the reply. -/
  | tenantReply (k : Fin 7) (v : BitVec 5)
  /-- DRW_REQ_CONS (R363). Tenant software advances the request consumer index, which is checked against the ring bounds. -/
  | drwReqCons (k : Fin 7) (v : BitVec 5)
  /-- TENANT_TIMEOUT (R336). A tenant request without a final reply within TMO is answered TENANT_TIMEOUT. -/
  | tenantTimeout (j : Nat)
  /-- AIX_CLR_CNT (R362). A write clears the AIX counters. -/
  | aixClrCnt
  /-- ARP_REQUEST (R326). The port answers ARP for its IPv4 address. -/
  | arpRequest (port : Fin 2) (f : NetFrame)
  /-- NEIGHBOUR_SOLICITATION (R326). The port answers neighbour solicitations for its IPv6 addresses. -/
  | neighbourSolicitation (port : Fin 2) (f : NetFrame)
  /-- ECHO_REQUEST (R326). The port answers ICMP and ICMPv6 echo requests up to 1,500 bytes. -/
  | echoRequest (port : Fin 2) (f : NetFrame) (bytes : List Byte)
  /-- ETH_LINK (R361). An Ethernet port's link goes up or down. -/
  | ethLink (port : Fin 2) (up : Bool)
  /-- ETH_PTP (R361). A port's IEEE 802.1AS synchronisation is gained or lost. -/
  | ethPtp (port : Fin 2) (sync : Bool)
  /-- ETH_CNT_CLR (R364). A write clears an Ethernet port's counters. -/
  | ethCntClr (e : Fin 2)
  /-- TWP_WRITE_TRANSFER (R360). A wake-port write transfer ends at STOP, and the device takes the request packet. -/
  | twpWriteTransfer (bytes : List Byte) (fast : Bool)
  /-- TWP_READ_TRANSFER (R360). A wake-port read transfer returns the reply length and packet, or length 0. -/
  | twpReadTransfer (fast : Bool)
  /-- TWP_REPLY_EXPIRY (R360). A reply not read within 1 s is discarded. -/
  | twpReplyExpiry
  /-- POWER_ON_RESET (R365). VAUX rising through 16 V releases power-on reset with cause 0. -/
  | powerOnReset (xtal : Bool)
  /-- RST_N_RESET (R365). RST_N held low for at least 10 µs makes a device reset with cause 1. -/
  | rstNReset
  /-- GROUND_RETURN_RESET (R365). The return of ground after its loss makes a device reset with cause 2. -/
  | groundReturnReset
  /-- BROWN_OUT (R512). VAUX below 9.0 V for 10 µs makes a device reset. -/
  | brownOut
  /-- HUTCH_RETENTION_LOSS (R512). VAUX below 6.0 V loses every hutch state, including the sideboard fallback area. -/
  | hutchRetentionLoss
  /-- SYS_RESET (R365). A secure write of 0x5D makes a device reset with cause 4. -/
  | sysReset (key : Byte)
  /-- BOOT (R366). From reset release the device tests its trestles, verifies images, selects and checks a configuration, and reaches DISARMED or configuration hold. -/
  | boot (rs : List TestResult) (slotB : Bool)
  /-- SYS_WAKE_ACK (R385). A write ends the collection of wake sources until the next release. -/
  | sysWakeAck
  /-- BANK_CONFIRMED (R501). After CONFIRM_S seconds in RUN, a trial bank is confirmed. -/
  | bankConfirmed
  /-- BE_N_POP (R397). A write removes the oldest entry of the normal-world bus error queue. -/
  | beNPop (t : Fin 5)
  /-- BE_S_POP (R397). A secure write removes the oldest entry of the secure bus error queue. -/
  | beSPop (t : Fin 5)
  /-- BRG_CLR (R411). A write clears the bridge counters. -/
  | brgClr
  /-- PEER_LINK_UP (R401). The peer link completes training and negotiates its version. -/
  | peerLinkUp (ver : Fin 2) (two : Bool)
  /-- PEER_LINK_DOWN (R399). 500 µs without a valid peer frame takes the link down and ends outstanding requests. -/
  | peerLinkDown
  /-- PEER_LANE (R399). A peer lane loses lock, and the link runs on the other lane alone. -/
  | peerLane (lane : Fin 2)
  /-- PEER_LINK_CONTROL_FRAME (R399). A link control frame acknowledges frames and keeps the link alive. -/
  | peerLinkControlFrame (acked : Fin 33) (rtt : Option (BitVec 16)) (zone : Option (Fin 7))
  /-- PEER_RETRANSMIT (R399). A frame without an acknowledgement after 20 µs is sent again with every later frame. -/
  | peerRetransmit (n : Fin 33)
  /-- PEER_IDLE_CONTROL (R399). A member with nothing to send sends a link control frame every 10 µs. -/
  | peerIdleControl
  /-- PEER_REQUEST (R403). An inbound bridge request is executed at the partner, refused, or answered RETRY. -/
  | peerRequest (write : Bool) (a : BitVec 40) (size : Fin 65) (data : BitVec 64)
  /-- PEER_INBOUND_COMPLETE (R403). An inbound request ends at the partner's fabric, and its response is sent. -/
  | peerInboundComplete (chk : MemCheck)
  /-- PEER_RESPONSE (R402). A response to an outbound request completes the peer bridge access or fails it. -/
  | peerResponse (j : Fin 8) (a : PeerAnswer)
  /-- PEER_REQUEST_RETRY (R404). 20 µs after a RETRY answer, the secondary sends its request again. -/
  | peerRequestRetry (j : Fin 8)
  /-- PEER_CLR (R414). A write clears the peer counters. -/
  | peerClr
  /-- CAN_FRAME_RECEIVED (R427). A valid CAN frame is matched against the accept entries and delivered, gatewayed or dropped. -/
  | canFrameReceived (n : Fin 6) (f : CanFrame) (sof : Word)
  /-- KEEP_ALIVE (R435). A keep-alive updates a node's vote and may abort PREPARE or prompt an answer to WAKE_REQ. -/
  | keepAlive (n : Fin 6) (node : Fin 64) (data : List Byte) (sof : Word)
  /-- TX_CMD (R418). A write with GO queues a frame from a transmit entry, or reports why it cannot. -/
  | txCmd (n : Fin 6) (p : Fin 2) (route : BitVec 12) (len : BitVec 7) (go : Bool)
  /-- TX_CANCEL (R420). A cancel removes a queued frame before its next SOF bit. -/
  | txCancel (n : Fin 6) (p : Fin 2) (tag : Byte) (go : Bool) (under : Option Nat)
  /-- TX_DONE_READ (R421). A read pops the oldest transmit outcome entry. -/
  | txDoneRead (n : Fin 6) (p : Fin 2)
  /-- RX_POP (R443). A write removes the head frame of a page's receive FIFO. -/
  | rxPop (n : Fin 6) (p : Fin 2)
  /-- CAN_TX_SUCCESS (R419). A transmitted frame succeeds at the last bit of its end of frame. -/
  | canTxSuccess (n : Fin 6) (since : Nat)
  /-- CAN_TX_ERROR (R419). A transmission attempt ends in an error, and the frame is tried again or abandoned. -/
  | canTxError (n : Fin 6) (since : Nat) (f : CanFail)
  /-- CAN_TTL_EXPIRY (R419). A frame still queued TTL_MS after it was queued is removed with outcome 3. -/
  | canTtlExpiry (n : Fin 6) (under : Option Nat)
  /-- RECOVER (R422). A write of RECOVER starts bus-off recovery. -/
  | recover (n : Fin 6)
  /-- CAN_BUS_ON (R422). Recovery completes after 128 idle sequences, and the channel returns to the bus. -/
  | canBusOn (n : Fin 6)
  /-- CAN_MODE (R417). A written controller mode takes effect at the next bus idle. -/
  | canMode (n : Fin 6)
  /-- CAN_XCVR_STATE (R433). A write of a transceiver state moves the transceiver to NORMAL, LISTEN, STANDBY or SLEEP. -/
  | canXcvrState (n : Fin 6) (st : BitVec 2)
  /-- CAN_TXD_TIMEOUT (R433). A dominant TXD of 1 to 4 ms turns the transmitter off. -/
  | canTxdTimeout (n : Fin 6)
  /-- CAN_BUS_WAKE (R434). A transceiver detects a bus wake-up pattern, which sets NSM_XWAKE and may drive REG_EN high. -/
  | canBusWake (n : Fin 6)
  /-- CAN_CNT_CLR (R442). A write clears a channel's counters. -/
  | canCntClr (n : Fin 6)
  /-- NSM_EN (R437). A write of NSM_CTRL.EN starts or ends the sleep agreement. -/
  | nsmEn (on : Bool)
  /-- KEEP_ALIVE_SEND (R436). While the own vote is awake, a keep-alive is sent every PERIOD. -/
  | keepAliveSend
  /-- NODE_VOTE_EXPIRY (R435). A node's awake vote lapses 3 × PERIOD after its last keep-alive. -/
  | nodeVoteExpiry (j : Fin 64)
  /-- IDLE_EXPIRY (R437). IDLE_LEFT reaches 0 in READY, and the NSM enters PREPARE. -/
  | idleExpiry
  /-- NM_SLEEP_COMMIT (R439). WAIT_MS elapses, and the NSM sets the transceivers and hands PWR the sleep request. -/
  | nmSleepCommit
  /-- NM_NODE_CAPPED (R440). A node that alone held the network awake for CAP_S seconds is capped. -/
  | nmNodeCapped (j : Fin 64)
  /-- NSM_NODE_CAPPED_CLEAR (R440). A write of 1 to a node's CAPPED bit uncaps the node. -/
  | nsmNodeCappedClear (j : Fin 64)
  /-- PWR_PL_WRITE (R447). A write of PWR_PL.TARGET starts a change of performance level, or holds it until the running change ends. -/
  | pwrPlWrite (lv : Fin 4)
  /-- PL_CHANGE (R446). A level change completes at the divider edge and rail ramp. -/
  | plChange
  /-- PWR_SLEEP_GO (R450). A sleep request enters ENTERING and stops the trestles toward the seal cycle. -/
  | pwrSleepGo (st : BitVec 3)
  /-- SLEEP_SEAL (R451). The seal cycle is reached, and PWR takes the lasting actions of the target state. -/
  | sleepSeal (fEntry : Word)
  /-- SWITCH_WAKE (R456). The hutch detects a wake switch input at its wake level. -/
  | switchWake (j : Fin 48)
  /-- TWP_ADDRESS_MATCH (R457). The hutch matcher recognises the wake-port address and sets MATCH. -/
  | twpAddressMatch (data : Bool)
  /-- WAKE_DECISION (R451). The hutch's wake decision abandons entry before the seal, or returns the device from its sleep state. -/
  | wakeDecision (m : SleepMeas)
  /-- HUTCH_CLOCK (R458). The hutch declares the crystal stopped and runs on the RC oscillator. -/
  | hutchClock
  /-- PWR_CG_WRITE (R461). A write of the clock gates stops or restarts block clocks, subject to the world and zone-state rules. -/
  | pwrCgWrite (t : Fin 5) (attr : Byte) (w : Word)
  /-- PWR_RST_WRITE (R461). A write of the block resets holds blocks at their reset values or releases them. -/
  | pwrRstWrite (t : Fin 5) (attr : Byte) (w : Word)
  /-- PWR_PSW_WRITE (R461). A write of the power switches removes or restores a block's power. -/
  | pwrPswWrite (t : Fin 5) (attr : Byte) (w : Word)
  /-- RECORD_WRITE (R471). REC writes and verifies the next intake event as a sideboard record. -/
  | recordWrite (r : MramResult)
  /-- REPEAT_EXPIRY (R472). REPEAT_MS after the last occurrence of a run, its closing record enters the intake. -/
  | repeatExpiry
  /-- TIME_MARK (R475). MARK_MIN minutes after the newest record, REC writes a time mark. -/
  | timeMark
  /-- RING_OPENED (R474). The ring scan after reset ends, and REC writes RING_OPENED, the carried closing record and the early events. -/
  | ringOpened (r : MramResult)
  /-- SUB_CMD (R476). A secure write with GO submits a software event to the intake. -/
  | subCmd (t : Fin 5) (code : BitVec 16) (go : Bool)
  /-- RD_SEQ (R477). A write starts a read-port read of one sideboard record, which is checked under R478. -/
  | rdSeq (t : Fin 5) (seq : Word)
  /-- CAN_ARBITRATION_LOST (R419). A channel loses arbitration for its frame; the frame competes again, or is abandoned with outcome 1 when RETRY is 0. -/
  | canArbitrationLost (n : Fin 6) (since : Nat)
  /-- CAN_RECEIVE_ERROR (R422). A channel detects an error while receiving, raising REC and possibly moving the channel to error passive. -/
  | canReceiveError (n : Fin 6) (heavy : Bool)
  /-- CAN_XCVR_MOVE_COMPLETE (R433). A transceiver's move from STANDBY or SLEEP to NORMAL or LISTEN completes within 50 µs, ending the channel's HELD state. -/
  | canXcvrMoveComplete (n : Fin 6)
  /-- ACTIVATION_GRANT (R499). The requesting member receives its partner's grant or refusal of an activation request over the peer link. -/
  | activationGrant (granted : Bool) (reason : Fin 6)
  /-- PARTNER_UPDATE_REPORT (R499). A member receives its partner's report of its update state, trial bank and UCODE version, ending a granted hold or changing whether digests are compared. -/
  | partnerUpdateReport (r : UpdReport)
  /-- PER_FRAME_PEER_MESSAGE (R117). The primary receives the secondary's per-frame report of which SYNCs and ENUMs reached the B ends, driving ring breaks, RING entry and healing. -/
  | perFramePeerMessage (syncs enums : BitVec 16)
  /-- DELAY_TABLE_TRANSFER (R140). A secondary receives the primary's whole A delay table for a chain after ENUM_DONE and uses it for its own corrections. -/
  | delayTableTransfer (n : Fin 16) (dly : List (Option (BitVec 16)))
deriving DecidableEq, Repr

end Sys2Proof
end

