-- ==== Sys2Proof/Config.lean ====
section
/-!
DEFINITION. Config.lean: what the spec leaves open and the machine goes on with. Nothing here has a body or a value that
a proof can see: a claim holds whatever these are.
-/

namespace Sys2Proof.Config

/-- A free 32-bit value, the `n`-th that the model has drawn (notes/assumptions/2.md). -/
opaque freeWord : Nat → Word

/-- A free 64-bit value, the `n`-th drawn. -/
opaque freeDWord : Nat → DWord

/-- A free byte, the `n`-th drawn. -/
opaque freeByte : Nat → Byte

/-- Angle-clock ticks in one increment of the time CSR (R299; the spec gives no rate of it). -/
opaque timeTicks : Nat

/-- Where a satellite holds its balancing registers: the word address that BAL_SET's word `k` is written to. The spec gives the
registers and not their addresses (R351). -/
opaque balWord : Nat → Word

/-- Where a satellite holds its alert threshold registers: the word address that threshold `k` of R198's eight, and the enables as word 8,
is written to. The spec gives the registers and not their addresses. -/
opaque satThr : Nat → Word

/-- What OTP holds for cabinet slots 0 to 2 (R317), the first byte most significant. -/
opaque otpSlot : Nat → BitVec 384

end Sys2Proof.Config
end

