-- ==== Sys2Proof/Machine/RegMap.lean ====
section
/-!
DEFINITION. Machine/RegMap.lean: the place of every register (`R`) and of every field (`F`) of the 22 register maps.
A register's number is its offset from 0x00_2000_0000, that is 0x1_0000 times its slot (R4) plus the offset its chapter
gives. The names are the spec's; a name used in two blocks carries the block in front (KZC_CH_STAT, LSW_CH_STAT).
-/

namespace Sys2Proof.Machine

/-! ### SYS (R387) -/

abbrev R.SYS_ID : Nat := 0x0
abbrev F.SYS_ID_DEVICE : Fld := ⟨R.SYS_ID, 16, 16⟩
abbrev F.SYS_ID_STEPPING : Fld := ⟨R.SYS_ID, 8, 8⟩
abbrev F.SYS_ID_PACKAGE : Fld := ⟨R.SYS_ID, 0, 8⟩
abbrev R.SYS_RST_CAUSE : Nat := 0x4
abbrev F.SYS_RST_CAUSE_CAUSE : Fld := ⟨R.SYS_RST_CAUSE, 0, 3⟩
abbrev R.SYS_WAKE : Nat := 0x8
abbrev F.SYS_WAKE_KIND : Fld := ⟨R.SYS_WAKE, 0, 2⟩
abbrev F.SYS_WAKE_SRC : Fld := ⟨R.SYS_WAKE, 8, 6⟩
abbrev R.SYS_WAKE_MASK_LO : Nat := 0xC
abbrev F.SYS_WAKE_MASK_LO_MASK : Fld := ⟨R.SYS_WAKE_MASK_LO, 0, 32⟩
abbrev R.SYS_WAKE_MASK_HI : Nat := 0x10
abbrev F.SYS_WAKE_MASK_HI_MASK : Fld := ⟨R.SYS_WAKE_MASK_HI, 0, 16⟩
abbrev F.SYS_WAKE_MASK_HI_TWP : Fld := ⟨R.SYS_WAKE_MASK_HI, 16, 1⟩
abbrev R.SYS_WAKE_ACK : Nat := 0x14
abbrev F.SYS_WAKE_ACK_ACK : Fld := ⟨R.SYS_WAKE_ACK, 0, 1⟩
abbrev R.SYS_BOOT : Nat := 0x18
abbrev F.SYS_BOOT_BANK : Fld := ⟨R.SYS_BOOT, 0, 1⟩
abbrev F.SYS_BOOT_FALLBACK : Fld := ⟨R.SYS_BOOT, 1, 1⟩
abbrev R.SYS_RESET : Nat := 0x1C
abbrev F.SYS_RESET_KEY : Fld := ⟨R.SYS_RESET, 0, 8⟩

/-! ### ANG (R82 to R90) -/

abbrev R.ANG_CTRL : Nat := 0x20000
abbrev F.ANG_CTRL_LINE_EN : Fld := ⟨R.ANG_CTRL, 0, 1⟩
abbrev F.ANG_CTRL_PEER_EN : Fld := ⟨R.ANG_CTRL, 1, 1⟩
abbrev F.ANG_CTRL_PTP_EN : Fld := ⟨R.ANG_CTRL, 2, 1⟩
abbrev F.ANG_CTRL_JUMP_MODE : Fld := ⟨R.ANG_CTRL, 3, 1⟩
abbrev F.ANG_CTRL_ROT : Fld := ⟨R.ANG_CTRL, 4, 1⟩
abbrev F.ANG_CTRL_PTP_PORT : Fld := ⟨R.ANG_CTRL, 5, 1⟩
abbrev F.ANG_CTRL_FORCE_HOLD : Fld := ⟨R.ANG_CTRL, 6, 1⟩
abbrev F.ANG_CTRL_LOCK : Fld := ⟨R.ANG_CTRL, 31, 1⟩
abbrev R.ANG_NOM_FREQ : Nat := 0x20004
abbrev F.ANG_NOM_FREQ_NOM : Fld := ⟨R.ANG_NOM_FREQ, 0, 32⟩
abbrev R.ANG_VNOM : Nat := 0x20008
abbrev F.ANG_VNOM_VNOM : Fld := ⟨R.ANG_VNOM, 0, 16⟩
abbrev R.ANG_THR : Nat := 0x2000C
abbrev F.ANG_THR_SAG : Fld := ⟨R.ANG_THR, 0, 8⟩
abbrev F.ANG_THR_SWELL : Fld := ⟨R.ANG_THR, 8, 8⟩
abbrev F.ANG_THR_COAST : Fld := ⟨R.ANG_THR, 16, 8⟩
abbrev F.ANG_THR_LOSS : Fld := ⟨R.ANG_THR, 24, 8⟩
abbrev R.ANG_JUMP : Nat := 0x20010
abbrev F.ANG_JUMP_THR : Fld := ⟨R.ANG_JUMP, 0, 16⟩
abbrev F.ANG_JUMP_SLEW_MAX : Fld := ⟨R.ANG_JUMP, 16, 16⟩
abbrev R.ANG_HOLD : Nat := 0x20014
abbrev F.ANG_HOLD_WARN : Fld := ⟨R.ANG_HOLD, 0, 16⟩
abbrev F.ANG_HOLD_MAX : Fld := ⟨R.ANG_HOLD, 16, 16⟩
abbrev R.ANG_QUAL : Nat := 0x20018
abbrev F.ANG_QUAL_REQUAL : Fld := ⟨R.ANG_QUAL, 0, 16⟩
abbrev F.ANG_QUAL_COAST_MAX : Fld := ⟨R.ANG_QUAL, 16, 16⟩
abbrev R.ANG_PHASE_TRIM : Nat := 0x2001C
abbrev F.ANG_PHASE_TRIM_TRIM : Fld := ⟨R.ANG_PHASE_TRIM, 0, 16⟩
abbrev R.ANG_STATUS : Nat := 0x20020
abbrev F.ANG_STATUS_SRC : Fld := ⟨R.ANG_STATUS, 0, 3⟩
abbrev F.ANG_STATUS_TRK : Fld := ⟨R.ANG_STATUS, 3, 3⟩
abbrev F.ANG_STATUS_REF_PHASE : Fld := ⟨R.ANG_STATUS, 6, 2⟩
abbrev F.ANG_STATUS_BAND : Fld := ⟨R.ANG_STATUS, 8, 3⟩
abbrev F.ANG_STATUS_QUALIFIED : Fld := ⟨R.ANG_STATUS, 11, 1⟩
abbrev F.ANG_STATUS_SLEWING : Fld := ⟨R.ANG_STATUS, 12, 1⟩
abbrev F.ANG_STATUS_HELD : Fld := ⟨R.ANG_STATUS, 13, 1⟩
abbrev F.ANG_STATUS_LINE_Q : Fld := ⟨R.ANG_STATUS, 14, 1⟩
abbrev F.ANG_STATUS_PEER_Q : Fld := ⟨R.ANG_STATUS, 15, 1⟩
abbrev F.ANG_STATUS_PTP_Q : Fld := ⟨R.ANG_STATUS, 16, 1⟩
abbrev F.ANG_STATUS_ROT_ERR : Fld := ⟨R.ANG_STATUS, 17, 1⟩
abbrev F.ANG_STATUS_HOLD_WARN : Fld := ⟨R.ANG_STATUS, 18, 1⟩
abbrev F.ANG_STATUS_WIN_ERR : Fld := ⟨R.ANG_STATUS, 19, 1⟩
abbrev R.ANG_NOW_LO : Nat := 0x20024
abbrev F.ANG_NOW_LO_TS_LO : Fld := ⟨R.ANG_NOW_LO, 0, 32⟩
abbrev R.ANG_NOW_HI : Nat := 0x20028
abbrev F.ANG_NOW_HI_TS_HI : Fld := ⟨R.ANG_NOW_HI, 0, 16⟩
abbrev R.ANG_FREQ_MEAS : Nat := 0x2002C
abbrev F.ANG_FREQ_MEAS_FREQ : Fld := ⟨R.ANG_FREQ_MEAS, 0, 32⟩
abbrev R.ANG_INC : Nat := 0x20030
abbrev F.ANG_INC_INC : Fld := ⟨R.ANG_INC, 0, 32⟩
abbrev R.ANG_AMPL : Nat := 0x20034
abbrev F.ANG_AMPL_AMPL_A : Fld := ⟨R.ANG_AMPL, 0, 8⟩
abbrev F.ANG_AMPL_AMPL_B : Fld := ⟨R.ANG_AMPL, 8, 8⟩
abbrev F.ANG_AMPL_AMPL_C : Fld := ⟨R.ANG_AMPL, 16, 8⟩
abbrev R.ANG_HOLD_CYC : Nat := 0x20038
abbrev F.ANG_HOLD_CYC_CYC : Fld := ⟨R.ANG_HOLD_CYC, 0, 32⟩
abbrev R.ANG_PHASE_ERR : Nat := 0x2003C
abbrev F.ANG_PHASE_ERR_ERR : Fld := ⟨R.ANG_PHASE_ERR, 0, 16⟩
abbrev R.ANG_WIN_EST : Nat := 0x20040
abbrev F.ANG_WIN_EST_START : Fld := ⟨R.ANG_WIN_EST, 0, 16⟩
abbrev F.ANG_WIN_EST_LEN : Fld := ⟨R.ANG_WIN_EST, 16, 16⟩
abbrev R.ANG_WIN_SLACK : Nat := 0x20044
abbrev F.ANG_WIN_SLACK_SLACK : Fld := ⟨R.ANG_WIN_SLACK, 0, 16⟩
abbrev F.ANG_WIN_SLACK_PUB_MIN : Fld := ⟨R.ANG_WIN_SLACK, 16, 16⟩
abbrev R.ANG_WIN_ACQ : Nat := 0x20048
abbrev F.ANG_WIN_ACQ_ACQ_END : Fld := ⟨R.ANG_WIN_ACQ, 0, 16⟩
abbrev R.ANG_SCHED : Nat := 0x2004C
abbrev F.ANG_SCHED_LATE_RUN : Fld := ⟨R.ANG_SCHED, 0, 8⟩
abbrev F.ANG_SCHED_SHORT_LEFT : Fld := ⟨R.ANG_SCHED, 8, 3⟩
abbrev F.ANG_SCHED_DECIM : Fld := ⟨R.ANG_SCHED, 11, 1⟩
abbrev F.ANG_SCHED_SKIP_NEXT : Fld := ⟨R.ANG_SCHED, 12, 1⟩
abbrev F.ANG_SCHED_DELAY : Fld := ⟨R.ANG_SCHED, 16, 16⟩
abbrev R.ANG_INT_STAT : Nat := 0x20050
abbrev F.ANG_INT_STAT_SRC_CHG : Fld := ⟨R.ANG_INT_STAT, 0, 1⟩
abbrev F.ANG_INT_STAT_JUMP : Fld := ⟨R.ANG_INT_STAT, 1, 1⟩
abbrev F.ANG_INT_STAT_SAG : Fld := ⟨R.ANG_INT_STAT, 2, 1⟩
abbrev F.ANG_INT_STAT_SWELL : Fld := ⟨R.ANG_INT_STAT, 3, 1⟩
abbrev F.ANG_INT_STAT_HOLD : Fld := ⟨R.ANG_INT_STAT, 4, 1⟩
abbrev F.ANG_INT_STAT_UNQUAL : Fld := ⟨R.ANG_INT_STAT, 5, 1⟩
abbrev F.ANG_INT_STAT_REF_PHASE : Fld := ⟨R.ANG_INT_STAT, 6, 1⟩
abbrev F.ANG_INT_STAT_FREQ_RANGE : Fld := ⟨R.ANG_INT_STAT, 7, 1⟩
abbrev F.ANG_INT_STAT_ROT_ERR : Fld := ⟨R.ANG_INT_STAT, 8, 1⟩
abbrev F.ANG_INT_STAT_RELABEL : Fld := ⟨R.ANG_INT_STAT, 9, 1⟩
abbrev F.ANG_INT_STAT_SCHED_LATE : Fld := ⟨R.ANG_INT_STAT, 10, 1⟩
abbrev F.ANG_INT_STAT_SCHED_LOST : Fld := ⟨R.ANG_INT_STAT, 11, 1⟩
abbrev F.ANG_INT_STAT_SCHED_REGAINED : Fld := ⟨R.ANG_INT_STAT, 12, 1⟩
abbrev F.ANG_INT_STAT_SLOT_LATE : Fld := ⟨R.ANG_INT_STAT, 13, 1⟩
abbrev F.ANG_INT_STAT_CYCLE : Fld := ⟨R.ANG_INT_STAT, 14, 1⟩
abbrev F.ANG_INT_STAT_WIN_ERR : Fld := ⟨R.ANG_INT_STAT, 15, 1⟩
abbrev R.ANG_INT_EN : Nat := 0x20054
abbrev F.ANG_INT_EN_SRC_CHG : Fld := ⟨R.ANG_INT_EN, 0, 1⟩
abbrev F.ANG_INT_EN_JUMP : Fld := ⟨R.ANG_INT_EN, 1, 1⟩
abbrev F.ANG_INT_EN_SAG : Fld := ⟨R.ANG_INT_EN, 2, 1⟩
abbrev F.ANG_INT_EN_SWELL : Fld := ⟨R.ANG_INT_EN, 3, 1⟩
abbrev F.ANG_INT_EN_HOLD : Fld := ⟨R.ANG_INT_EN, 4, 1⟩
abbrev F.ANG_INT_EN_UNQUAL : Fld := ⟨R.ANG_INT_EN, 5, 1⟩
abbrev F.ANG_INT_EN_REF_PHASE : Fld := ⟨R.ANG_INT_EN, 6, 1⟩
abbrev F.ANG_INT_EN_FREQ_RANGE : Fld := ⟨R.ANG_INT_EN, 7, 1⟩
abbrev F.ANG_INT_EN_ROT_ERR : Fld := ⟨R.ANG_INT_EN, 8, 1⟩
abbrev F.ANG_INT_EN_RELABEL : Fld := ⟨R.ANG_INT_EN, 9, 1⟩
abbrev F.ANG_INT_EN_SCHED_LATE : Fld := ⟨R.ANG_INT_EN, 10, 1⟩
abbrev F.ANG_INT_EN_SCHED_LOST : Fld := ⟨R.ANG_INT_EN, 11, 1⟩
abbrev F.ANG_INT_EN_SCHED_REGAINED : Fld := ⟨R.ANG_INT_EN, 12, 1⟩
abbrev F.ANG_INT_EN_SLOT_LATE : Fld := ⟨R.ANG_INT_EN, 13, 1⟩
abbrev F.ANG_INT_EN_CYCLE : Fld := ⟨R.ANG_INT_EN, 14, 1⟩
abbrev F.ANG_INT_EN_WIN_ERR : Fld := ⟨R.ANG_INT_EN, 15, 1⟩
abbrev R.ANG_PTP_EPOCH_S_LO : Nat := 0x20060
abbrev F.ANG_PTP_EPOCH_S_LO_S_LO : Fld := ⟨R.ANG_PTP_EPOCH_S_LO, 0, 32⟩
abbrev R.ANG_PTP_EPOCH_S_HI : Nat := 0x20064
abbrev F.ANG_PTP_EPOCH_S_HI_S_HI : Fld := ⟨R.ANG_PTP_EPOCH_S_HI, 0, 16⟩
abbrev R.ANG_PTP_EPOCH_NS : Nat := 0x20068
abbrev F.ANG_PTP_EPOCH_NS_NS : Fld := ⟨R.ANG_PTP_EPOCH_NS, 0, 30⟩
abbrev R.ANG_PTP_FREQ : Nat := 0x2006C
abbrev F.ANG_PTP_FREQ_FREQ : Fld := ⟨R.ANG_PTP_FREQ, 0, 32⟩
abbrev R.ANG_PTP_COMMIT : Nat := 0x20070
abbrev F.ANG_PTP_COMMIT_COMMIT : Fld := ⟨R.ANG_PTP_COMMIT, 0, 1⟩
abbrev R.ANG_XPTP_S_LO : Nat := 0x20078
abbrev F.ANG_XPTP_S_LO_S_LO : Fld := ⟨R.ANG_XPTP_S_LO, 0, 32⟩
abbrev R.ANG_XPTP_S_HI : Nat := 0x2007C
abbrev F.ANG_XPTP_S_HI_S_HI : Fld := ⟨R.ANG_XPTP_S_HI, 0, 16⟩
abbrev R.ANG_XPTP_NS : Nat := 0x20080
abbrev F.ANG_XPTP_NS_NS : Fld := ⟨R.ANG_XPTP_NS, 0, 30⟩
abbrev F.ANG_XPTP_NS_VALID : Fld := ⟨R.ANG_XPTP_NS, 31, 1⟩
abbrev R.SLOT_CTRL (n : Nat) : Nat := 0x20100 + 0x10 * n
abbrev F.SLOT_CTRL_EN (n : Nat) : Fld := ⟨R.SLOT_CTRL n, 0, 1⟩
abbrev F.SLOT_CTRL_MODE (n : Nat) : Fld := ⟨R.SLOT_CTRL n, 1, 2⟩
abbrev F.SLOT_CTRL_ACTION (n : Nat) : Fld := ⟨R.SLOT_CTRL n, 3, 2⟩
abbrev F.SLOT_CTRL_TARGET (n : Nat) : Fld := ⟨R.SLOT_CTRL n, 5, 6⟩
abbrev F.SLOT_CTRL_TRESTLE (n : Nat) : Fld := ⟨R.SLOT_CTRL n, 11, 3⟩
abbrev F.SLOT_CTRL_PERIOD (n : Nat) : Fld := ⟨R.SLOT_CTRL n, 20, 12⟩
abbrev R.SLOT_CYC (n : Nat) : Nat := 0x20104 + 0x10 * n
abbrev F.SLOT_CYC_CYC (n : Nat) : Fld := ⟨R.SLOT_CYC n, 0, 32⟩
abbrev R.SLOT_CNT (n : Nat) : Nat := 0x20108 + 0x10 * n
abbrev F.SLOT_CNT_CNT (n : Nat) : Fld := ⟨R.SLOT_CNT n, 0, 16⟩
abbrev R.SLOT_STAT (n : Nat) : Nat := 0x2010C + 0x10 * n
abbrev F.SLOT_STAT_FIRED (n : Nat) : Fld := ⟨R.SLOT_STAT n, 0, 1⟩
abbrev F.SLOT_STAT_LATE (n : Nat) : Fld := ⟨R.SLOT_STAT n, 1, 1⟩
abbrev F.SLOT_STAT_FIRE_CNT (n : Nat) : Fld := ⟨R.SLOT_STAT n, 16, 16⟩

/-! ### KZC (R130 to R133) -/

abbrev R.KZC_CTRL : Nat := 0x40000
abbrev F.KZC_CTRL_CH_EN : Fld := ⟨R.KZC_CTRL, 0, 16⟩
abbrev F.KZC_CTRL_ALERT_EN : Fld := ⟨R.KZC_CTRL, 16, 1⟩
abbrev F.KZC_CTRL_FORCE_V1 : Fld := ⟨R.KZC_CTRL, 17, 1⟩
abbrev F.KZC_CTRL_LOCK : Fld := ⟨R.KZC_CTRL, 31, 1⟩
abbrev R.KZC_SLOT : Nat := 0x40004
abbrev F.KZC_SLOT_LEN : Fld := ⟨R.KZC_SLOT, 0, 16⟩
abbrev R.KZC_SVC : Nat := 0x40008
abbrev F.KZC_SVC_TMO : Fld := ⟨R.KZC_SVC, 0, 16⟩
abbrev F.KZC_SVC_RETRY : Fld := ⟨R.KZC_SVC, 16, 2⟩
abbrev R.KZC_SVC_GUARD : Nat := 0x4000C
abbrev F.KZC_SVC_GUARD_GUARD : Fld := ⟨R.KZC_SVC_GUARD, 0, 16⟩
abbrev R.KZC_RETX : Nat := 0x40010
abbrev F.KZC_RETX_MAX : Fld := ⟨R.KZC_RETX, 0, 4⟩
abbrev F.KZC_RETX_GUARD : Fld := ⟨R.KZC_RETX, 16, 16⟩
abbrev R.KZC_HEAL : Nat := 0x40014
abbrev F.KZC_HEAL_HEAL : Fld := ⟨R.KZC_HEAL, 0, 16⟩
abbrev F.KZC_HEAL_FAIL : Fld := ⟨R.KZC_HEAL, 16, 16⟩
abbrev R.KZC_ALERT_CFG : Nat := 0x40018
abbrev F.KZC_ALERT_CFG_DEDUP : Fld := ⟨R.KZC_ALERT_CFG, 0, 16⟩
abbrev R.KZC_REENUM : Nat := 0x4001C
abbrev F.KZC_REENUM_CYCLES : Fld := ⟨R.KZC_REENUM, 0, 16⟩
abbrev R.KZC_INT_STAT : Nat := 0x40020
abbrev F.KZC_INT_STAT_BREAK : Fld := ⟨R.KZC_INT_STAT, 0, 1⟩
abbrev F.KZC_INT_STAT_HEAL : Fld := ⟨R.KZC_INT_STAT, 1, 1⟩
abbrev F.KZC_INT_STAT_ENUM : Fld := ⟨R.KZC_INT_STAT, 2, 1⟩
abbrev F.KZC_INT_STAT_MISMATCH : Fld := ⟨R.KZC_INT_STAT, 3, 1⟩
abbrev F.KZC_INT_STAT_TRUNC : Fld := ⟨R.KZC_INT_STAT, 4, 1⟩
abbrev F.KZC_INT_STAT_LATE : Fld := ⟨R.KZC_INT_STAT, 5, 1⟩
abbrev F.KZC_INT_STAT_DUP : Fld := ⟨R.KZC_INT_STAT, 6, 1⟩
abbrev F.KZC_INT_STAT_SVC_TMO : Fld := ⟨R.KZC_INT_STAT, 7, 1⟩
abbrev F.KZC_INT_STAT_FAILED : Fld := ⟨R.KZC_INT_STAT, 8, 1⟩
abbrev F.KZC_INT_STAT_SAT_RESET : Fld := ⟨R.KZC_INT_STAT, 9, 1⟩
abbrev F.KZC_INT_STAT_ALERT : Fld := ⟨R.KZC_INT_STAT, 10, 1⟩
abbrev F.KZC_INT_STAT_ALERT_OVF : Fld := ⟨R.KZC_INT_STAT, 11, 1⟩
abbrev F.KZC_INT_STAT_V1 : Fld := ⟨R.KZC_INT_STAT, 12, 1⟩
abbrev F.KZC_INT_STAT_RESTORED : Fld := ⟨R.KZC_INT_STAT, 13, 1⟩
abbrev R.KZC_INT_EN : Nat := 0x40024
abbrev F.KZC_INT_EN_BREAK : Fld := ⟨R.KZC_INT_EN, 0, 1⟩
abbrev F.KZC_INT_EN_HEAL : Fld := ⟨R.KZC_INT_EN, 1, 1⟩
abbrev F.KZC_INT_EN_ENUM : Fld := ⟨R.KZC_INT_EN, 2, 1⟩
abbrev F.KZC_INT_EN_MISMATCH : Fld := ⟨R.KZC_INT_EN, 3, 1⟩
abbrev F.KZC_INT_EN_TRUNC : Fld := ⟨R.KZC_INT_EN, 4, 1⟩
abbrev F.KZC_INT_EN_LATE : Fld := ⟨R.KZC_INT_EN, 5, 1⟩
abbrev F.KZC_INT_EN_DUP : Fld := ⟨R.KZC_INT_EN, 6, 1⟩
abbrev F.KZC_INT_EN_SVC_TMO : Fld := ⟨R.KZC_INT_EN, 7, 1⟩
abbrev F.KZC_INT_EN_FAILED : Fld := ⟨R.KZC_INT_EN, 8, 1⟩
abbrev F.KZC_INT_EN_SAT_RESET : Fld := ⟨R.KZC_INT_EN, 9, 1⟩
abbrev F.KZC_INT_EN_ALERT : Fld := ⟨R.KZC_INT_EN, 10, 1⟩
abbrev F.KZC_INT_EN_ALERT_OVF : Fld := ⟨R.KZC_INT_EN, 11, 1⟩
abbrev F.KZC_INT_EN_V1 : Fld := ⟨R.KZC_INT_EN, 12, 1⟩
abbrev F.KZC_INT_EN_RESTORED : Fld := ⟨R.KZC_INT_EN, 13, 1⟩
abbrev R.KZC_ALERT_FIFO : Nat := 0x40030
abbrev F.KZC_ALERT_FIFO_POS : Fld := ⟨R.KZC_ALERT_FIFO, 0, 6⟩
abbrev F.KZC_ALERT_FIFO_SEV : Fld := ⟨R.KZC_ALERT_FIFO, 6, 2⟩
abbrev F.KZC_ALERT_FIFO_CODE : Fld := ⟨R.KZC_ALERT_FIFO, 8, 8⟩
abbrev F.KZC_ALERT_FIFO_ARG : Fld := ⟨R.KZC_ALERT_FIFO, 16, 8⟩
abbrev F.KZC_ALERT_FIFO_CHAIN : Fld := ⟨R.KZC_ALERT_FIFO, 24, 4⟩
abbrev F.KZC_ALERT_FIFO_PORT : Fld := ⟨R.KZC_ALERT_FIFO, 28, 1⟩
abbrev F.KZC_ALERT_FIFO_OVF : Fld := ⟨R.KZC_ALERT_FIFO, 30, 1⟩
abbrev F.KZC_ALERT_FIFO_VALID : Fld := ⟨R.KZC_ALERT_FIFO, 31, 1⟩
abbrev R.KZC_ALERT_TS_LO : Nat := 0x40034
abbrev F.KZC_ALERT_TS_LO_TS_LO : Fld := ⟨R.KZC_ALERT_TS_LO, 0, 32⟩
abbrev R.KZC_ALERT_TS_HI : Nat := 0x40038
abbrev F.KZC_ALERT_TS_HI_TS_HI : Fld := ⟨R.KZC_ALERT_TS_HI, 0, 16⟩
abbrev R.KZC_CH_CTRL (n : Nat) : Nat := 0x40100 + 0x40 * n
abbrev F.KZC_CH_CTRL_COUNT (n : Nat) : Fld := ⟨R.KZC_CH_CTRL n, 0, 6⟩
abbrev F.KZC_CH_CTRL_ENUM (n : Nat) : Fld := ⟨R.KZC_CH_CTRL n, 8, 1⟩
abbrev F.KZC_CH_CTRL_FILL (n : Nat) : Fld := ⟨R.KZC_CH_CTRL n, 9, 1⟩
abbrev F.KZC_CH_CTRL_CLR_CNT (n : Nat) : Fld := ⟨R.KZC_CH_CTRL n, 10, 1⟩
abbrev R.KZC_CH_STAT (n : Nat) : Nat := 0x40104 + 0x40 * n
abbrev F.KZC_CH_STAT_STATE (n : Nat) : Fld := ⟨R.KZC_CH_STAT n, 0, 4⟩
abbrev F.KZC_CH_STAT_VER (n : Nat) : Fld := ⟨R.KZC_CH_STAT n, 4, 2⟩
abbrev F.KZC_CH_STAT_LAST_A (n : Nat) : Fld := ⟨R.KZC_CH_STAT n, 6, 6⟩
abbrev F.KZC_CH_STAT_FIRST_B (n : Nat) : Fld := ⟨R.KZC_CH_STAT n, 12, 6⟩
abbrev F.KZC_CH_STAT_LOCK_A (n : Nat) : Fld := ⟨R.KZC_CH_STAT n, 18, 1⟩
abbrev F.KZC_CH_STAT_LOCK_B (n : Nat) : Fld := ⟨R.KZC_CH_STAT n, 19, 1⟩
abbrev F.KZC_CH_STAT_SYNC_RET (n : Nat) : Fld := ⟨R.KZC_CH_STAT n, 20, 1⟩
abbrev R.KZC_CH_COV_LO (n : Nat) : Nat := 0x40108 + 0x40 * n
abbrev F.KZC_CH_COV_LO_COV (n : Nat) : Fld := ⟨R.KZC_CH_COV_LO n, 0, 32⟩
abbrev R.KZC_CH_COV_HI (n : Nat) : Nat := 0x4010C + 0x40 * n
abbrev F.KZC_CH_COV_HI_COV (n : Nat) : Fld := ⟨R.KZC_CH_COV_HI n, 0, 16⟩
abbrev R.KZC_CH_EXCL_LO (n : Nat) : Nat := 0x40110 + 0x40 * n
abbrev F.KZC_CH_EXCL_LO_EXCL (n : Nat) : Fld := ⟨R.KZC_CH_EXCL_LO n, 0, 32⟩
abbrev R.KZC_CH_EXCL_HI (n : Nat) : Nat := 0x40114 + 0x40 * n
abbrev F.KZC_CH_EXCL_HI_EXCL (n : Nat) : Fld := ⟨R.KZC_CH_EXCL_HI n, 0, 16⟩
abbrev R.KZC_CH_ERR_CRC (n : Nat) : Nat := 0x40118 + 0x40 * n
abbrev F.KZC_CH_ERR_CRC_CRC_A (n : Nat) : Fld := ⟨R.KZC_CH_ERR_CRC n, 0, 16⟩
abbrev F.KZC_CH_ERR_CRC_CRC_B (n : Nat) : Fld := ⟨R.KZC_CH_ERR_CRC n, 16, 16⟩
abbrev R.KZC_CH_ERR_TRUNC (n : Nat) : Nat := 0x4011C + 0x40 * n
abbrev F.KZC_CH_ERR_TRUNC_TRUNC (n : Nat) : Fld := ⟨R.KZC_CH_ERR_TRUNC n, 0, 16⟩
abbrev F.KZC_CH_ERR_TRUNC_ORPHAN (n : Nat) : Fld := ⟨R.KZC_CH_ERR_TRUNC n, 16, 16⟩
abbrev R.KZC_CH_ERR_LATE (n : Nat) : Nat := 0x40120 + 0x40 * n
abbrev F.KZC_CH_ERR_LATE_LATE (n : Nat) : Fld := ⟨R.KZC_CH_ERR_LATE n, 0, 16⟩
abbrev F.KZC_CH_ERR_LATE_RETX (n : Nat) : Fld := ⟨R.KZC_CH_ERR_LATE n, 16, 16⟩
abbrev R.KZC_CH_ERR_MISC (n : Nat) : Nat := 0x40124 + 0x40 * n
abbrev F.KZC_CH_ERR_MISC_DUP (n : Nat) : Fld := ⟨R.KZC_CH_ERR_MISC n, 0, 16⟩
abbrev F.KZC_CH_ERR_MISC_SVC_TMO (n : Nat) : Fld := ⟨R.KZC_CH_ERR_MISC n, 16, 16⟩
abbrev R.KZC_CH_RT (n : Nat) : Nat := 0x40128 + 0x40 * n
abbrev F.KZC_CH_RT_RT (n : Nat) : Fld := ⟨R.KZC_CH_RT n, 0, 16⟩
abbrev R.KZC_CH_ALERT (n : Nat) : Nat := 0x4012C + 0x40 * n
abbrev F.KZC_CH_ALERT_DEDUP (n : Nat) : Fld := ⟨R.KZC_CH_ALERT n, 0, 16⟩
abbrev R.KZC_DLY (n : Nat) (p : Nat) : Nat := 0x41000 + 0x100 * n + 0x4 * p
abbrev F.KZC_DLY_DLY (n : Nat) (p : Nat) : Fld := ⟨R.KZC_DLY n p, 0, 16⟩
abbrev F.KZC_DLY_FROM_B (n : Nat) (p : Nat) : Fld := ⟨R.KZC_DLY n p, 16, 1⟩
abbrev F.KZC_DLY_VALID (n : Nat) (p : Nat) : Fld := ⟨R.KZC_DLY n p, 17, 1⟩

/-! ### ACQ (R151 to R153) -/

abbrev R.ACQ_CTRL : Nat := 0x30000
abbrev F.ACQ_CTRL_BAL_EN : Fld := ⟨R.ACQ_CTRL, 0, 1⟩
abbrev F.ACQ_CTRL_EXC_EN : Fld := ⟨R.ACQ_CTRL, 1, 1⟩
abbrev F.ACQ_CTRL_LOCK : Fld := ⟨R.ACQ_CTRL, 31, 1⟩
abbrev R.ACQ_SYNC : Nat := 0x30004
abbrev F.ACQ_SYNC_CNT : Fld := ⟨R.ACQ_SYNC, 0, 12⟩
abbrev R.ACQ_AGE : Nat := 0x30008
abbrev F.ACQ_AGE_MAX : Fld := ⟨R.ACQ_AGE, 0, 4⟩
abbrev R.ACQ_PHCFG : Nat := 0x3000C
abbrev F.ACQ_PHCFG_HOLD_PH : Fld := ⟨R.ACQ_PHCFG, 0, 16⟩
abbrev R.ACQ_EXC_CTRL : Nat := 0x30010
abbrev F.ACQ_EXC_CTRL_FRAMES : Fld := ⟨R.ACQ_EXC_CTRL, 0, 16⟩
abbrev F.ACQ_EXC_CTRL_REPEAT : Fld := ⟨R.ACQ_EXC_CTRL, 16, 16⟩
abbrev R.ACQ_EXC_THR : Nat := 0x30014
abbrev F.ACQ_EXC_THR_THR : Fld := ⟨R.ACQ_EXC_THR, 0, 16⟩
abbrev R.ACQ_EXC_ROUTE : Nat := 0x30018
abbrev F.ACQ_EXC_ROUTE_ROUTE : Fld := ⟨R.ACQ_EXC_ROUTE, 0, 12⟩
abbrev F.ACQ_EXC_ROUTE_LEN : Fld := ⟨R.ACQ_EXC_ROUTE, 16, 7⟩
abbrev R.ACQ_EXC_PATCH : Nat := 0x3001C
abbrev F.ACQ_EXC_PATCH_CNT_OFS : Fld := ⟨R.ACQ_EXC_PATCH, 0, 6⟩
abbrev F.ACQ_EXC_PATCH_CNT_EN : Fld := ⟨R.ACQ_EXC_PATCH, 6, 1⟩
abbrev F.ACQ_EXC_PATCH_MASK_OFS : Fld := ⟨R.ACQ_EXC_PATCH, 8, 6⟩
abbrev F.ACQ_EXC_PATCH_MASK_EN : Fld := ⟨R.ACQ_EXC_PATCH, 14, 1⟩
abbrev R.ACQ_STATUS : Nat := 0x30020
abbrev F.ACQ_STATUS_DIST : Fld := ⟨R.ACQ_STATUS, 0, 1⟩
abbrev F.ACQ_STATUS_POOR : Fld := ⟨R.ACQ_STATUS, 1, 1⟩
abbrev F.ACQ_STATUS_EXC_OUT : Fld := ⟨R.ACQ_STATUS, 2, 1⟩
abbrev F.ACQ_STATUS_DERIVED : Fld := ⟨R.ACQ_STATUS, 3, 1⟩
abbrev R.ACQ_FRAME : Nat := 0x30024
abbrev F.ACQ_FRAME_FRAME : Fld := ⟨R.ACQ_FRAME, 0, 32⟩
abbrev R.ACQ_COUNT : Nat := 0x30028
abbrev F.ACQ_COUNT_FRESH : Fld := ⟨R.ACQ_COUNT, 0, 10⟩
abbrev F.ACQ_COUNT_STALE : Fld := ⟨R.ACQ_COUNT, 10, 10⟩
abbrev F.ACQ_COUNT_LOST : Fld := ⟨R.ACQ_COUNT, 20, 10⟩
abbrev R.ACQ_UNMEAS_LO : Nat := 0x30038
abbrev F.ACQ_UNMEAS_LO_UNMEAS : Fld := ⟨R.ACQ_UNMEAS_LO, 0, 32⟩
abbrev R.ACQ_UNMEAS_HI : Nat := 0x3003C
abbrev F.ACQ_UNMEAS_HI_UNMEAS : Fld := ⟨R.ACQ_UNMEAS_HI, 0, 16⟩
abbrev R.ACQ_STARVED_LO : Nat := 0x30040
abbrev F.ACQ_STARVED_LO_STARVED : Fld := ⟨R.ACQ_STARVED_LO, 0, 32⟩
abbrev R.ACQ_STARVED_HI : Nat := 0x30044
abbrev F.ACQ_STARVED_HI_STARVED : Fld := ⟨R.ACQ_STARVED_HI, 0, 16⟩
abbrev R.ACQ_EXC_TPL (k : Nat) : Nat := 0x30080 + 0x4 * k
abbrev F.ACQ_EXC_TPL_BYTES (k : Nat) : Fld := ⟨R.ACQ_EXC_TPL k, 0, 32⟩
abbrev R.ACQ_INT_STAT : Nat := 0x30030
abbrev F.ACQ_INT_STAT_CLOSED : Fld := ⟨R.ACQ_INT_STAT, 0, 1⟩
abbrev F.ACQ_INT_STAT_LOST : Fld := ⟨R.ACQ_INT_STAT, 1, 1⟩
abbrev F.ACQ_INT_STAT_RESTORED : Fld := ⟨R.ACQ_INT_STAT, 2, 1⟩
abbrev F.ACQ_INT_STAT_UNMEAS : Fld := ⟨R.ACQ_INT_STAT, 3, 1⟩
abbrev F.ACQ_INT_STAT_MEASURED : Fld := ⟨R.ACQ_INT_STAT, 4, 1⟩
abbrev F.ACQ_INT_STAT_EXC_REQ : Fld := ⟨R.ACQ_INT_STAT, 5, 1⟩
abbrev F.ACQ_INT_STAT_EXC_REL : Fld := ⟨R.ACQ_INT_STAT, 6, 1⟩
abbrev F.ACQ_INT_STAT_ORDER : Fld := ⟨R.ACQ_INT_STAT, 7, 1⟩
abbrev F.ACQ_INT_STAT_DERIVED : Fld := ⟨R.ACQ_INT_STAT, 8, 1⟩
abbrev R.ACQ_INT_EN : Nat := 0x30034
abbrev F.ACQ_INT_EN_CLOSED : Fld := ⟨R.ACQ_INT_EN, 0, 1⟩
abbrev F.ACQ_INT_EN_LOST : Fld := ⟨R.ACQ_INT_EN, 1, 1⟩
abbrev F.ACQ_INT_EN_RESTORED : Fld := ⟨R.ACQ_INT_EN, 2, 1⟩
abbrev F.ACQ_INT_EN_UNMEAS : Fld := ⟨R.ACQ_INT_EN, 3, 1⟩
abbrev F.ACQ_INT_EN_MEASURED : Fld := ⟨R.ACQ_INT_EN, 4, 1⟩
abbrev F.ACQ_INT_EN_EXC_REQ : Fld := ⟨R.ACQ_INT_EN, 5, 1⟩
abbrev F.ACQ_INT_EN_EXC_REL : Fld := ⟨R.ACQ_INT_EN, 6, 1⟩
abbrev F.ACQ_INT_EN_ORDER : Fld := ⟨R.ACQ_INT_EN, 7, 1⟩
abbrev F.ACQ_INT_EN_DERIVED : Fld := ⟨R.ACQ_INT_EN, 8, 1⟩
abbrev R.ACQ_SCAN_CTRL (n : Nat) : Nat := 0x30100 + 0x40 * n
abbrev F.ACQ_SCAN_CTRL_STEPS (n : Nat) : Fld := ⟨R.ACQ_SCAN_CTRL n, 0, 2⟩
abbrev F.ACQ_SCAN_CTRL_STEP (n : Nat) : Fld := ⟨R.ACQ_SCAN_CTRL n, 4, 3⟩
abbrev R.ACQ_SCAN_STEP (n : Nat) (s : Nat) : Nat := 0x30104 + 0x40 * n + 0x4 * s
abbrev F.ACQ_SCAN_STEP_ORD_P (n : Nat) (s : Nat) : Fld := ⟨R.ACQ_SCAN_STEP n s, 0, 5⟩
abbrev F.ACQ_SCAN_STEP_ORD_Q (n : Nat) (s : Nat) : Fld := ⟨R.ACQ_SCAN_STEP n s, 8, 5⟩
abbrev R.ACQ_CH_FRM (n : Nat) : Nat := 0x30124 + 0x40 * n
abbrev F.ACQ_CH_FRM_FRESH (n : Nat) : Fld := ⟨R.ACQ_CH_FRM n, 0, 6⟩
abbrev F.ACQ_CH_FRM_STALE (n : Nat) : Fld := ⟨R.ACQ_CH_FRM n, 8, 6⟩
abbrev F.ACQ_CH_FRM_LOST (n : Nat) : Fld := ⟨R.ACQ_CH_FRM n, 16, 6⟩
abbrev R.ACQ_CH_TAIL (n : Nat) : Nat := 0x30128 + 0x40 * n
abbrev F.ACQ_CH_TAIL_LAST_EOF (n : Nat) : Fld := ⟨R.ACQ_CH_TAIL n, 0, 16⟩
abbrev F.ACQ_CH_TAIL_AFTER (n : Nat) : Fld := ⟨R.ACQ_CH_TAIL n, 16, 16⟩
abbrev R.ACQ_CH_DLYSRC_LO (n : Nat) : Nat := 0x3012C + 0x40 * n
abbrev F.ACQ_CH_DLYSRC_LO_DERIVED (n : Nat) : Fld := ⟨R.ACQ_CH_DLYSRC_LO n, 0, 32⟩
abbrev R.ACQ_CH_DLYSRC_HI (n : Nat) : Nat := 0x30130 + 0x40 * n
abbrev F.ACQ_CH_DLYSRC_HI_DERIVED (n : Nat) : Fld := ⟨R.ACQ_CH_DLYSRC_HI n, 0, 16⟩
abbrev R.ACQ_POS (n : Nat) (p : Nat) : Nat := 0x31000 + 0x100 * n + 0x4 * p
abbrev F.ACQ_POS_NCELL (n : Nat) (p : Nat) : Fld := ⟨R.ACQ_POS n p, 0, 6⟩
abbrev F.ACQ_POS_HEAD (n : Nat) (p : Nat) : Fld := ⟨R.ACQ_POS n p, 6, 1⟩
abbrev F.ACQ_POS_STRING (n : Nat) (p : Nat) : Fld := ⟨R.ACQ_POS n p, 8, 6⟩
abbrev F.ACQ_POS_EN (n : Nat) (p : Nat) : Fld := ⟨R.ACQ_POS n p, 14, 1⟩
abbrev F.ACQ_POS_STATE (n : Nat) (p : Nat) : Fld := ⟨R.ACQ_POS n p, 16, 2⟩
abbrev F.ACQ_POS_AGE (n : Nat) (p : Nat) : Fld := ⟨R.ACQ_POS n p, 18, 4⟩
abbrev F.ACQ_POS_PH_P (n : Nat) (p : Nat) : Fld := ⟨R.ACQ_POS n p, 22, 1⟩
abbrev F.ACQ_POS_PH_Q (n : Nat) (p : Nat) : Fld := ⟨R.ACQ_POS n p, 23, 1⟩
abbrev F.ACQ_POS_CAUSE (n : Nat) (p : Nat) : Fld := ⟨R.ACQ_POS n p, 24, 4⟩

/-! ### EST (R186 to R190) -/

abbrev R.EST_CTRL : Nat := 0x50000
abbrev F.EST_CTRL_EN : Fld := ⟨R.EST_CTRL, 0, 1⟩
abbrev F.EST_CTRL_ALIGN_EN : Fld := ⟨R.EST_CTRL, 1, 1⟩
abbrev F.EST_CTRL_CLR_CNT : Fld := ⟨R.EST_CTRL, 2, 1⟩
abbrev F.EST_CTRL_ALIGN_MAX : Fld := ⟨R.EST_CTRL, 8, 8⟩
abbrev F.EST_CTRL_LOCK : Fld := ⟨R.EST_CTRL, 31, 1⟩
abbrev R.EST_CFG : Nat := 0x50004
abbrev F.EST_CFG_RETRY : Fld := ⟨R.EST_CFG, 0, 2⟩
abbrev F.EST_CFG_GATE : Fld := ⟨R.EST_CFG, 4, 4⟩
abbrev F.EST_CFG_THOLD : Fld := ⟨R.EST_CFG, 8, 4⟩
abbrev F.EST_CFG_MAXGAP : Fld := ⟨R.EST_CFG, 12, 4⟩
abbrev F.EST_CFG_LANE_ERR_MAX : Fld := ⟨R.EST_CFG, 16, 8⟩
abbrev R.EST_ZCFG : Nat := 0x50008
abbrev F.EST_ZCFG_IMIN : Fld := ⟨R.EST_ZCFG, 0, 16⟩
abbrev R.EST_BANK_BASE : Nat := 0x5000C
abbrev F.EST_BANK_BASE_BASE : Fld := ⟨R.EST_BANK_BASE, 0, 32⟩
abbrev R.EST_STR_CHEM (k : Nat) : Nat := 0x50060 + 0x4 * k
abbrev F.EST_STR_CHEM_SET (k : Nat) (j : Nat) : Fld := ⟨R.EST_STR_CHEM k, 0 + 4 * j, 3⟩
abbrev R.EST_STATUS : Nat := 0x50010
abbrev F.EST_STATUS_RUNNING : Fld := ⟨R.EST_STATUS, 0, 1⟩
abbrev F.EST_STATUS_BUSY : Fld := ⟨R.EST_STATUS, 1, 1⟩
abbrev F.EST_STATUS_DOWN : Fld := ⟨R.EST_STATUS, 2, 1⟩
abbrev F.EST_STATUS_UCODE_RELOAD : Fld := ⟨R.EST_STATUS, 3, 1⟩
abbrev F.EST_STATUS_PUB_BANK : Fld := ⟨R.EST_STATUS, 4, 1⟩
abbrev F.EST_STATUS_ALIGNING : Fld := ⟨R.EST_STATUS, 5, 1⟩
abbrev R.EST_LANE : Nat := 0x50014
abbrev F.EST_LANE_FENCED : Fld := ⟨R.EST_LANE, 0, 8⟩
abbrev F.EST_LANE_RESTORE : Fld := ⟨R.EST_LANE, 8, 8⟩
abbrev F.EST_LANE_ST_FAIL : Fld := ⟨R.EST_LANE, 16, 8⟩
abbrev R.EST_FRAME : Nat := 0x50018
abbrev F.EST_FRAME_FRAME : Fld := ⟨R.EST_FRAME, 0, 32⟩
abbrev R.EST_PUB_FRAME : Nat := 0x5001C
abbrev F.EST_PUB_FRAME_FRAME : Fld := ⟨R.EST_PUB_FRAME, 0, 32⟩
abbrev R.EST_PUB_SEQ : Nat := 0x50020
abbrev F.EST_PUB_SEQ_SEQ : Fld := ⟨R.EST_PUB_SEQ, 0, 32⟩
abbrev R.EST_CYC : Nat := 0x50024
abbrev F.EST_CYC_LANE_CYC : Fld := ⟨R.EST_CYC, 0, 32⟩
abbrev R.EST_CNT_A : Nat := 0x50028
abbrev F.EST_CNT_A_UPDATED : Fld := ⟨R.EST_CNT_A, 0, 16⟩
abbrev F.EST_CNT_A_PREDICTED : Fld := ⟨R.EST_CNT_A, 16, 16⟩
abbrev R.EST_CNT_B : Nat := 0x5002C
abbrev F.EST_CNT_B_HELD : Fld := ⟨R.EST_CNT_B, 0, 16⟩
abbrev F.EST_CNT_B_INVALID : Fld := ⟨R.EST_CNT_B, 16, 16⟩
abbrev R.EST_CNT_C : Nat := 0x50030
abbrev F.EST_CNT_C_REINIT : Fld := ⟨R.EST_CNT_C, 0, 16⟩
abbrev F.EST_CNT_C_RECOMPUTED : Fld := ⟨R.EST_CNT_C, 16, 16⟩
abbrev R.EST_ERR_A : Nat := 0x50034
abbrev F.EST_ERR_A_RESIDUE : Fld := ⟨R.EST_ERR_A, 0, 16⟩
abbrev F.EST_ERR_A_RECOMP_FAIL : Fld := ⟨R.EST_ERR_A, 16, 16⟩
abbrev R.EST_ERR_B : Nat := 0x50038
abbrev F.EST_ERR_B_STATE_PAR : Fld := ⟨R.EST_ERR_B, 0, 8⟩
abbrev F.EST_ERR_B_PARAM_PAR : Fld := ⟨R.EST_ERR_B, 8, 8⟩
abbrev F.EST_ERR_B_FIFO_PAR : Fld := ⟨R.EST_ERR_B, 16, 8⟩
abbrev F.EST_ERR_B_UCODE_PAR : Fld := ⟨R.EST_ERR_B, 24, 8⟩
abbrev R.EST_CHEM : Nat := 0x50050
abbrev F.EST_CHEM_VALID : Fld := ⟨R.EST_CHEM, 0, 8⟩
abbrev F.EST_CHEM_BAD : Fld := ⟨R.EST_CHEM, 8, 8⟩
abbrev R.EST_ALIGN : Nat := 0x50054
abbrev F.EST_ALIGN_UNALIGNED : Fld := ⟨R.EST_ALIGN, 0, 10⟩
abbrev F.EST_ALIGN_REQ : Fld := ⟨R.EST_ALIGN, 10, 1⟩
abbrev R.EST_UCODE : Nat := 0x50058
abbrev F.EST_UCODE_VERSION : Fld := ⟨R.EST_UCODE, 0, 16⟩
abbrev R.EST_DIGEST (n : Nat) : Nat := 0x50080 + 0x4 * n
abbrev F.EST_DIGEST_DIGEST (n : Nat) : Fld := ⟨R.EST_DIGEST n, 0, 32⟩
abbrev R.EST_ZONE_DIGEST : Nat := 0x500C0
abbrev F.EST_ZONE_DIGEST_DIGEST : Fld := ⟨R.EST_ZONE_DIGEST, 0, 32⟩
abbrev R.EST_CELL_INIT : Nat := 0x50048
abbrev F.EST_CELL_INIT_CELL : Fld := ⟨R.EST_CELL_INIT, 0, 15⟩
abbrev F.EST_CELL_INIT_ALL : Fld := ⟨R.EST_CELL_INIT, 15, 1⟩
abbrev F.EST_CELL_INIT_AT_FRAME : Fld := ⟨R.EST_CELL_INIT, 16, 1⟩
abbrev F.EST_CELL_INIT_GO : Fld := ⟨R.EST_CELL_INIT, 17, 1⟩
abbrev R.EST_INIT_FRAME : Nat := 0x5004C
abbrev F.EST_INIT_FRAME_FRAME : Fld := ⟨R.EST_INIT_FRAME, 0, 32⟩
abbrev R.EST_INT_STAT : Nat := 0x50040
abbrev F.EST_INT_STAT_PUBLISHED : Fld := ⟨R.EST_INT_STAT, 0, 1⟩
abbrev F.EST_INT_STAT_RECOMPUTE : Fld := ⟨R.EST_INT_STAT, 1, 1⟩
abbrev F.EST_INT_STAT_RECOMP_FAIL : Fld := ⟨R.EST_INT_STAT, 2, 1⟩
abbrev F.EST_INT_STAT_LANE_FENCED : Fld := ⟨R.EST_INT_STAT, 3, 1⟩
abbrev F.EST_INT_STAT_LANE_RESTORED : Fld := ⟨R.EST_INT_STAT, 4, 1⟩
abbrev F.EST_INT_STAT_STATE_PAR : Fld := ⟨R.EST_INT_STAT, 5, 1⟩
abbrev F.EST_INT_STAT_PARAM_PAR : Fld := ⟨R.EST_INT_STAT, 6, 1⟩
abbrev F.EST_INT_STAT_PARAM_RELOADED : Fld := ⟨R.EST_INT_STAT, 7, 1⟩
abbrev F.EST_INT_STAT_FIFO_PAR : Fld := ⟨R.EST_INT_STAT, 8, 1⟩
abbrev F.EST_INT_STAT_UCODE_PAR : Fld := ⟨R.EST_INT_STAT, 9, 1⟩
abbrev F.EST_INT_STAT_UCODE_RELOADED : Fld := ⟨R.EST_INT_STAT, 10, 1⟩
abbrev F.EST_INT_STAT_REINIT : Fld := ⟨R.EST_INT_STAT, 11, 1⟩
abbrev F.EST_INT_STAT_ALIGN_DONE : Fld := ⟨R.EST_INT_STAT, 12, 1⟩
abbrev F.EST_INT_STAT_BENCH_DOWN : Fld := ⟨R.EST_INT_STAT, 13, 1⟩
abbrev F.EST_INT_STAT_INIT_DONE : Fld := ⟨R.EST_INT_STAT, 14, 1⟩
abbrev R.EST_INT_EN : Nat := 0x50044
abbrev F.EST_INT_EN_PUBLISHED : Fld := ⟨R.EST_INT_EN, 0, 1⟩
abbrev F.EST_INT_EN_RECOMPUTE : Fld := ⟨R.EST_INT_EN, 1, 1⟩
abbrev F.EST_INT_EN_RECOMP_FAIL : Fld := ⟨R.EST_INT_EN, 2, 1⟩
abbrev F.EST_INT_EN_LANE_FENCED : Fld := ⟨R.EST_INT_EN, 3, 1⟩
abbrev F.EST_INT_EN_LANE_RESTORED : Fld := ⟨R.EST_INT_EN, 4, 1⟩
abbrev F.EST_INT_EN_STATE_PAR : Fld := ⟨R.EST_INT_EN, 5, 1⟩
abbrev F.EST_INT_EN_PARAM_PAR : Fld := ⟨R.EST_INT_EN, 6, 1⟩
abbrev F.EST_INT_EN_PARAM_RELOADED : Fld := ⟨R.EST_INT_EN, 7, 1⟩
abbrev F.EST_INT_EN_FIFO_PAR : Fld := ⟨R.EST_INT_EN, 8, 1⟩
abbrev F.EST_INT_EN_UCODE_PAR : Fld := ⟨R.EST_INT_EN, 9, 1⟩
abbrev F.EST_INT_EN_UCODE_RELOADED : Fld := ⟨R.EST_INT_EN, 10, 1⟩
abbrev F.EST_INT_EN_REINIT : Fld := ⟨R.EST_INT_EN, 11, 1⟩
abbrev F.EST_INT_EN_ALIGN_DONE : Fld := ⟨R.EST_INT_EN, 12, 1⟩
abbrev F.EST_INT_EN_BENCH_DOWN : Fld := ⟨R.EST_INT_EN, 13, 1⟩
abbrev F.EST_INT_EN_INIT_DONE : Fld := ⟨R.EST_INT_EN, 14, 1⟩

/-! ### PROT (R221 to R224) -/

abbrev R.PROT_CTRL : Nat := 0x60000
abbrev F.PROT_CTRL_DRIVE : Fld := ⟨R.PROT_CTRL, 0, 2⟩
abbrev F.PROT_CTRL_LOCK : Fld := ⟨R.PROT_CTRL, 31, 1⟩
abbrev R.PROT_CFG : Nat := 0x60004
abbrev F.PROT_CFG_ALERT_ACT : Fld := ⟨R.PROT_CFG, 0, 2⟩
abbrev F.PROT_CFG_IDEAD : Fld := ⟨R.PROT_CFG, 8, 8⟩
abbrev F.PROT_CFG_OPEN_IMAX : Fld := ⟨R.PROT_CFG, 16, 16⟩
abbrev R.PROT_TIM_A : Nat := 0x60008
abbrev F.PROT_TIM_A_NEG_MS : Fld := ⟨R.PROT_TIM_A, 0, 16⟩
abbrev F.PROT_TIM_A_FB_MS : Fld := ⟨R.PROT_TIM_A, 16, 16⟩
abbrev R.PROT_TIM_B : Nat := 0x6000C
abbrev F.PROT_TIM_B_PRE_MIN_MS : Fld := ⟨R.PROT_TIM_B, 0, 16⟩
abbrev F.PROT_TIM_B_PRE_MAX_MS : Fld := ⟨R.PROT_TIM_B, 16, 16⟩
abbrev R.PROT_TIM_C : Nat := 0x60010
abbrev F.PROT_TIM_C_OVERLAP_MS : Fld := ⟨R.PROT_TIM_C, 0, 16⟩
abbrev F.PROT_TIM_C_OPEN_GAP_MS : Fld := ⟨R.PROT_TIM_C, 16, 16⟩
abbrev R.PROT_TIM_D : Nat := 0x60014
abbrev F.PROT_TIM_D_OPEN_WAIT_MS : Fld := ⟨R.PROT_TIM_D, 0, 16⟩
abbrev F.PROT_TIM_D_PRE_IEND : Fld := ⟨R.PROT_TIM_D, 16, 16⟩
abbrev R.PROT_HOLD : Nat := 0x60018
abbrev F.PROT_HOLD_HOLD_MS : Fld := ⟨R.PROT_HOLD, 0, 8⟩
abbrev F.PROT_HOLD_KICK_MS : Fld := ⟨R.PROT_HOLD, 8, 8⟩
abbrev F.PROT_HOLD_STEP_CNT : Fld := ⟨R.PROT_HOLD, 16, 16⟩
abbrev R.PROT_CMD : Nat := 0x6001C
abbrev F.PROT_CMD_ARM : Fld := ⟨R.PROT_CMD, 0, 1⟩
abbrev F.PROT_CMD_DISARM : Fld := ⟨R.PROT_CMD, 1, 1⟩
abbrev F.PROT_CMD_ZCLR : Fld := ⟨R.PROT_CMD, 2, 1⟩
abbrev F.PROT_CMD_RECONF : Fld := ⟨R.PROT_CMD, 3, 1⟩
abbrev R.PROT_RECONF_CRC : Nat := 0x60020
abbrev F.PROT_RECONF_CRC_CRC : Fld := ⟨R.PROT_RECONF_CRC, 0, 32⟩
abbrev R.PROT_ARM_CRC : Nat := 0x60024
abbrev F.PROT_ARM_CRC_CRC : Fld := ⟨R.PROT_ARM_CRC, 0, 32⟩
abbrev R.PROT_KICK : Nat := 0x60028
abbrev F.PROT_KICK_KEY : Fld := ⟨R.PROT_KICK, 0, 8⟩
abbrev R.PROT_STATUS : Nat := 0x6002C
abbrev F.PROT_STATUS_ZSTATE : Fld := ⟨R.PROT_STATUS, 0, 3⟩
abbrev F.PROT_STATUS_OK_RUN : Fld := ⟨R.PROT_STATUS, 3, 1⟩
abbrev F.PROT_STATUS_SAFE_N : Fld := ⟨R.PROT_STATUS, 4, 1⟩
abbrev F.PROT_STATUS_HS : Fld := ⟨R.PROT_STATUS, 5, 1⟩
abbrev F.PROT_STATUS_KICK_LATE : Fld := ⟨R.PROT_STATUS, 6, 1⟩
abbrev F.PROT_STATUS_CLOSING : Fld := ⟨R.PROT_STATUS, 8, 6⟩
abbrev F.PROT_STATUS_HOLD_LEFT : Fld := ⟨R.PROT_STATUS, 16, 16⟩
abbrev R.PROT_ZCAUSE : Nat := 0x60030
abbrev F.PROT_ZCAUSE_SOURCE : Fld := ⟨R.PROT_ZCAUSE, 0, 32⟩
abbrev R.PROT_TRIP_LO : Nat := 0x60034
abbrev F.PROT_TRIP_LO_TRIP : Fld := ⟨R.PROT_TRIP_LO, 0, 32⟩
abbrev R.PROT_TRIP_HI : Nat := 0x60038
abbrev F.PROT_TRIP_HI_TRIP : Fld := ⟨R.PROT_TRIP_HI, 0, 16⟩
abbrev R.PROT_CLOSED_LO : Nat := 0x6003C
abbrev F.PROT_CLOSED_LO_CLOSED : Fld := ⟨R.PROT_CLOSED_LO, 0, 32⟩
abbrev R.PROT_CLOSED_HI : Nat := 0x60040
abbrev F.PROT_CLOSED_HI_CLOSED : Fld := ⟨R.PROT_CLOSED_HI, 0, 16⟩
abbrev R.PROT_WARN_LO : Nat := 0x60044
abbrev F.PROT_WARN_LO_WARN : Fld := ⟨R.PROT_WARN_LO, 0, 32⟩
abbrev R.PROT_WARN_HI : Nat := 0x60048
abbrev F.PROT_WARN_HI_WARN : Fld := ⟨R.PROT_WARN_HI, 0, 16⟩
abbrev R.PROT_STR_A (n : Nat) : Nat := 0x60100 + 0x10 * n
abbrev F.PROT_STR_A_POS_CH (n : Nat) : Fld := ⟨R.PROT_STR_A n, 0, 6⟩
abbrev F.PROT_STR_A_PRE_CH (n : Nat) : Fld := ⟨R.PROT_STR_A n, 6, 6⟩
abbrev F.PROT_STR_A_NEG_CH (n : Nat) : Fld := ⟨R.PROT_STR_A n, 12, 6⟩
abbrev F.PROT_STR_A_LSET (n : Nat) : Fld := ⟨R.PROT_STR_A n, 18, 3⟩
abbrev F.PROT_STR_A_AUTO_CLOSE (n : Nat) : Fld := ⟨R.PROT_STR_A n, 21, 1⟩
abbrev F.PROT_STR_A_EN (n : Nat) : Fld := ⟨R.PROT_STR_A n, 22, 1⟩
abbrev R.PROT_STR_B (n : Nat) : Nat := 0x60104 + 0x10 * n
abbrev F.PROT_STR_B_POS_FB (n : Nat) : Fld := ⟨R.PROT_STR_B n, 0, 6⟩
abbrev F.PROT_STR_B_PRE_FB (n : Nat) : Fld := ⟨R.PROT_STR_B n, 6, 6⟩
abbrev F.PROT_STR_B_NEG_FB (n : Nat) : Fld := ⟨R.PROT_STR_B n, 12, 6⟩
abbrev R.PROT_SEQ (n : Nat) : Nat := 0x60108 + 0x10 * n
abbrev F.PROT_SEQ_STATE (n : Nat) : Fld := ⟨R.PROT_SEQ n, 0, 3⟩
abbrev F.PROT_SEQ_QUEUED (n : Nat) : Fld := ⟨R.PROT_SEQ n, 3, 1⟩
abbrev F.PROT_SEQ_CAUSE (n : Nat) : Fld := ⟨R.PROT_SEQ n, 8, 8⟩
abbrev F.PROT_SEQ_STEP_MS (n : Nat) : Fld := ⟨R.PROT_SEQ n, 16, 16⟩
abbrev R.PROT_STR_CMD (n : Nat) : Nat := 0x6010C + 0x10 * n
abbrev F.PROT_STR_CMD_CLOSE (n : Nat) : Fld := ⟨R.PROT_STR_CMD n, 0, 1⟩
abbrev F.PROT_STR_CMD_OPEN (n : Nat) : Fld := ⟨R.PROT_STR_CMD n, 1, 1⟩
abbrev F.PROT_STR_CMD_CLR (n : Nat) : Fld := ⟨R.PROT_STR_CMD n, 2, 1⟩
abbrev R.PROT_LIM (s : Nat) (k : Nat) : Nat := 0x60400 + 0x40 * s + 0x4 * k
abbrev F.PROT_LIM_THR (s : Nat) (k : Nat) : Fld := ⟨R.PROT_LIM s k, 0, 16⟩
abbrev F.PROT_LIM_PERSIST (s : Nat) (k : Nat) : Fld := ⟨R.PROT_LIM s k, 16, 4⟩
abbrev F.PROT_LIM_ACT (s : Nat) (k : Nat) : Fld := ⟨R.PROT_LIM s k, 20, 2⟩
abbrev F.PROT_LIM_EN (s : Nat) (k : Nat) : Fld := ⟨R.PROT_LIM s k, 22, 1⟩
abbrev F.PROT_LIM_HYST (s : Nat) (k : Nat) : Fld := ⟨R.PROT_LIM s k, 24, 8⟩
abbrev R.PROT_INT_STAT : Nat := 0x60050
abbrev F.PROT_INT_STAT_EVT : Fld := ⟨R.PROT_INT_STAT, 0, 16⟩
abbrev R.PROT_INT_EN : Nat := 0x60054
abbrev F.PROT_INT_EN_EVT : Fld := ⟨R.PROT_INT_EN, 0, 16⟩

/-! ### IOX (R225) -/

abbrev R.IOX_CTRL : Nat := 0x190000
abbrev F.IOX_CTRL_LOCK : Fld := ⟨R.IOX_CTRL, 31, 1⟩
abbrev R.IOX_SW_LO : Nat := 0x190004
abbrev F.IOX_SW_LO_LEVEL : Fld := ⟨R.IOX_SW_LO, 0, 32⟩
abbrev R.IOX_SW_HI : Nat := 0x190008
abbrev F.IOX_SW_HI_LEVEL : Fld := ⟨R.IOX_SW_HI, 0, 16⟩
abbrev R.IOX_SW_CHG_LO : Nat := 0x19000C
abbrev F.IOX_SW_CHG_LO_CHG : Fld := ⟨R.IOX_SW_CHG_LO, 0, 32⟩
abbrev R.IOX_SW_CHG_HI : Nat := 0x190010
abbrev F.IOX_SW_CHG_HI_CHG : Fld := ⟨R.IOX_SW_CHG_HI, 0, 16⟩
abbrev R.IOX_LSO_OUT : Nat := 0x190014
abbrev F.IOX_LSO_OUT_ON : Fld := ⟨R.IOX_LSO_OUT, 0, 16⟩
abbrev R.IOX_LSO_SAFE : Nat := 0x190018
abbrev F.IOX_LSO_SAFE_SAFE : Fld := ⟨R.IOX_LSO_SAFE, 0, 16⟩
abbrev R.IOX_LSO_STAT : Nat := 0x19001C
abbrev F.IOX_LSO_STAT_STATE : Fld := ⟨R.IOX_LSO_STAT, 0, 16⟩
abbrev F.IOX_LSO_STAT_FAULT : Fld := ⟨R.IOX_LSO_STAT, 16, 16⟩
abbrev R.IOX_SW_CFG (i : Nat) : Nat := 0x190100 + 0x4 * i
abbrev F.IOX_SW_CFG_WET (i : Nat) : Fld := ⟨R.IOX_SW_CFG i, 0, 2⟩
abbrev F.IOX_SW_CFG_INV (i : Nat) : Fld := ⟨R.IOX_SW_CFG i, 2, 1⟩
abbrev F.IOX_SW_CFG_DEB (i : Nat) : Fld := ⟨R.IOX_SW_CFG i, 3, 4⟩
abbrev F.IOX_SW_CFG_ROLE (i : Nat) : Fld := ⟨R.IOX_SW_CFG i, 7, 2⟩
abbrev F.IOX_SW_CFG_ACT (i : Nat) : Fld := ⟨R.IOX_SW_CFG i, 9, 2⟩
abbrev F.IOX_SW_CFG_STRING (i : Nat) : Fld := ⟨R.IOX_SW_CFG i, 11, 6⟩
abbrev F.IOX_SW_CFG_WAKE (i : Nat) : Fld := ⟨R.IOX_SW_CFG i, 17, 1⟩
abbrev R.IOX_AIN_CFG (k : Nat) : Nat := 0x190200 + 0x8 * k
abbrev F.IOX_AIN_CFG_MODE (k : Nat) : Fld := ⟨R.IOX_AIN_CFG k, 0, 1⟩
abbrev F.IOX_AIN_CFG_EN (k : Nat) : Fld := ⟨R.IOX_AIN_CFG k, 1, 1⟩
abbrev F.IOX_AIN_CFG_ACT (k : Nat) : Fld := ⟨R.IOX_AIN_CFG k, 2, 2⟩
abbrev F.IOX_AIN_CFG_DIR (k : Nat) : Fld := ⟨R.IOX_AIN_CFG k, 4, 1⟩
abbrev F.IOX_AIN_CFG_PERSIST (k : Nat) : Fld := ⟨R.IOX_AIN_CFG k, 5, 4⟩
abbrev F.IOX_AIN_CFG_STRING (k : Nat) : Fld := ⟨R.IOX_AIN_CFG k, 9, 6⟩
abbrev F.IOX_AIN_CFG_LIM (k : Nat) : Fld := ⟨R.IOX_AIN_CFG k, 16, 16⟩
abbrev R.IOX_AIN_VAL (k : Nat) : Nat := 0x190204 + 0x8 * k
abbrev F.IOX_AIN_VAL_VALUE (k : Nat) : Fld := ⟨R.IOX_AIN_VAL k, 0, 16⟩
abbrev F.IOX_AIN_VAL_WIRE (k : Nat) : Fld := ⟨R.IOX_AIN_VAL k, 16, 1⟩
abbrev F.IOX_AIN_VAL_OVR (k : Nat) : Fld := ⟨R.IOX_AIN_VAL k, 17, 1⟩

/-! ### LSW (R256 to R258) -/

abbrev R.LSW_CTRL : Nat := 0x70000
abbrev F.LSW_CTRL_LOCK : Fld := ⟨R.LSW_CTRL, 31, 1⟩
abbrev R.LSW_CFG : Nat := 0x70004
abbrev F.LSW_CFG_LAMP_VREF : Fld := ⟨R.LSW_CFG, 0, 10⟩
abbrev F.LSW_CFG_OLOFF_PER : Fld := ⟨R.LSW_CFG, 16, 8⟩
abbrev R.LSW_BUDGET : Nat := 0x70008
abbrev F.LSW_BUDGET_BUDGET : Fld := ⟨R.LSW_BUDGET, 0, 16⟩
abbrev F.LSW_BUDGET_AVG_MS : Fld := ⟨R.LSW_BUDGET, 16, 16⟩
abbrev R.LSW_SUPPLY : Nat := 0x7000C
abbrev F.LSW_SUPPLY_VAUX : Fld := ⟨R.LSW_SUPPLY, 0, 16⟩
abbrev F.LSW_SUPPLY_OV : Fld := ⟨R.LSW_SUPPLY, 16, 1⟩
abbrev F.LSW_SUPPLY_UV : Fld := ⟨R.LSW_SUPPLY, 17, 1⟩
abbrev R.LSW_PLOSS : Nat := 0x70010
abbrev F.LSW_PLOSS_AVG : Fld := ⟨R.LSW_PLOSS, 0, 16⟩
abbrev F.LSW_PLOSS_PEAK : Fld := ⟨R.LSW_PLOSS, 16, 16⟩
abbrev R.LSW_ON : Nat := 0x70014
abbrev F.LSW_ON_ON : Fld := ⟨R.LSW_ON, 0, 32⟩
abbrev R.LSW_FAULT : Nat := 0x70018
abbrev F.LSW_FAULT_FAULT : Fld := ⟨R.LSW_FAULT, 0, 32⟩
abbrev R.LSW_LATCHED : Nat := 0x7001C
abbrev F.LSW_LATCHED_LATCHED : Fld := ⟨R.LSW_LATCHED, 0, 32⟩
abbrev R.LSW_SHED : Nat := 0x70028
abbrev F.LSW_SHED_SHED : Fld := ⟨R.LSW_SHED, 0, 32⟩
abbrev R.LSW_INT_STAT : Nat := 0x70020
abbrev F.LSW_INT_STAT_SHORT : Fld := ⟨R.LSW_INT_STAT, 0, 1⟩
abbrev F.LSW_INT_STAT_OVERTEMP : Fld := ⟨R.LSW_INT_STAT, 1, 1⟩
abbrev F.LSW_INT_STAT_LATCHED : Fld := ⟨R.LSW_INT_STAT, 2, 1⟩
abbrev F.LSW_INT_STAT_OPEN_LOAD : Fld := ⟨R.LSW_INT_STAT, 3, 1⟩
abbrev F.LSW_INT_STAT_CLEARED : Fld := ⟨R.LSW_INT_STAT, 4, 1⟩
abbrev F.LSW_INT_STAT_SUPPLY_OV : Fld := ⟨R.LSW_INT_STAT, 5, 1⟩
abbrev F.LSW_INT_STAT_SUPPLY_UV : Fld := ⟨R.LSW_INT_STAT, 6, 1⟩
abbrev F.LSW_INT_STAT_BUDGET : Fld := ⟨R.LSW_INT_STAT, 7, 1⟩
abbrev R.LSW_INT_EN : Nat := 0x70024
abbrev F.LSW_INT_EN_SHORT : Fld := ⟨R.LSW_INT_EN, 0, 1⟩
abbrev F.LSW_INT_EN_OVERTEMP : Fld := ⟨R.LSW_INT_EN, 1, 1⟩
abbrev F.LSW_INT_EN_LATCHED : Fld := ⟨R.LSW_INT_EN, 2, 1⟩
abbrev F.LSW_INT_EN_OPEN_LOAD : Fld := ⟨R.LSW_INT_EN, 3, 1⟩
abbrev F.LSW_INT_EN_CLEARED : Fld := ⟨R.LSW_INT_EN, 4, 1⟩
abbrev F.LSW_INT_EN_SUPPLY_OV : Fld := ⟨R.LSW_INT_EN, 5, 1⟩
abbrev F.LSW_INT_EN_SUPPLY_UV : Fld := ⟨R.LSW_INT_EN, 6, 1⟩
abbrev F.LSW_INT_EN_BUDGET : Fld := ⟨R.LSW_INT_EN, 7, 1⟩
abbrev R.LSW_CH_CFG (ch : Nat) : Nat := 0x71000 + 0x100 * ch
abbrev F.LSW_CH_CFG_MODE (ch : Nat) : Fld := ⟨R.LSW_CH_CFG ch, 0, 2⟩
abbrev F.LSW_CH_CFG_SLOPE (ch : Nat) : Fld := ⟨R.LSW_CH_CFG ch, 2, 2⟩
abbrev F.LSW_CH_CFG_FREQ (ch : Nat) : Fld := ⟨R.LSW_CH_CFG ch, 4, 3⟩
abbrev F.LSW_CH_CFG_COMP (ch : Nat) : Fld := ⟨R.LSW_CH_CFG ch, 7, 1⟩
abbrev F.LSW_CH_CFG_FW_EN (ch : Nat) : Fld := ⟨R.LSW_CH_CFG ch, 8, 1⟩
abbrev F.LSW_CH_CFG_RESP (ch : Nat) : Fld := ⟨R.LSW_CH_CFG ch, 9, 1⟩
abbrev F.LSW_CH_CFG_SAFE (ch : Nat) : Fld := ⟨R.LSW_CH_CFG ch, 10, 2⟩
abbrev F.LSW_CH_CFG_RESTART_MAX (ch : Nat) : Fld := ⟨R.LSW_CH_CFG ch, 12, 4⟩
abbrev F.LSW_CH_CFG_SHED_PRIO (ch : Nat) : Fld := ⟨R.LSW_CH_CFG ch, 16, 4⟩
abbrev F.LSW_CH_CFG_IRQ_TL (ch : Nat) : Fld := ⟨R.LSW_CH_CFG ch, 20, 3⟩
abbrev F.LSW_CH_CFG_OLOFF_EN (ch : Nat) : Fld := ⟨R.LSW_CH_CFG ch, 23, 1⟩
abbrev F.LSW_CH_CFG_INRUSH_MS (ch : Nat) : Fld := ⟨R.LSW_CH_CFG ch, 24, 8⟩
abbrev R.LSW_CH_DIAG (ch : Nat) : Nat := 0x71004 + 0x100 * ch
abbrev F.LSW_CH_DIAG_OL_TH (ch : Nat) : Fld := ⟨R.LSW_CH_DIAG ch, 0, 16⟩
abbrev F.LSW_CH_DIAG_OL_MS (ch : Nat) : Fld := ⟨R.LSW_CH_DIAG ch, 16, 8⟩
abbrev F.LSW_CH_DIAG_RETRY (ch : Nat) : Fld := ⟨R.LSW_CH_DIAG ch, 24, 8⟩
abbrev R.LSW_CH_PWM (ch : Nat) : Nat := 0x71008 + 0x100 * ch
abbrev F.LSW_CH_PWM_DUTY (ch : Nat) : Fld := ⟨R.LSW_CH_PWM ch, 0, 11⟩
abbrev F.LSW_CH_PWM_PULL_MS (ch : Nat) : Fld := ⟨R.LSW_CH_PWM ch, 16, 12⟩
abbrev F.LSW_CH_PWM_PHASE (ch : Nat) : Fld := ⟨R.LSW_CH_PWM ch, 28, 4⟩
abbrev R.LSW_CH_SLEW (ch : Nat) : Nat := 0x7100C + 0x100 * ch
abbrev F.LSW_CH_SLEW_RATE (ch : Nat) : Fld := ⟨R.LSW_CH_SLEW ch, 0, 16⟩
abbrev R.LSW_CH_CMD (ch : Nat) : Nat := 0x71010 + 0x100 * ch
abbrev F.LSW_CH_CMD_ON (ch : Nat) : Fld := ⟨R.LSW_CH_CMD ch, 0, 1⟩
abbrev F.LSW_CH_CMD_CLR (ch : Nat) : Fld := ⟨R.LSW_CH_CMD ch, 1, 1⟩
abbrev R.LSW_CH_STAT (ch : Nat) : Nat := 0x71014 + 0x100 * ch
abbrev F.LSW_CH_STAT_STATE (ch : Nat) : Fld := ⟨R.LSW_CH_STAT ch, 0, 3⟩
abbrev F.LSW_CH_STAT_OUT (ch : Nat) : Fld := ⟨R.LSW_CH_STAT ch, 3, 1⟩
abbrev F.LSW_CH_STAT_BOUND (ch : Nat) : Fld := ⟨R.LSW_CH_STAT ch, 4, 1⟩
abbrev F.LSW_CH_STAT_LIMIT (ch : Nat) : Fld := ⟨R.LSW_CH_STAT ch, 5, 1⟩
abbrev F.LSW_CH_STAT_LAMP_SAT (ch : Nat) : Fld := ⟨R.LSW_CH_STAT ch, 6, 1⟩
abbrev F.LSW_CH_STAT_FW (ch : Nat) : Fld := ⟨R.LSW_CH_STAT ch, 7, 1⟩
abbrev F.LSW_CH_STAT_RESTARTS (ch : Nat) : Fld := ⟨R.LSW_CH_STAT ch, 8, 4⟩
abbrev R.LSW_CH_MEAS (ch : Nat) : Nat := 0x71018 + 0x100 * ch
abbrev F.LSW_CH_MEAS_I_AVG (ch : Nat) : Fld := ⟨R.LSW_CH_MEAS ch, 0, 16⟩
abbrev F.LSW_CH_MEAS_I_ON (ch : Nat) : Fld := ⟨R.LSW_CH_MEAS ch, 16, 16⟩
abbrev R.LSW_CH_TEMP (ch : Nat) : Nat := 0x7101C + 0x100 * ch
abbrev F.LSW_CH_TEMP_TJ (ch : Nat) : Fld := ⟨R.LSW_CH_TEMP ch, 0, 12⟩
abbrev F.LSW_CH_TEMP_DT (ch : Nat) : Fld := ⟨R.LSW_CH_TEMP ch, 16, 12⟩
abbrev R.LSW_CH_FLT (ch : Nat) : Nat := 0x71020 + 0x100 * ch
abbrev F.LSW_CH_FLT_SHORT (ch : Nat) : Fld := ⟨R.LSW_CH_FLT ch, 0, 1⟩
abbrev F.LSW_CH_FLT_OT (ch : Nat) : Fld := ⟨R.LSW_CH_FLT ch, 1, 1⟩
abbrev F.LSW_CH_FLT_DT (ch : Nat) : Fld := ⟨R.LSW_CH_FLT ch, 2, 1⟩
abbrev F.LSW_CH_FLT_OL_ON (ch : Nat) : Fld := ⟨R.LSW_CH_FLT ch, 3, 1⟩
abbrev F.LSW_CH_FLT_OL_OFF (ch : Nat) : Fld := ⟨R.LSW_CH_FLT ch, 4, 1⟩
abbrev F.LSW_CH_FLT_SHORT_VAUX (ch : Nat) : Fld := ⟨R.LSW_CH_FLT ch, 5, 1⟩
abbrev F.LSW_CH_FLT_SUPPLY (ch : Nat) : Fld := ⟨R.LSW_CH_FLT ch, 6, 1⟩
abbrev F.LSW_CH_FLT_SHED (ch : Nat) : Fld := ⟨R.LSW_CH_FLT ch, 7, 1⟩
abbrev F.LSW_CH_FLT_COUPLED (ch : Nat) : Fld := ⟨R.LSW_CH_FLT ch, 8, 1⟩
abbrev R.LSW_CH_FLT_EN (ch : Nat) : Nat := 0x71024 + 0x100 * ch
abbrev F.LSW_CH_FLT_EN_EN (ch : Nat) : Fld := ⟨R.LSW_CH_FLT_EN ch, 0, 9⟩
abbrev R.LSW_CH_CNT (ch : Nat) : Nat := 0x71028 + 0x100 * ch
abbrev F.LSW_CH_CNT_SHORTS (ch : Nat) : Fld := ⟨R.LSW_CH_CNT ch, 0, 16⟩
abbrev F.LSW_CH_CNT_THERMAL (ch : Nat) : Fld := ⟨R.LSW_CH_CNT ch, 16, 16⟩

/-! ### CPX (R286, R287) -/

abbrev R.CPX_CTRL : Nat := 0x80000
abbrev F.CPX_CTRL_TL0_RESET : Fld := ⟨R.CPX_CTRL, 0, 1⟩
abbrev F.CPX_CTRL_TL0_RST_MAX : Fld := ⟨R.CPX_CTRL, 8, 8⟩
abbrev F.CPX_CTRL_LOCK : Fld := ⟨R.CPX_CTRL, 31, 1⟩
abbrev R.CPX_CFG : Nat := 0x80004
abbrev F.CPX_CFG_CRIT_MASK : Fld := ⟨R.CPX_CFG, 0, 5⟩
abbrev R.CPX_STATUS : Nat := 0x80008
abbrev F.CPX_STATUS_STATE (j : Nat) : Fld := ⟨R.CPX_STATUS, 0 + 3 * j, 3⟩
abbrev F.CPX_STATUS_DEV_FAULT : Fld := ⟨R.CPX_STATUS, 15, 1⟩
abbrev R.CPX_FCYC : Nat := 0x8000C
abbrev F.CPX_FCYC_FCYC : Fld := ⟨R.CPX_FCYC, 0, 32⟩
abbrev R.CPX_INT_STAT : Nat := 0x80010
abbrev F.CPX_INT_STAT_EVT : Fld := ⟨R.CPX_INT_STAT, 0, 7⟩
abbrev R.CPX_INT_EN : Nat := 0x80014
abbrev F.CPX_INT_EN_EVT : Fld := ⟨R.CPX_INT_EN, 0, 7⟩
abbrev R.TL_CTRL (t : Nat) : Nat := 0x80100 + 0x40 * t
abbrev F.TL_CTRL_RESTART (t : Nat) : Fld := ⟨R.TL_CTRL t, 0, 1⟩
abbrev F.TL_CTRL_STOP (t : Nat) : Fld := ⟨R.TL_CTRL t, 1, 1⟩
abbrev F.TL_CTRL_TEST (t : Nat) : Fld := ⟨R.TL_CTRL t, 2, 1⟩
abbrev F.TL_CTRL_CLR_CNT (t : Nat) : Fld := ⟨R.TL_CTRL t, 3, 1⟩
abbrev R.TL_CFG (t : Nat) : Nat := 0x80104 + 0x40 * t
abbrev F.TL_CFG_WIN (t : Nat) : Fld := ⟨R.TL_CFG t, 0, 8⟩
abbrev F.TL_CFG_DIV_MAX (t : Nat) : Fld := ⟨R.TL_CFG t, 8, 8⟩
abbrev F.TL_CFG_REPEAT_MAX (t : Nat) : Fld := ⟨R.TL_CFG t, 16, 4⟩
abbrev F.TL_CFG_AUTO (t : Nat) : Fld := ⟨R.TL_CFG t, 20, 1⟩
abbrev F.TL_CFG_RST_MAX (t : Nat) : Fld := ⟨R.TL_CFG t, 21, 3⟩
abbrev F.TL_CFG_NOTE_EN (t : Nat) : Fld := ⟨R.TL_CFG t, 24, 1⟩
abbrev F.TL_CFG_DIN_LOW (t : Nat) : Fld := ⟨R.TL_CFG t, 25, 1⟩
abbrev R.TL_STAT (t : Nat) : Nat := 0x80108 + 0x40 * t
abbrev F.TL_STAT_STATE (t : Nat) : Fld := ⟨R.TL_STAT t, 0, 3⟩
abbrev F.TL_STAT_CAUSE (t : Nat) : Fld := ⟨R.TL_STAT t, 3, 4⟩
abbrev F.TL_STAT_TEST_OK (t : Nat) : Fld := ⟨R.TL_STAT t, 7, 1⟩
abbrev F.TL_STAT_EPOCH_LEN (t : Nat) : Fld := ⟨R.TL_STAT t, 8, 8⟩
abbrev F.TL_STAT_SB_USED (t : Nat) : Fld := ⟨R.TL_STAT t, 16, 6⟩
abbrev F.TL_STAT_RESTARTS (t : Nat) : Fld := ⟨R.TL_STAT t, 24, 8⟩
abbrev R.TL_DIN (t : Nat) (j : Nat) : Nat := 0x8010C + 0x40 * t + 0x4 * j
abbrev F.TL_DIN_SRC (t : Nat) (j : Nat) (i : Nat) : Fld := ⟨R.TL_DIN t j, 0 + 8 * i, 6⟩
abbrev R.TL_DIN_IE (t : Nat) : Nat := 0x8011C + 0x40 * t
abbrev F.TL_DIN_IE_IE (t : Nat) : Fld := ⟨R.TL_DIN_IE t, 0, 16⟩
abbrev R.TL_CNT_A (t : Nat) : Nat := 0x80120 + 0x40 * t
abbrev F.TL_CNT_A_DIVERGE (t : Nat) : Fld := ⟨R.TL_CNT_A t, 0, 16⟩
abbrev F.TL_CNT_A_ROLLBACK (t : Nat) : Fld := ⟨R.TL_CNT_A t, 16, 16⟩
abbrev R.TL_CNT_B (t : Nat) : Nat := 0x80124 + 0x40 * t
abbrev F.TL_CNT_B_REFILL (t : Nat) : Fld := ⟨R.TL_CNT_B t, 0, 16⟩
abbrev F.TL_CNT_B_SB_PAR (t : Nat) : Fld := ⟨R.TL_CNT_B t, 16, 8⟩
abbrev F.TL_CNT_B_DLY_PAR (t : Nat) : Fld := ⟨R.TL_CNT_B t, 24, 8⟩
abbrev R.TL_MISM (t : Nat) : Nat := 0x80128 + 0x40 * t
abbrev F.TL_MISM_GROUP (t : Nat) : Fld := ⟨R.TL_MISM t, 0, 4⟩
abbrev F.TL_MISM_BIT (t : Nat) : Fld := ⟨R.TL_MISM t, 4, 7⟩
abbrev F.TL_MISM_ATTRIB (t : Nat) : Fld := ⟨R.TL_MISM t, 11, 1⟩
abbrev R.TL_MISM_CYC (t : Nat) : Nat := 0x8012C + 0x40 * t
abbrev F.TL_MISM_CYC_CYC (t : Nat) : Fld := ⟨R.TL_MISM_CYC t, 0, 32⟩
abbrev R.TL_WIT (t : Nat) : Nat := 0x80130 + 0x40 * t
abbrev F.TL_WIT_DIN (t : Nat) : Fld := ⟨R.TL_WIT t, 0, 4⟩
abbrev F.TL_WIT_VALID (t : Nat) : Fld := ⟨R.TL_WIT t, 4, 1⟩
abbrev R.TL_WIT_CYC (t : Nat) : Nat := 0x80134 + 0x40 * t
abbrev F.TL_WIT_CYC_CYC (t : Nat) : Fld := ⟨R.TL_WIT_CYC t, 0, 32⟩
abbrev R.TL_TEST (t : Nat) : Nat := 0x80138 + 0x40 * t
abbrev F.TL_TEST_FAIL_GROUP (t : Nat) : Fld := ⟨R.TL_TEST t, 0, 4⟩
abbrev F.TL_TEST_FAIL_BIT (t : Nat) : Fld := ⟨R.TL_TEST t, 4, 7⟩
abbrev F.TL_TEST_POL (t : Nat) : Fld := ⟨R.TL_TEST t, 11, 1⟩
abbrev F.TL_TEST_DELAY (t : Nat) : Fld := ⟨R.TL_TEST t, 12, 1⟩
abbrev F.TL_TEST_TEST_CYC (t : Nat) : Fld := ⟨R.TL_TEST t, 16, 16⟩

/-! ### WLD (R321 to R323) -/

abbrev R.WLD_CTRL : Nat := 0x90000
abbrev F.WLD_CTRL_LOCK : Fld := ⟨R.WLD_CTRL, 31, 1⟩
abbrev R.WLD_SECBLK : Nat := 0x90004
abbrev F.WLD_SECBLK_SEC : Fld := ⟨R.WLD_SECBLK, 0, 29⟩
abbrev R.WLD_INT_STAT : Nat := 0x90010
abbrev F.WLD_INT_STAT_EVT : Fld := ⟨R.WLD_INT_STAT, 0, 12⟩
abbrev R.WLD_INT_EN : Nat := 0x90014
abbrev F.WLD_INT_EN_EVT : Fld := ⟨R.WLD_INT_EN, 0, 12⟩
abbrev R.WLD_SLOT_OWN (j : Nat) : Nat := 0x90020 + 0x4 * j
abbrev F.WLD_SLOT_OWN_OWN (j : Nat) (i : Nat) : Fld := ⟨R.WLD_SLOT_OWN j, 0 + 4 * i, 4⟩
abbrev R.WLD_LSW_OWN (j : Nat) : Nat := 0x90030 + 0x4 * j
abbrev F.WLD_LSW_OWN_OWN (j : Nat) (i : Nat) : Fld := ⟨R.WLD_LSW_OWN j, 0 + 4 * i, 4⟩
abbrev R.WLD_TEN_CFG (k : Nat) : Nat := 0x90100 + 0x10 * k
abbrev F.WLD_TEN_CFG_EN (k : Nat) : Fld := ⟨R.WLD_TEN_CFG k, 0, 1⟩
abbrev F.WLD_TEN_CFG_TLMASK (k : Nat) : Fld := ⟨R.WLD_TEN_CFG k, 1, 5⟩
abbrev R.WLD_TEN_STAT (k : Nat) : Nat := 0x90104 + 0x10 * k
abbrev F.WLD_TEN_STAT_STATE (k : Nat) : Fld := ⟨R.WLD_TEN_STAT k, 0, 3⟩
abbrev F.WLD_TEN_STAT_BLOCKED (k : Nat) : Fld := ⟨R.WLD_TEN_STAT k, 3, 1⟩
abbrev F.WLD_TEN_STAT_RESETS (k : Nat) : Fld := ⟨R.WLD_TEN_STAT k, 8, 8⟩
abbrev F.WLD_TEN_STAT_FAULTS (k : Nat) : Fld := ⟨R.WLD_TEN_STAT k, 16, 8⟩
abbrev R.WLD_TEN_CMD (k : Nat) : Nat := 0x90108 + 0x10 * k
abbrev F.WLD_TEN_CMD_RESET (k : Nat) : Fld := ⟨R.WLD_TEN_CMD k, 0, 1⟩
abbrev F.WLD_TEN_CMD_RELEASE (k : Nat) : Fld := ⟨R.WLD_TEN_CMD k, 1, 1⟩
abbrev R.CAB_CMD : Nat := 0x90200
abbrev F.CAB_CMD_OP : Fld := ⟨R.CAB_CMD, 0, 4⟩
abbrev F.CAB_CMD_SLOT : Fld := ⟨R.CAB_CMD, 4, 4⟩
abbrev F.CAB_CMD_DST : Fld := ⟨R.CAB_CMD, 8, 4⟩
abbrev F.CAB_CMD_LEN : Fld := ⟨R.CAB_CMD, 12, 7⟩
abbrev F.CAB_CMD_EXP : Fld := ⟨R.CAB_CMD, 19, 1⟩
abbrev R.CAB_STAT : Nat := 0x90204
abbrev F.CAB_STAT_BUSY : Fld := ⟨R.CAB_STAT, 0, 1⟩
abbrev F.CAB_STAT_OWNER : Fld := ⟨R.CAB_STAT, 1, 3⟩
abbrev F.CAB_STAT_ERR : Fld := ⟨R.CAB_STAT, 4, 4⟩
abbrev R.CAB_ATTR (s : Nat) : Nat := 0x90240 + 0x4 * s
abbrev F.CAB_ATTR_VALID (s : Nat) : Fld := ⟨R.CAB_ATTR s, 0, 1⟩
abbrev F.CAB_ATTR_EXP (s : Nat) : Fld := ⟨R.CAB_ATTR s, 1, 1⟩
abbrev F.CAB_ATTR_LK (s : Nat) : Fld := ⟨R.CAB_ATTR s, 2, 1⟩
abbrev F.CAB_ATTR_LEN (s : Nat) : Fld := ⟨R.CAB_ATTR s, 3, 7⟩
abbrev R.CAB_DATA (w : Nat) : Nat := 0x90280 + 0x4 * w
abbrev F.CAB_DATA_DATA (w : Nat) : Fld := ⟨R.CAB_DATA w, 0, 32⟩
abbrev R.RC_CTRL (c : Nat) : Nat := 0x91000 + 0x200 * c
abbrev F.RC_CTRL_DEF_SEC (c : Nat) : Fld := ⟨R.RC_CTRL c, 0, 1⟩
abbrev R.RC_FLT_LO (c : Nat) : Nat := 0x91004 + 0x200 * c
abbrev F.RC_FLT_LO_ADDR (c : Nat) : Fld := ⟨R.RC_FLT_LO c, 0, 32⟩
abbrev R.RC_FLT_HI (c : Nat) : Nat := 0x91008 + 0x200 * c
abbrev F.RC_FLT_HI_ADDR_HI (c : Nat) : Fld := ⟨R.RC_FLT_HI c, 0, 8⟩
abbrev F.RC_FLT_HI_ATTR (c : Nat) : Fld := ⟨R.RC_FLT_HI c, 8, 8⟩
abbrev F.RC_FLT_HI_TYPE (c : Nat) : Fld := ⟨R.RC_FLT_HI c, 16, 2⟩
abbrev F.RC_FLT_HI_VALID (c : Nat) : Fld := ⟨R.RC_FLT_HI c, 18, 1⟩
abbrev F.RC_FLT_HI_REGION (c : Nat) : Fld := ⟨R.RC_FLT_HI c, 20, 4⟩
abbrev R.RC_FLT_CNT (c : Nat) : Nat := 0x9100C + 0x200 * c
abbrev F.RC_FLT_CNT_COUNT (c : Nat) : Fld := ⟨R.RC_FLT_CNT c, 0, 32⟩
abbrev R.RC_BASE (c : Nat) (n : Nat) : Nat := 0x91100 + 0x200 * c + 0x10 * n
abbrev F.RC_BASE_BASE (c : Nat) (n : Nat) : Fld := ⟨R.RC_BASE c n, 0, 32⟩
abbrev R.RC_CFG (c : Nat) (n : Nat) : Nat := 0x91104 + 0x200 * c + 0x10 * n
abbrev F.RC_CFG_EN (c : Nat) (n : Nat) : Fld := ⟨R.RC_CFG c n, 0, 1⟩
abbrev F.RC_CFG_SIZE (c : Nat) (n : Nat) : Fld := ⟨R.RC_CFG c n, 1, 6⟩
abbrev F.RC_CFG_S_R (c : Nat) (n : Nat) : Fld := ⟨R.RC_CFG c n, 7, 1⟩
abbrev F.RC_CFG_S_W (c : Nat) (n : Nat) : Fld := ⟨R.RC_CFG c n, 8, 1⟩
abbrev F.RC_CFG_S_X (c : Nat) (n : Nat) : Fld := ⟨R.RC_CFG c n, 9, 1⟩
abbrev F.RC_CFG_H_R (c : Nat) (n : Nat) : Fld := ⟨R.RC_CFG c n, 10, 1⟩
abbrev F.RC_CFG_H_W (c : Nat) (n : Nat) : Fld := ⟨R.RC_CFG c n, 11, 1⟩
abbrev F.RC_CFG_H_X (c : Nat) (n : Nat) : Fld := ⟨R.RC_CFG c n, 12, 1⟩
abbrev F.RC_CFG_G_R (c : Nat) (n : Nat) : Fld := ⟨R.RC_CFG c n, 13, 1⟩
abbrev F.RC_CFG_G_W (c : Nat) (n : Nat) : Fld := ⟨R.RC_CFG c n, 14, 1⟩
abbrev F.RC_CFG_G_X (c : Nat) (n : Nat) : Fld := ⟨R.RC_CFG c n, 15, 1⟩
abbrev F.RC_CFG_GATE (c : Nat) (n : Nat) : Fld := ⟨R.RC_CFG c n, 16, 1⟩
abbrev F.RC_CFG_UPRIV (c : Nat) (n : Nat) : Fld := ⟨R.RC_CFG c n, 17, 1⟩
abbrev F.RC_CFG_TMASK (c : Nat) (n : Nat) : Fld := ⟨R.RC_CFG c n, 24, 8⟩

/-! ### DBG (R324) -/

abbrev R.DBG_OTP : Nat := 0x1B0000
abbrev F.DBG_OTP_OTP : Fld := ⟨R.DBG_OTP, 0, 4⟩
abbrev R.DBG_RT : Nat := 0x1B0004
abbrev F.DBG_RT_RT : Fld := ⟨R.DBG_RT, 0, 4⟩
abbrev R.DBG_EFF : Nat := 0x1B0008
abbrev F.DBG_EFF_EFF : Fld := ⟨R.DBG_EFF, 0, 4⟩
abbrev R.DBG_PROG : Nat := 0x1B000C
abbrev F.DBG_PROG_RAISE : Fld := ⟨R.DBG_PROG, 0, 4⟩
abbrev F.DBG_PROG_KEY : Fld := ⟨R.DBG_PROG, 24, 8⟩
abbrev R.DBG_STAT : Nat := 0x1B0010
abbrev F.DBG_STAT_BUSY : Fld := ⟨R.DBG_STAT, 0, 1⟩
abbrev F.DBG_STAT_HALT_PEND : Fld := ⟨R.DBG_STAT, 1, 1⟩
abbrev F.DBG_STAT_PROG_FAIL : Fld := ⟨R.DBG_STAT, 2, 1⟩
abbrev F.DBG_STAT_SCAN_ACT : Fld := ⟨R.DBG_STAT, 3, 1⟩

/-! ### AIX (R362, R363) -/

abbrev R.AIX_CTRL : Nat := 0xA0000
abbrev F.AIX_CTRL_EN : Fld := ⟨R.AIX_CTRL, 0, 1⟩
abbrev F.AIX_CTRL_ETH0 : Fld := ⟨R.AIX_CTRL, 1, 1⟩
abbrev F.AIX_CTRL_ETH1 : Fld := ⟨R.AIX_CTRL, 2, 1⟩
abbrev F.AIX_CTRL_TWP : Fld := ⟨R.AIX_CTRL, 3, 1⟩
abbrev F.AIX_CTRL_CLR_CNT : Fld := ⟨R.AIX_CTRL, 4, 1⟩
abbrev R.AIX_PORT : Nat := 0xA0004
abbrev F.AIX_PORT_PORT : Fld := ⟨R.AIX_PORT, 0, 16⟩
abbrev R.AIX_TMO : Nat := 0xA0008
abbrev F.AIX_TMO_SESS_TMO : Fld := ⟨R.AIX_TMO, 0, 16⟩
abbrev F.AIX_TMO_ACCEPT_MS : Fld := ⟨R.AIX_TMO, 16, 8⟩
abbrev R.AIX_QBASE : Nat := 0xA000C
abbrev F.AIX_QBASE_BASE : Fld := ⟨R.AIX_QBASE, 0, 32⟩
abbrev R.AIX_STATUS : Nat := 0xA0010
abbrev F.AIX_STATUS_ENGINE : Fld := ⟨R.AIX_STATUS, 0, 1⟩
abbrev F.AIX_STATUS_SESSIONS : Fld := ⟨R.AIX_STATUS, 8, 6⟩
abbrev R.AIX_CMT_SEQ : Nat := 0xA0014
abbrev F.AIX_CMT_SEQ_SEQ : Fld := ⟨R.AIX_CMT_SEQ, 0, 16⟩
abbrev F.AIX_CMT_SEQ_DRAWER : Fld := ⟨R.AIX_CMT_SEQ, 16, 3⟩
abbrev F.AIX_CMT_SEQ_SLOT : Fld := ⟨R.AIX_CMT_SEQ, 19, 2⟩
abbrev R.AIX_CMT : Nat := 0xA0018
abbrev F.AIX_CMT_STATUS : Fld := ⟨R.AIX_CMT, 0, 16⟩
abbrev F.AIX_CMT_GO : Fld := ⟨R.AIX_CMT, 16, 1⟩
abbrev R.AIX_INT_STAT : Nat := 0xA0020
abbrev F.AIX_INT_STAT_EVT : Fld := ⟨R.AIX_INT_STAT, 0, 10⟩
abbrev R.AIX_INT_EN : Nat := 0xA0024
abbrev F.AIX_INT_EN_EVT : Fld := ⟨R.AIX_INT_EN, 0, 10⟩
abbrev R.AIX_CNT_CRC : Nat := 0xA0030
abbrev F.AIX_CNT_CRC_CNT : Fld := ⟨R.AIX_CNT_CRC, 0, 32⟩
abbrev R.AIX_CNT_FMT : Nat := 0xA0034
abbrev F.AIX_CNT_FMT_CNT : Fld := ⟨R.AIX_CNT_FMT, 0, 32⟩
abbrev R.AIX_CNT_ACL : Nat := 0xA0038
abbrev F.AIX_CNT_ACL_CNT : Fld := ⟨R.AIX_CNT_ACL, 0, 32⟩
abbrev R.AIX_CNT_DUP : Nat := 0xA003C
abbrev F.AIX_CNT_DUP_CNT : Fld := ⟨R.AIX_CNT_DUP, 0, 32⟩
abbrev R.AIX_CNT_BUSY : Nat := 0xA0040
abbrev F.AIX_CNT_BUSY_CNT : Fld := ⟨R.AIX_CNT_BUSY, 0, 32⟩
abbrev R.AIX_CNT_DROP : Nat := 0xA0044
abbrev F.AIX_CNT_DROP_CNT : Fld := ⟨R.AIX_CNT_DROP, 0, 32⟩
abbrev R.AIX_CNT_TMO : Nat := 0xA0048
abbrev F.AIX_CNT_TMO_CNT : Fld := ⟨R.AIX_CNT_TMO, 0, 32⟩
abbrev R.AIX_CNT_BADRSP : Nat := 0xA004C
abbrev F.AIX_CNT_BADRSP_CNT : Fld := ⟨R.AIX_CNT_BADRSP, 0, 32⟩
abbrev R.AIX_ADDR (e : Nat) (w : Nat) : Nat := 0xA0100 + 0x10 * e + 0x4 * w
abbrev F.AIX_ADDR_ADDR (e : Nat) (w : Nat) : Fld := ⟨R.AIX_ADDR e w, 0, 32⟩
abbrev R.AIX_DCFG (k : Nat) : Nat := 0xA0300 + 0x8 * k
abbrev F.AIX_DCFG_EN (k : Nat) : Fld := ⟨R.AIX_DCFG k, 0, 1⟩
abbrev F.AIX_DCFG_TWP (k : Nat) : Fld := ⟨R.AIX_DCFG k, 1, 1⟩
abbrev F.AIX_DCFG_IRQ_TL (k : Nat) : Fld := ⟨R.AIX_DCFG k, 2, 3⟩
abbrev F.AIX_DCFG_TMO (k : Nat) : Fld := ⟨R.AIX_DCFG k, 8, 8⟩
abbrev R.AIX_DACL (k : Nat) : Nat := 0xA0304 + 0x8 * k
abbrev F.AIX_DACL_MASK (k : Nat) : Fld := ⟨R.AIX_DACL k, 0, 32⟩
abbrev R.DRW_REQ_BASE (k : Nat) : Nat := 0xA1000 + 0x100 * k
abbrev F.DRW_REQ_BASE_BASE (k : Nat) : Fld := ⟨R.DRW_REQ_BASE k, 0, 32⟩
abbrev R.DRW_RSP_BASE (k : Nat) : Nat := 0xA1004 + 0x100 * k
abbrev F.DRW_RSP_BASE_BASE (k : Nat) : Fld := ⟨R.DRW_RSP_BASE k, 0, 32⟩
abbrev R.DRW_CTRL (k : Nat) : Nat := 0xA1008 + 0x100 * k
abbrev F.DRW_CTRL_EN (k : Nat) : Fld := ⟨R.DRW_CTRL k, 0, 1⟩
abbrev R.DRW_REQ_PROD (k : Nat) : Nat := 0xA100C + 0x100 * k
abbrev F.DRW_REQ_PROD_IDX (k : Nat) : Fld := ⟨R.DRW_REQ_PROD k, 0, 5⟩
abbrev R.DRW_REQ_CONS (k : Nat) : Nat := 0xA1010 + 0x100 * k
abbrev F.DRW_REQ_CONS_IDX (k : Nat) : Fld := ⟨R.DRW_REQ_CONS k, 0, 5⟩
abbrev R.DRW_RSP_PROD (k : Nat) : Nat := 0xA1014 + 0x100 * k
abbrev F.DRW_RSP_PROD_IDX (k : Nat) : Fld := ⟨R.DRW_RSP_PROD k, 0, 5⟩
abbrev R.DRW_RSP_CONS (k : Nat) : Nat := 0xA1018 + 0x100 * k
abbrev F.DRW_RSP_CONS_IDX (k : Nat) : Fld := ⟨R.DRW_RSP_CONS k, 0, 5⟩
abbrev R.DRW_INT (k : Nat) : Nat := 0xA101C + 0x100 * k
abbrev F.DRW_INT_REQ (k : Nat) : Fld := ⟨R.DRW_INT k, 0, 1⟩
abbrev F.DRW_INT_RSP_BAD (k : Nat) : Fld := ⟨R.DRW_INT k, 1, 1⟩
abbrev F.DRW_INT_RING_ERR (k : Nat) : Fld := ⟨R.DRW_INT k, 2, 1⟩

/-! ### ETH (R364) -/

abbrev R.ETH_CTRL (e : Nat) : Nat := 0xD0000 + 0x10000 * e
abbrev F.ETH_CTRL_EN (e : Nat) : Fld := ⟨R.ETH_CTRL e, 0, 1⟩
abbrev F.ETH_CTRL_IPV4_EN (e : Nat) : Fld := ⟨R.ETH_CTRL e, 1, 1⟩
abbrev F.ETH_CTRL_IPV6_EN (e : Nat) : Fld := ⟨R.ETH_CTRL e, 2, 1⟩
abbrev F.ETH_CTRL_PTP_EN (e : Nat) : Fld := ⟨R.ETH_CTRL e, 3, 1⟩
abbrev F.ETH_CTRL_LOCK (e : Nat) : Fld := ⟨R.ETH_CTRL e, 31, 1⟩
abbrev R.ETH_MAC_LO (e : Nat) : Nat := 0xD0004 + 0x10000 * e
abbrev F.ETH_MAC_LO_MAC (e : Nat) : Fld := ⟨R.ETH_MAC_LO e, 0, 32⟩
abbrev R.ETH_MAC_HI (e : Nat) : Nat := 0xD0008 + 0x10000 * e
abbrev F.ETH_MAC_HI_MAC (e : Nat) : Fld := ⟨R.ETH_MAC_HI e, 0, 16⟩
abbrev R.ETH_IPV4 (e : Nat) : Nat := 0xD000C + 0x10000 * e
abbrev F.ETH_IPV4_ADDR (e : Nat) : Fld := ⟨R.ETH_IPV4 e, 0, 32⟩
abbrev R.ETH_IPV4_CFG (e : Nat) : Nat := 0xD0010 + 0x10000 * e
abbrev F.ETH_IPV4_CFG_PREFIX (e : Nat) : Fld := ⟨R.ETH_IPV4_CFG e, 0, 6⟩
abbrev R.ETH_IPV4_GW (e : Nat) : Nat := 0xD0014 + 0x10000 * e
abbrev F.ETH_IPV4_GW_ADDR (e : Nat) : Fld := ⟨R.ETH_IPV4_GW e, 0, 32⟩
abbrev R.ETH_IPV6 (e : Nat) (w : Nat) : Nat := 0xD0020 + 0x10000 * e + 0x4 * w
abbrev F.ETH_IPV6_ADDR (e : Nat) (w : Nat) : Fld := ⟨R.ETH_IPV6 e w, 0, 32⟩
abbrev R.ETH_IPV6_CFG (e : Nat) : Nat := 0xD0030 + 0x10000 * e
abbrev F.ETH_IPV6_CFG_PREFIX (e : Nat) : Fld := ⟨R.ETH_IPV6_CFG e, 0, 8⟩
abbrev R.ETH_VLAN (e : Nat) : Nat := 0xD0034 + 0x10000 * e
abbrev F.ETH_VLAN_VID (e : Nat) : Fld := ⟨R.ETH_VLAN e, 0, 12⟩
abbrev F.ETH_VLAN_PCP (e : Nat) : Fld := ⟨R.ETH_VLAN e, 12, 3⟩
abbrev F.ETH_VLAN_EN (e : Nat) : Fld := ⟨R.ETH_VLAN e, 15, 1⟩
abbrev R.ETH_IPV6_GW (e : Nat) (w : Nat) : Nat := 0xD0040 + 0x10000 * e + 0x4 * w
abbrev F.ETH_IPV6_GW_ADDR (e : Nat) (w : Nat) : Fld := ⟨R.ETH_IPV6_GW e w, 0, 32⟩
abbrev R.ETH_STATUS (e : Nat) : Nat := 0xD0050 + 0x10000 * e
abbrev F.ETH_STATUS_LINK (e : Nat) : Fld := ⟨R.ETH_STATUS e, 0, 1⟩
abbrev F.ETH_STATUS_SYNC (e : Nat) : Fld := ⟨R.ETH_STATUS e, 1, 1⟩
abbrev F.ETH_STATUS_PTP_SYNC (e : Nat) : Fld := ⟨R.ETH_STATUS e, 2, 1⟩
abbrev R.ETH_PTP_OFS (e : Nat) : Nat := 0xD0054 + 0x10000 * e
abbrev F.ETH_PTP_OFS_OFS (e : Nat) : Fld := ⟨R.ETH_PTP_OFS e, 0, 32⟩
abbrev R.ETH_CNT_RX (e : Nat) : Nat := 0xD0060 + 0x10000 * e
abbrev F.ETH_CNT_RX_CNT (e : Nat) : Fld := ⟨R.ETH_CNT_RX e, 0, 32⟩
abbrev R.ETH_CNT_FCS (e : Nat) : Nat := 0xD0064 + 0x10000 * e
abbrev F.ETH_CNT_FCS_CNT (e : Nat) : Fld := ⟨R.ETH_CNT_FCS e, 0, 32⟩
abbrev R.ETH_CNT_DROP (e : Nat) : Nat := 0xD0068 + 0x10000 * e
abbrev F.ETH_CNT_DROP_CNT (e : Nat) : Fld := ⟨R.ETH_CNT_DROP e, 0, 32⟩
abbrev R.ETH_CNT_TX (e : Nat) : Nat := 0xD006C + 0x10000 * e
abbrev F.ETH_CNT_TX_CNT (e : Nat) : Fld := ⟨R.ETH_CNT_TX e, 0, 32⟩
abbrev R.ETH_CNT_CLR (e : Nat) : Nat := 0xD0070 + 0x10000 * e
abbrev F.ETH_CNT_CLR_CLR (e : Nat) : Fld := ⟨R.ETH_CNT_CLR e, 0, 1⟩
abbrev R.ETH_INT_STAT (e : Nat) : Nat := 0xD0078 + 0x10000 * e
abbrev F.ETH_INT_STAT_LINK (e : Nat) : Fld := ⟨R.ETH_INT_STAT e, 0, 1⟩
abbrev F.ETH_INT_STAT_PTP (e : Nat) : Fld := ⟨R.ETH_INT_STAT e, 1, 1⟩
abbrev R.ETH_INT_EN (e : Nat) : Nat := 0xD007C + 0x10000 * e
abbrev F.ETH_INT_EN_EN (e : Nat) : Fld := ⟨R.ETH_INT_EN e, 0, 2⟩

/-! ### CFG (R388) -/

abbrev R.CFG_STATUS : Nat := 0x1C0000
abbrev F.CFG_STATUS_STATE : Fld := ⟨R.CFG_STATUS, 0, 2⟩
abbrev F.CFG_STATUS_SLOT : Fld := ⟨R.CFG_STATUS, 2, 1⟩
abbrev F.CFG_STATUS_CONVERTED : Fld := ⟨R.CFG_STATUS, 3, 1⟩
abbrev F.CFG_STATUS_WRITE_FAIL : Fld := ⟨R.CFG_STATUS, 4, 1⟩
abbrev F.CFG_STATUS_NET_ONLY : Fld := ⟨R.CFG_STATUS, 5, 1⟩
abbrev F.CFG_STATUS_HOLD_CAUSE : Fld := ⟨R.CFG_STATUS, 8, 8⟩
abbrev F.CFG_STATUS_CHECK : Fld := ⟨R.CFG_STATUS, 16, 16⟩
abbrev R.CFG_CRC : Nat := 0x1C0004
abbrev F.CFG_CRC_CRC : Fld := ⟨R.CFG_CRC, 0, 32⟩
abbrev R.CFG_GEN : Nat := 0x1C0008
abbrev F.CFG_GEN_GEN : Fld := ⟨R.CFG_GEN, 0, 32⟩
abbrev R.CFG_OFS : Nat := 0x1C000C
abbrev F.CFG_OFS_OFS : Fld := ⟨R.CFG_OFS, 0, 32⟩
abbrev R.CFG_SEQ_0 : Nat := 0x1C0010
abbrev F.CFG_SEQ_0_SEQ : Fld := ⟨R.CFG_SEQ_0, 0, 32⟩
abbrev R.CFG_SEQ_1 : Nat := 0x1C0014
abbrev F.CFG_SEQ_1_SEQ : Fld := ⟨R.CFG_SEQ_1, 0, 32⟩
abbrev R.CFG_STAGE_BASE : Nat := 0x1C0018
abbrev F.CFG_STAGE_BASE_BASE : Fld := ⟨R.CFG_STAGE_BASE, 0, 32⟩
abbrev R.CFG_STAGE_LEN : Nat := 0x1C001C
abbrev F.CFG_STAGE_LEN_RECEIVED : Fld := ⟨R.CFG_STAGE_LEN, 0, 21⟩
abbrev R.CFG_STAGE_TOTAL : Nat := 0x1C0020
abbrev F.CFG_STAGE_TOTAL_TOTAL : Fld := ⟨R.CFG_STAGE_TOTAL, 0, 21⟩

/-! ### BRG (R411 to R413) -/

abbrev R.BRG_CTRL : Nat := 0xB0000
abbrev F.BRG_CTRL_DEF_MODE : Fld := ⟨R.BRG_CTRL, 0, 2⟩
abbrev F.BRG_CTRL_LOCK : Fld := ⟨R.BRG_CTRL, 31, 1⟩
abbrev R.BRG_CFG : Nat := 0xB0004
abbrev F.BRG_CFG_HOLD_US : Fld := ⟨R.BRG_CFG, 0, 16⟩
abbrev F.BRG_CFG_PF_WORDS : Fld := ⟨R.BRG_CFG, 16, 7⟩
abbrev R.BRG_STATUS : Nat := 0xB0008
abbrev F.BRG_STATUS_BUSY : Fld := ⟨R.BRG_STATUS, 0, 16⟩
abbrev R.BRG_INT_STAT : Nat := 0xB0010
abbrev F.BRG_INT_STAT_EVT : Fld := ⟨R.BRG_INT_STAT, 0, 9⟩
abbrev R.BRG_INT_EN : Nat := 0xB0014
abbrev F.BRG_INT_EN_EVT : Fld := ⟨R.BRG_INT_EN, 0, 9⟩
abbrev R.BRG_CNT_ERR : Nat := 0xB0020
abbrev F.BRG_CNT_ERR_CNT : Fld := ⟨R.BRG_CNT_ERR, 0, 32⟩
abbrev R.BRG_CNT_RETRY : Nat := 0xB0024
abbrev F.BRG_CNT_RETRY_CNT : Fld := ⟨R.BRG_CNT_RETRY, 0, 32⟩
abbrev R.BRG_CNT_PFHIT : Nat := 0xB0028
abbrev F.BRG_CNT_PFHIT_CNT : Fld := ⟨R.BRG_CNT_PFHIT, 0, 32⟩
abbrev R.BRG_CNT_MEM : Nat := 0xB002C
abbrev F.BRG_CNT_MEM_SRAM : Fld := ⟨R.BRG_CNT_MEM, 0, 16⟩
abbrev F.BRG_CNT_MEM_DRAM : Fld := ⟨R.BRG_CNT_MEM, 16, 16⟩
abbrev R.BRG_CNT_PAR : Nat := 0xB0030
abbrev F.BRG_CNT_PAR_FABRIC : Fld := ⟨R.BRG_CNT_PAR, 0, 16⟩
abbrev F.BRG_CNT_PAR_RXBUF : Fld := ⟨R.BRG_CNT_PAR, 16, 16⟩
abbrev R.BRG_MEMERR_LO : Nat := 0xB0034
abbrev F.BRG_MEMERR_LO_ADDR : Fld := ⟨R.BRG_MEMERR_LO, 0, 32⟩
abbrev R.BRG_MEMERR_HI : Nat := 0xB0038
abbrev F.BRG_MEMERR_HI_ADDR : Fld := ⟨R.BRG_MEMERR_HI, 0, 8⟩
abbrev F.BRG_MEMERR_HI_DRAM : Fld := ⟨R.BRG_MEMERR_HI, 8, 1⟩
abbrev R.BRG_CLR : Nat := 0xB003C
abbrev F.BRG_CLR_CLR : Fld := ⟨R.BRG_CLR, 0, 1⟩
abbrev R.WIN_BASE (n : Nat) : Nat := 0xB0100 + 0x10 * n
abbrev F.WIN_BASE_BASE (n : Nat) : Fld := ⟨R.WIN_BASE n, 0, 16⟩
abbrev R.WIN_LIMIT (n : Nat) : Nat := 0xB0104 + 0x10 * n
abbrev F.WIN_LIMIT_LIMIT (n : Nat) : Fld := ⟨R.WIN_LIMIT n, 0, 16⟩
abbrev R.WIN_CFG (n : Nat) : Nat := 0xB0108 + 0x10 * n
abbrev F.WIN_CFG_EN (n : Nat) : Fld := ⟨R.WIN_CFG n, 0, 1⟩
abbrev F.WIN_CFG_TARGET (n : Nat) : Fld := ⟨R.WIN_CFG n, 1, 1⟩
abbrev F.WIN_CFG_MODE (n : Nat) : Fld := ⟨R.WIN_CFG n, 2, 2⟩
abbrev R.BE_N_LO (t : Nat) : Nat := 0xB0200 + 0x20 * t
abbrev F.BE_N_LO_ADDR (t : Nat) : Fld := ⟨R.BE_N_LO t, 0, 32⟩
abbrev R.BE_N_HI (t : Nat) : Nat := 0xB0204 + 0x20 * t
abbrev F.BE_N_HI_ADDR_HI (t : Nat) : Fld := ⟨R.BE_N_HI t, 0, 8⟩
abbrev F.BE_N_HI_ATTR (t : Nat) : Fld := ⟨R.BE_N_HI t, 8, 8⟩
abbrev F.BE_N_HI_CAUSE (t : Nat) : Fld := ⟨R.BE_N_HI t, 16, 4⟩
abbrev F.BE_N_HI_SRC (t : Nat) : Fld := ⟨R.BE_N_HI t, 20, 2⟩
abbrev F.BE_N_HI_DETAIL (t : Nat) : Fld := ⟨R.BE_N_HI t, 22, 4⟩
abbrev F.BE_N_HI_OVF_CNT (t : Nat) : Fld := ⟨R.BE_N_HI t, 26, 3⟩
abbrev F.BE_N_HI_OVF (t : Nat) : Fld := ⟨R.BE_N_HI t, 29, 1⟩
abbrev F.BE_N_HI_VALID (t : Nat) : Fld := ⟨R.BE_N_HI t, 31, 1⟩
abbrev R.BE_N_POP (t : Nat) : Nat := 0xB0208 + 0x20 * t
abbrev F.BE_N_POP_POP (t : Nat) : Fld := ⟨R.BE_N_POP t, 0, 1⟩
abbrev R.BE_S_LO (t : Nat) : Nat := 0xB020C + 0x20 * t
abbrev F.BE_S_LO_ADDR (t : Nat) : Fld := ⟨R.BE_S_LO t, 0, 32⟩
abbrev R.BE_S_HI (t : Nat) : Nat := 0xB0210 + 0x20 * t
abbrev F.BE_S_HI_ADDR_HI (t : Nat) : Fld := ⟨R.BE_S_HI t, 0, 8⟩
abbrev F.BE_S_HI_ATTR (t : Nat) : Fld := ⟨R.BE_S_HI t, 8, 8⟩
abbrev F.BE_S_HI_CAUSE (t : Nat) : Fld := ⟨R.BE_S_HI t, 16, 4⟩
abbrev F.BE_S_HI_SRC (t : Nat) : Fld := ⟨R.BE_S_HI t, 20, 2⟩
abbrev F.BE_S_HI_DETAIL (t : Nat) : Fld := ⟨R.BE_S_HI t, 22, 4⟩
abbrev F.BE_S_HI_OVF_CNT (t : Nat) : Fld := ⟨R.BE_S_HI t, 26, 3⟩
abbrev F.BE_S_HI_OVF (t : Nat) : Fld := ⟨R.BE_S_HI t, 29, 1⟩
abbrev F.BE_S_HI_VALID (t : Nat) : Fld := ⟨R.BE_S_HI t, 31, 1⟩
abbrev R.BE_S_POP (t : Nat) : Nat := 0xB0214 + 0x20 * t
abbrev F.BE_S_POP_POP (t : Nat) : Fld := ⟨R.BE_S_POP t, 0, 1⟩
abbrev R.BRG_LD_CAUSE (t : Nat) : Nat := 0xB0218 + 0x20 * t
abbrev F.BRG_LD_CAUSE_CAUSE (t : Nat) : Fld := ⟨R.BRG_LD_CAUSE t, 0, 4⟩
abbrev F.BRG_LD_CAUSE_DETAIL (t : Nat) : Fld := ⟨R.BRG_LD_CAUSE t, 4, 4⟩

/-! ### PEER (R414) -/

abbrev R.PEER_CTRL : Nat := 0xC0000
abbrev F.PEER_CTRL_EN : Fld := ⟨R.PEER_CTRL, 0, 1⟩
abbrev F.PEER_CTRL_IN_EN : Fld := ⟨R.PEER_CTRL, 1, 1⟩
abbrev F.PEER_CTRL_LOCK : Fld := ⟨R.PEER_CTRL, 31, 1⟩
abbrev R.PEER_CFG : Nat := 0xC0004
abbrev F.PEER_CFG_RETRY_MAX : Fld := ⟨R.PEER_CFG, 0, 8⟩
abbrev R.PEER_IN_ATTR : Nat := 0xC0008
abbrev F.PEER_IN_ATTR_ATTR : Fld := ⟨R.PEER_IN_ATTR, 0, 7⟩
abbrev R.PEER_STATUS : Nat := 0xC000C
abbrev F.PEER_STATUS_LINK : Fld := ⟨R.PEER_STATUS, 0, 2⟩
abbrev F.PEER_STATUS_VER : Fld := ⟨R.PEER_STATUS, 2, 2⟩
abbrev F.PEER_STATUS_LANE_0 : Fld := ⟨R.PEER_STATUS, 4, 1⟩
abbrev F.PEER_STATUS_LANE_1 : Fld := ⟨R.PEER_STATUS, 5, 1⟩
abbrev F.PEER_STATUS_OUT : Fld := ⟨R.PEER_STATUS, 6, 4⟩
abbrev F.PEER_STATUS_IN_BUSY : Fld := ⟨R.PEER_STATUS, 10, 1⟩
abbrev R.PEER_RTT : Nat := 0xC0010
abbrev F.PEER_RTT_RTT : Fld := ⟨R.PEER_RTT, 0, 16⟩
abbrev R.PEER_INT_STAT : Nat := 0xC0014
abbrev F.PEER_INT_STAT_EVT : Fld := ⟨R.PEER_INT_STAT, 0, 4⟩
abbrev R.PEER_INT_EN : Nat := 0xC0018
abbrev F.PEER_INT_EN_EVT : Fld := ⟨R.PEER_INT_EN, 0, 4⟩
abbrev R.PEER_CNT_CRC : Nat := 0xC0020
abbrev F.PEER_CNT_CRC_CNT : Fld := ⟨R.PEER_CNT_CRC, 0, 32⟩
abbrev R.PEER_CNT_RETX : Nat := 0xC0024
abbrev F.PEER_CNT_RETX_CNT : Fld := ⟨R.PEER_CNT_RETX, 0, 32⟩
abbrev R.PEER_CNT_RETRY : Nat := 0xC0028
abbrev F.PEER_CNT_RETRY_CNT : Fld := ⟨R.PEER_CNT_RETRY, 0, 32⟩
abbrev R.PEER_CNT_ERR : Nat := 0xC002C
abbrev F.PEER_CNT_ERR_CNT : Fld := ⟨R.PEER_CNT_ERR, 0, 32⟩
abbrev R.PEER_CLR : Nat := 0xC0030
abbrev F.PEER_CLR_CLR : Fld := ⟨R.PEER_CLR, 0, 1⟩
abbrev R.PEER_MAP (n : Nat) : Nat := 0xC0100 + 0x4 * n
abbrev F.PEER_MAP_EN (n : Nat) : Fld := ⟨R.PEER_MAP n, 0, 1⟩
abbrev F.PEER_MAP_BASE (n : Nat) : Fld := ⟨R.PEER_MAP n, 16, 16⟩

/-! ### CAN (R442, R443) -/

abbrev R.CAN_CTRL (c : Nat) : Nat := 0x100000 + 0x10000 * c
abbrev F.CAN_CTRL_MODE (c : Nat) : Fld := ⟨R.CAN_CTRL c, 0, 2⟩
abbrev F.CAN_CTRL_FD_EN (c : Nat) : Fld := ⟨R.CAN_CTRL c, 2, 1⟩
abbrev F.CAN_CTRL_AUTO_RECOV (c : Nat) : Fld := ⟨R.CAN_CTRL c, 3, 1⟩
abbrev F.CAN_CTRL_RECOVER (c : Nat) : Fld := ⟨R.CAN_CTRL c, 4, 1⟩
abbrev F.CAN_CTRL_LOCK (c : Nat) : Fld := ⟨R.CAN_CTRL c, 31, 1⟩
abbrev R.CAN_NBT (c : Nat) : Nat := 0x100004 + 0x10000 * c
abbrev F.CAN_NBT_BRP (c : Nat) : Fld := ⟨R.CAN_NBT c, 0, 5⟩
abbrev F.CAN_NBT_TSEG1 (c : Nat) : Fld := ⟨R.CAN_NBT c, 5, 8⟩
abbrev F.CAN_NBT_TSEG2 (c : Nat) : Fld := ⟨R.CAN_NBT c, 13, 7⟩
abbrev F.CAN_NBT_SJW (c : Nat) : Fld := ⟨R.CAN_NBT c, 20, 7⟩
abbrev R.CAN_DBT (c : Nat) : Nat := 0x100008 + 0x10000 * c
abbrev F.CAN_DBT_BRP (c : Nat) : Fld := ⟨R.CAN_DBT c, 0, 5⟩
abbrev F.CAN_DBT_TSEG1 (c : Nat) : Fld := ⟨R.CAN_DBT c, 5, 5⟩
abbrev F.CAN_DBT_TSEG2 (c : Nat) : Fld := ⟨R.CAN_DBT c, 10, 4⟩
abbrev F.CAN_DBT_SJW (c : Nat) : Fld := ⟨R.CAN_DBT c, 14, 4⟩
abbrev F.CAN_DBT_TDC_EN (c : Nat) : Fld := ⟨R.CAN_DBT c, 18, 1⟩
abbrev F.CAN_DBT_TDCO (c : Nat) : Fld := ⟨R.CAN_DBT c, 19, 7⟩
abbrev R.CAN_CFG (c : Nat) : Nat := 0x10000C + 0x10000 * c
abbrev F.CAN_CFG_RETRY (c : Nat) : Fld := ⟨R.CAN_CFG c, 0, 4⟩
abbrev F.CAN_CFG_OWNER (c : Nat) : Fld := ⟨R.CAN_CFG c, 4, 4⟩
abbrev F.CAN_CFG_COLLIDE_MAX (c : Nat) : Fld := ⟨R.CAN_CFG c, 8, 8⟩
abbrev F.CAN_CFG_IRQ_TL (c : Nat) : Fld := ⟨R.CAN_CFG c, 16, 3⟩
abbrev F.CAN_CFG_TTL_MS (c : Nat) : Fld := ⟨R.CAN_CFG c, 20, 12⟩
abbrev R.CAN_XCVR (c : Nat) : Nat := 0x100010 + 0x10000 * c
abbrev F.CAN_XCVR_STATE (c : Nat) : Fld := ⟨R.CAN_XCVR c, 0, 2⟩
abbrev F.CAN_XCVR_WAKE_EN (c : Nat) : Fld := ⟨R.CAN_XCVR c, 2, 1⟩
abbrev R.CAN_STATUS (c : Nat) : Nat := 0x100014 + 0x10000 * c
abbrev F.CAN_STATUS_EFF_MODE (c : Nat) : Fld := ⟨R.CAN_STATUS c, 0, 2⟩
abbrev F.CAN_STATUS_ESTATE (c : Nat) : Fld := ⟨R.CAN_STATUS c, 2, 2⟩
abbrev F.CAN_STATUS_HELD (c : Nat) : Fld := ⟨R.CAN_STATUS c, 4, 1⟩
abbrev F.CAN_STATUS_TXD_TO (c : Nat) : Fld := ⟨R.CAN_STATUS c, 5, 1⟩
abbrev F.CAN_STATUS_QUEUED (c : Nat) : Fld := ⟨R.CAN_STATUS c, 8, 5⟩
abbrev R.CAN_ERRCNT (c : Nat) : Nat := 0x100018 + 0x10000 * c
abbrev F.CAN_ERRCNT_TEC (c : Nat) : Fld := ⟨R.CAN_ERRCNT c, 0, 9⟩
abbrev F.CAN_ERRCNT_REC (c : Nat) : Fld := ⟨R.CAN_ERRCNT c, 16, 8⟩
abbrev R.CAN_TS (c : Nat) : Nat := 0x10001C + 0x10000 * c
abbrev F.CAN_TS_TS (c : Nat) : Fld := ⟨R.CAN_TS c, 0, 32⟩
abbrev R.CAN_TS_CYC (c : Nat) : Nat := 0x100020 + 0x10000 * c
abbrev F.CAN_TS_CYC_TS (c : Nat) : Fld := ⟨R.CAN_TS_CYC c, 0, 32⟩
abbrev R.CAN_INT_STAT (c : Nat) : Nat := 0x100030 + 0x10000 * c
abbrev F.CAN_INT_STAT_EVT (c : Nat) : Fld := ⟨R.CAN_INT_STAT c, 0, 10⟩
abbrev R.CAN_INT_EN (c : Nat) : Nat := 0x100034 + 0x10000 * c
abbrev F.CAN_INT_EN_EVT (c : Nat) : Fld := ⟨R.CAN_INT_EN c, 0, 10⟩
abbrev R.CAN_CNT_RX (c : Nat) : Nat := 0x100040 + 0x10000 * c
abbrev F.CAN_CNT_RX_CNT (c : Nat) : Fld := ⟨R.CAN_CNT_RX c, 0, 32⟩
abbrev R.CAN_CNT_TX (c : Nat) : Nat := 0x100044 + 0x10000 * c
abbrev F.CAN_CNT_TX_CNT (c : Nat) : Fld := ⟨R.CAN_CNT_TX c, 0, 32⟩
abbrev R.CAN_CNT_ERR (c : Nat) : Nat := 0x100048 + 0x10000 * c
abbrev F.CAN_CNT_ERR_ERR (c : Nat) : Fld := ⟨R.CAN_CNT_ERR c, 0, 16⟩
abbrev F.CAN_CNT_ERR_ARB (c : Nat) : Fld := ⟨R.CAN_CNT_ERR c, 16, 16⟩
abbrev R.CAN_CNT_DROP (c : Nat) : Nat := 0x10004C + 0x10000 * c
abbrev F.CAN_CNT_DROP_NOMATCH (c : Nat) : Fld := ⟨R.CAN_CNT_DROP c, 0, 16⟩
abbrev F.CAN_CNT_DROP_OVF (c : Nat) : Fld := ⟨R.CAN_CNT_DROP c, 16, 16⟩
abbrev R.CAN_CNT_ABN (c : Nat) : Nat := 0x100050 + 0x10000 * c
abbrev F.CAN_CNT_ABN_ABANDON (c : Nat) : Fld := ⟨R.CAN_CNT_ABN c, 0, 16⟩
abbrev F.CAN_CNT_ABN_COLLIDE (c : Nat) : Fld := ⟨R.CAN_CNT_ABN c, 16, 16⟩
abbrev R.CAN_CNT_CLR (c : Nat) : Nat := 0x100054 + 0x10000 * c
abbrev F.CAN_CNT_CLR_CLR (c : Nat) : Fld := ⟨R.CAN_CNT_CLR c, 0, 1⟩
abbrev R.CAN_TX_DATA (c : Nat) (p : Nat) (w : Nat) : Nat := 0x100100 + 0x10000 * c + 0x100 * p + 0x4 * w
abbrev F.CAN_TX_DATA_DATA (c : Nat) (p : Nat) (w : Nat) : Fld := ⟨R.CAN_TX_DATA c p w, 0, 32⟩
abbrev R.CAN_TX_CMD (c : Nat) (p : Nat) : Nat := 0x100140 + 0x10000 * c + 0x100 * p
abbrev F.CAN_TX_CMD_ROUTE (c : Nat) (p : Nat) : Fld := ⟨R.CAN_TX_CMD c p, 0, 12⟩
abbrev F.CAN_TX_CMD_LEN (c : Nat) (p : Nat) : Fld := ⟨R.CAN_TX_CMD c p, 12, 7⟩
abbrev F.CAN_TX_CMD_GO (c : Nat) (p : Nat) : Fld := ⟨R.CAN_TX_CMD c p, 19, 1⟩
abbrev R.CAN_TX_STAT (c : Nat) (p : Nat) : Nat := 0x100144 + 0x10000 * c + 0x100 * p
abbrev F.CAN_TX_STAT_FREE (c : Nat) (p : Nat) : Fld := ⟨R.CAN_TX_STAT c p, 0, 5⟩
abbrev F.CAN_TX_STAT_TAG (c : Nat) (p : Nat) : Fld := ⟨R.CAN_TX_STAT c p, 8, 8⟩
abbrev F.CAN_TX_STAT_RESULT (c : Nat) (p : Nat) : Fld := ⟨R.CAN_TX_STAT c p, 16, 3⟩
abbrev R.CAN_TX_CANCEL (c : Nat) (p : Nat) : Nat := 0x100148 + 0x10000 * c + 0x100 * p
abbrev F.CAN_TX_CANCEL_TAG (c : Nat) (p : Nat) : Fld := ⟨R.CAN_TX_CANCEL c p, 0, 8⟩
abbrev F.CAN_TX_CANCEL_GO (c : Nat) (p : Nat) : Fld := ⟨R.CAN_TX_CANCEL c p, 8, 1⟩
abbrev R.CAN_TX_DONE (c : Nat) (p : Nat) : Nat := 0x10014C + 0x10000 * c + 0x100 * p
abbrev F.CAN_TX_DONE_TAG (c : Nat) (p : Nat) : Fld := ⟨R.CAN_TX_DONE c p, 0, 8⟩
abbrev F.CAN_TX_DONE_OUTCOME (c : Nat) (p : Nat) : Fld := ⟨R.CAN_TX_DONE c p, 8, 3⟩
abbrev F.CAN_TX_DONE_OVF (c : Nat) (p : Nat) : Fld := ⟨R.CAN_TX_DONE c p, 30, 1⟩
abbrev F.CAN_TX_DONE_VALID (c : Nat) (p : Nat) : Fld := ⟨R.CAN_TX_DONE c p, 31, 1⟩
abbrev R.CAN_RX_HDR (c : Nat) (p : Nat) : Nat := 0x100150 + 0x10000 * c + 0x100 * p
abbrev F.CAN_RX_HDR_ID (c : Nat) (p : Nat) : Fld := ⟨R.CAN_RX_HDR c p, 0, 29⟩
abbrev F.CAN_RX_HDR_IDE (c : Nat) (p : Nat) : Fld := ⟨R.CAN_RX_HDR c p, 29, 1⟩
abbrev F.CAN_RX_HDR_FDF (c : Nat) (p : Nat) : Fld := ⟨R.CAN_RX_HDR c p, 30, 1⟩
abbrev F.CAN_RX_HDR_VALID (c : Nat) (p : Nat) : Fld := ⟨R.CAN_RX_HDR c p, 31, 1⟩
abbrev R.CAN_RX_INFO (c : Nat) (p : Nat) : Nat := 0x100154 + 0x10000 * c + 0x100 * p
abbrev F.CAN_RX_INFO_LEN (c : Nat) (p : Nat) : Fld := ⟨R.CAN_RX_INFO c p, 0, 7⟩
abbrev F.CAN_RX_INFO_BRS (c : Nat) (p : Nat) : Fld := ⟨R.CAN_RX_INFO c p, 7, 1⟩
abbrev F.CAN_RX_INFO_ESI (c : Nat) (p : Nat) : Fld := ⟨R.CAN_RX_INFO c p, 8, 1⟩
abbrev F.CAN_RX_INFO_RTR (c : Nat) (p : Nat) : Fld := ⟨R.CAN_RX_INFO c p, 9, 1⟩
abbrev F.CAN_RX_INFO_ENTRY (c : Nat) (p : Nat) : Fld := ⟨R.CAN_RX_INFO c p, 10, 12⟩
abbrev F.CAN_RX_INFO_COUNT (c : Nat) (p : Nat) : Fld := ⟨R.CAN_RX_INFO c p, 24, 6⟩
abbrev F.CAN_RX_INFO_OVF (c : Nat) (p : Nat) : Fld := ⟨R.CAN_RX_INFO c p, 30, 1⟩
abbrev R.CAN_RX_TS (c : Nat) (p : Nat) : Nat := 0x100158 + 0x10000 * c + 0x100 * p
abbrev F.CAN_RX_TS_TS (c : Nat) (p : Nat) : Fld := ⟨R.CAN_RX_TS c p, 0, 32⟩
abbrev R.CAN_RX_POP (c : Nat) (p : Nat) : Nat := 0x10015C + 0x10000 * c + 0x100 * p
abbrev F.CAN_RX_POP_POP (c : Nat) (p : Nat) : Fld := ⟨R.CAN_RX_POP c p, 0, 1⟩
abbrev R.CAN_RX_DATA (c : Nat) (p : Nat) (w : Nat) : Nat := 0x100160 + 0x10000 * c + 0x100 * p + 0x4 * w
abbrev F.CAN_RX_DATA_DATA (c : Nat) (p : Nat) (w : Nat) : Fld := ⟨R.CAN_RX_DATA c p w, 0, 32⟩
abbrev R.CAN_PG_IE (c : Nat) (p : Nat) : Nat := 0x1001A0 + 0x10000 * c + 0x100 * p
abbrev F.CAN_PG_IE_RX (c : Nat) (p : Nat) : Fld := ⟨R.CAN_PG_IE c p, 0, 1⟩
abbrev F.CAN_PG_IE_DONE (c : Nat) (p : Nat) : Fld := ⟨R.CAN_PG_IE c p, 1, 1⟩

/-! ### NSM (R444, R426) -/

abbrev R.NSM_CTRL : Nat := 0x160000
abbrev F.NSM_CTRL_EN : Fld := ⟨R.NSM_CTRL, 0, 1⟩
abbrev F.NSM_CTRL_TARGET : Fld := ⟨R.NSM_CTRL, 1, 1⟩
abbrev F.NSM_CTRL_CHANNELS : Fld := ⟨R.NSM_CTRL, 8, 6⟩
abbrev F.NSM_CTRL_LOCK : Fld := ⟨R.NSM_CTRL, 31, 1⟩
abbrev R.NSM_TIME : Nat := 0x160004
abbrev F.NSM_TIME_IDLE_S : Fld := ⟨R.NSM_TIME, 0, 16⟩
abbrev F.NSM_TIME_WAIT_MS : Fld := ⟨R.NSM_TIME, 16, 16⟩
abbrev R.NSM_NM : Nat := 0x160008
abbrev F.NSM_NM_BASE : Fld := ⟨R.NSM_NM, 0, 11⟩
abbrev F.NSM_NM_SELF : Fld := ⟨R.NSM_NM, 11, 6⟩
abbrev F.NSM_NM_PERIOD : Fld := ⟨R.NSM_NM, 17, 8⟩
abbrev R.NSM_CAP : Nat := 0x16000C
abbrev F.NSM_CAP_CAP_S : Fld := ⟨R.NSM_CAP, 0, 16⟩
abbrev R.NSM_REG : Nat := 0x160010
abbrev F.NSM_REG_REG_S3 : Fld := ⟨R.NSM_REG, 0, 1⟩
abbrev F.NSM_REG_XWAKE_REG : Fld := ⟨R.NSM_REG, 1, 1⟩
abbrev F.NSM_REG_LEVEL : Fld := ⟨R.NSM_REG, 2, 1⟩
abbrev R.NSM_STATUS : Nat := 0x160014
abbrev F.NSM_STATUS_STATE : Fld := ⟨R.NSM_STATUS, 0, 3⟩
abbrev F.NSM_STATUS_OWN : Fld := ⟨R.NSM_STATUS, 3, 1⟩
abbrev F.NSM_STATUS_IDLE_LEFT : Fld := ⟨R.NSM_STATUS, 16, 16⟩
abbrev R.NSM_XWAKE : Nat := 0x160018
abbrev F.NSM_XWAKE_CH : Fld := ⟨R.NSM_XWAKE, 0, 6⟩
abbrev R.NSM_INT_STAT : Nat := 0x160020
abbrev F.NSM_INT_STAT_EVT : Fld := ⟨R.NSM_INT_STAT, 0, 5⟩
abbrev R.NSM_INT_EN : Nat := 0x160024
abbrev F.NSM_INT_EN_EVT : Fld := ⟨R.NSM_INT_EN, 0, 5⟩
abbrev R.NSM_EDST (d : Nat) : Nat := 0x160100 + 0x4 * d
abbrev F.NSM_EDST_ADDR (d : Nat) : Fld := ⟨R.NSM_EDST d, 0, 5⟩
abbrev F.NSM_EDST_PORT (d : Nat) : Fld := ⟨R.NSM_EDST d, 5, 1⟩
abbrev F.NSM_EDST_EN (d : Nat) : Fld := ⟨R.NSM_EDST d, 6, 1⟩
abbrev F.NSM_EDST_UDP (d : Nat) : Fld := ⟨R.NSM_EDST d, 16, 16⟩
abbrev R.NSM_NODE (j : Nat) : Nat := 0x160200 + 0x4 * j
abbrev F.NSM_NODE_SEEN (j : Nat) : Fld := ⟨R.NSM_NODE j, 0, 1⟩
abbrev F.NSM_NODE_AWAKE (j : Nat) : Fld := ⟨R.NSM_NODE j, 1, 1⟩
abbrev F.NSM_NODE_CAPPED (j : Nat) : Fld := ⟨R.NSM_NODE j, 2, 1⟩
abbrev F.NSM_NODE_CH (j : Nat) : Fld := ⟨R.NSM_NODE j, 4, 3⟩
abbrev F.NSM_NODE_SOLE_S (j : Nat) : Fld := ⟨R.NSM_NODE j, 16, 16⟩
abbrev R.NSM_VOTE (k : Nat) : Nat := 0x161000 + 0x100 * k
abbrev F.NSM_VOTE_AWAKE (k : Nat) : Fld := ⟨R.NSM_VOTE k, 0, 1⟩
abbrev R.NSM_RT_0 (e : Nat) : Nat := 0x168000 + 0x8 * e
abbrev F.NSM_RT_0_ID (e : Nat) : Fld := ⟨R.NSM_RT_0 e, 0, 29⟩
abbrev F.NSM_RT_0_IDE (e : Nat) : Fld := ⟨R.NSM_RT_0 e, 29, 1⟩
abbrev F.NSM_RT_0_FDF (e : Nat) : Fld := ⟨R.NSM_RT_0 e, 30, 1⟩
abbrev F.NSM_RT_0_BRS (e : Nat) : Fld := ⟨R.NSM_RT_0 e, 31, 1⟩
abbrev R.NSM_RT_1 (e : Nat) : Nat := 0x168004 + 0x8 * e
abbrev F.NSM_RT_1_KIND (e : Nat) : Fld := ⟨R.NSM_RT_1 e, 0, 2⟩
abbrev F.NSM_RT_1_CH (e : Nat) : Fld := ⟨R.NSM_RT_1 e, 2, 3⟩
abbrev F.NSM_RT_1_MBITS (e : Nat) : Fld := ⟨R.NSM_RT_1 e, 5, 5⟩
abbrev F.NSM_RT_1_DEST (e : Nat) : Fld := ⟨R.NSM_RT_1 e, 10, 4⟩
abbrev F.NSM_RT_1_GW (e : Nat) : Fld := ⟨R.NSM_RT_1 e, 14, 3⟩
abbrev F.NSM_RT_1_ED (e : Nat) : Fld := ⟨R.NSM_RT_1 e, 17, 4⟩
abbrev F.NSM_RT_1_OWNER (e : Nat) : Fld := ⟨R.NSM_RT_1 e, 21, 4⟩

/-! ### PWR (R464) -/

abbrev R.PWR_PL : Nat := 0x10000
abbrev F.PWR_PL_TARGET : Fld := ⟨R.PWR_PL, 0, 2⟩
abbrev F.PWR_PL_CUR : Fld := ⟨R.PWR_PL, 4, 2⟩
abbrev F.PWR_PL_BUSY : Fld := ⟨R.PWR_PL, 8, 1⟩
abbrev R.PWR_SLEEP : Nat := 0x10004
abbrev F.PWR_SLEEP_STATE : Fld := ⟨R.PWR_SLEEP, 0, 3⟩
abbrev F.PWR_SLEEP_GO : Fld := ⟨R.PWR_SLEEP, 3, 1⟩
abbrev R.PWR_STATUS : Nat := 0x10008
abbrev F.PWR_STATUS_PSTATE : Fld := ⟨R.PWR_STATUS, 0, 2⟩
abbrev F.PWR_STATUS_LAST : Fld := ⟨R.PWR_STATUS, 2, 3⟩
abbrev F.PWR_STATUS_HCLK : Fld := ⟨R.PWR_STATUS, 5, 1⟩
abbrev F.PWR_STATUS_XTAL_STOP : Fld := ⟨R.PWR_STATUS, 6, 1⟩
abbrev F.PWR_STATUS_CAL_SPREAD : Fld := ⟨R.PWR_STATUS, 7, 1⟩
abbrev F.PWR_STATUS_ELAPSED_VALID : Fld := ⟨R.PWR_STATUS, 8, 1⟩
abbrev R.PWR_ELAPSED_S : Nat := 0x1000C
abbrev F.PWR_ELAPSED_S_S : Fld := ⟨R.PWR_ELAPSED_S, 0, 32⟩
abbrev R.PWR_ELAPSED_MS : Nat := 0x10010
abbrev F.PWR_ELAPSED_MS_MS : Fld := ⟨R.PWR_ELAPSED_MS, 0, 10⟩
abbrev R.PWR_CAL_ENTRY : Nat := 0x10014
abbrev F.PWR_CAL_ENTRY_F : Fld := ⟨R.PWR_CAL_ENTRY, 0, 32⟩
abbrev R.PWR_CAL_EXIT : Nat := 0x10018
abbrev F.PWR_CAL_EXIT_F : Fld := ⟨R.PWR_CAL_EXIT, 0, 32⟩
abbrev R.PWR_OPSEC : Nat := 0x1001C
abbrev F.PWR_OPSEC_SEC : Fld := ⟨R.PWR_OPSEC, 0, 32⟩
abbrev R.PWR_INT_STAT : Nat := 0x10020
abbrev F.PWR_INT_STAT_EVT : Fld := ⟨R.PWR_INT_STAT, 0, 7⟩
abbrev F.PWR_INT_STAT_WAKE : Fld := ⟨R.PWR_INT_STAT, 7, 1⟩
abbrev R.PWR_INT_EN : Nat := 0x10024
abbrev F.PWR_INT_EN_EN : Fld := ⟨R.PWR_INT_EN, 0, 8⟩
abbrev R.PWR_CG : Nat := 0x10040
abbrev F.PWR_CG_CG : Fld := ⟨R.PWR_CG, 0, 29⟩
abbrev R.PWR_RST : Nat := 0x10044
abbrev F.PWR_RST_RST : Fld := ⟨R.PWR_RST, 0, 29⟩
abbrev R.PWR_PSW : Nat := 0x10048
abbrev F.PWR_PSW_PSW : Fld := ⟨R.PWR_PSW, 0, 29⟩

/-! ### TWP (R465) -/

abbrev R.TWP_CTRL : Nat := 0x1A0000
abbrev F.TWP_CTRL_FAST : Fld := ⟨R.TWP_CTRL, 0, 1⟩
abbrev F.TWP_CTRL_LOCK : Fld := ⟨R.TWP_CTRL, 31, 1⟩
abbrev R.TWP_ADDR : Nat := 0x1A0004
abbrev F.TWP_ADDR_ADDR : Fld := ⟨R.TWP_ADDR, 0, 7⟩
abbrev R.TWP_STATUS : Nat := 0x1A0008
abbrev F.TWP_STATUS_BUSY : Fld := ⟨R.TWP_STATUS, 0, 1⟩
abbrev F.TWP_STATUS_RX_READY : Fld := ⟨R.TWP_STATUS, 1, 1⟩
abbrev F.TWP_STATUS_TX_READY : Fld := ⟨R.TWP_STATUS, 2, 1⟩
abbrev F.TWP_STATUS_MATCH : Fld := ⟨R.TWP_STATUS, 3, 1⟩
abbrev R.TWP_CNT_RX : Nat := 0x1A0010
abbrev F.TWP_CNT_RX_CNT : Fld := ⟨R.TWP_CNT_RX, 0, 32⟩
abbrev R.TWP_CNT_TX : Nat := 0x1A0014
abbrev F.TWP_CNT_TX_CNT : Fld := ⟨R.TWP_CNT_TX, 0, 32⟩
abbrev R.TWP_CNT_ERR : Nat := 0x1A0018
abbrev F.TWP_CNT_ERR_CNT : Fld := ⟨R.TWP_CNT_ERR, 0, 32⟩
abbrev R.TWP_CNT_NACK : Nat := 0x1A001C
abbrev F.TWP_CNT_NACK_CNT : Fld := ⟨R.TWP_CNT_NACK, 0, 32⟩

/-! ### REC (R483, R484) -/

abbrev R.REC_CTRL : Nat := 0x170000
abbrev F.REC_CTRL_LOCK : Fld := ⟨R.REC_CTRL, 31, 1⟩
abbrev R.REC_CFG : Nat := 0x170004
abbrev F.REC_CFG_REPEAT_MS : Fld := ⟨R.REC_CFG, 0, 16⟩
abbrev F.REC_CFG_MARK_MIN : Fld := ⟨R.REC_CFG, 16, 8⟩
abbrev R.REC_STATUS : Nat := 0x170008
abbrev F.REC_STATUS_OPEN : Fld := ⟨R.REC_STATUS, 0, 1⟩
abbrev F.REC_STATUS_MRAM_FAIL : Fld := ⟨R.REC_STATUS, 1, 1⟩
abbrev F.REC_STATUS_FALLBACK : Fld := ⟨R.REC_STATUS, 2, 1⟩
abbrev F.REC_STATUS_RUN : Fld := ⟨R.REC_STATUS, 3, 1⟩
abbrev F.REC_STATUS_FB_COUNT : Fld := ⟨R.REC_STATUS, 8, 5⟩
abbrev F.REC_STATUS_LEVEL : Fld := ⟨R.REC_STATUS, 16, 7⟩
abbrev R.REC_NEWEST : Nat := 0x17000C
abbrev F.REC_NEWEST_SEQ : Fld := ⟨R.REC_NEWEST, 0, 32⟩
abbrev R.REC_OLDEST : Nat := 0x170010
abbrev F.REC_OLDEST_SEQ : Fld := ⟨R.REC_OLDEST, 0, 32⟩
abbrev R.REC_HELD : Nat := 0x170014
abbrev F.REC_HELD_HELD : Fld := ⟨R.REC_HELD, 0, 17⟩
abbrev R.REC_PCYC : Nat := 0x170018
abbrev F.REC_PCYC_PCYC : Fld := ⟨R.REC_PCYC, 0, 24⟩
abbrev R.REC_OPBASE : Nat := 0x17001C
abbrev F.REC_OPBASE_BASE : Fld := ⟨R.REC_OPBASE, 0, 32⟩
abbrev R.REC_RUN_CNT : Nat := 0x170020
abbrev F.REC_RUN_CNT_CNT : Fld := ⟨R.REC_RUN_CNT, 0, 16⟩
abbrev R.REC_LOST : Nat := 0x170024
abbrev F.REC_LOST_CNT : Fld := ⟨R.REC_LOST, 0, 32⟩
abbrev R.REC_BADSLOT : Nat := 0x170028
abbrev F.REC_BADSLOT_SCAN : Fld := ⟨R.REC_BADSLOT, 0, 16⟩
abbrev F.REC_BADSLOT_REWRITE : Fld := ⟨R.REC_BADSLOT, 16, 16⟩
abbrev R.REC_INT_STAT : Nat := 0x170050
abbrev F.REC_INT_STAT_EVT : Fld := ⟨R.REC_INT_STAT, 0, 4⟩
abbrev R.REC_INT_EN : Nat := 0x170054
abbrev F.REC_INT_EN_EVT : Fld := ⟨R.REC_INT_EN, 0, 4⟩
abbrev R.REC_SUB_P1 (t : Nat) : Nat := 0x170100 + 0x40 * t
abbrev F.REC_SUB_P1_P1 (t : Nat) : Fld := ⟨R.REC_SUB_P1 t, 0, 32⟩
abbrev R.REC_SUB_P2 (t : Nat) : Nat := 0x170104 + 0x40 * t
abbrev F.REC_SUB_P2_P2 (t : Nat) : Fld := ⟨R.REC_SUB_P2 t, 0, 32⟩
abbrev R.REC_SUB_P3 (t : Nat) : Nat := 0x170108 + 0x40 * t
abbrev F.REC_SUB_P3_P3 (t : Nat) : Fld := ⟨R.REC_SUB_P3 t, 0, 32⟩
abbrev R.REC_SUB_CMD (t : Nat) : Nat := 0x17010C + 0x40 * t
abbrev F.REC_SUB_CMD_CODE (t : Nat) : Fld := ⟨R.REC_SUB_CMD t, 0, 16⟩
abbrev F.REC_SUB_CMD_GO (t : Nat) : Fld := ⟨R.REC_SUB_CMD t, 16, 1⟩
abbrev F.REC_SUB_CMD_RESULT (t : Nat) : Fld := ⟨R.REC_SUB_CMD t, 17, 2⟩
abbrev R.REC_RD_SEQ (t : Nat) : Nat := 0x170110 + 0x40 * t
abbrev F.REC_RD_SEQ_SEQ (t : Nat) : Fld := ⟨R.REC_RD_SEQ t, 0, 32⟩
abbrev R.REC_RD_STAT (t : Nat) : Nat := 0x170114 + 0x40 * t
abbrev F.REC_RD_STAT_BUSY (t : Nat) : Fld := ⟨R.REC_RD_STAT t, 0, 1⟩
abbrev F.REC_RD_STAT_VALID (t : Nat) : Fld := ⟨R.REC_RD_STAT t, 1, 1⟩
abbrev F.REC_RD_STAT_OVERWRITTEN (t : Nat) : Fld := ⟨R.REC_RD_STAT t, 2, 1⟩
abbrev F.REC_RD_STAT_BAD (t : Nat) : Fld := ⟨R.REC_RD_STAT t, 3, 1⟩
abbrev F.REC_RD_STAT_GONE (t : Nat) : Fld := ⟨R.REC_RD_STAT t, 4, 1⟩
abbrev F.REC_RD_STAT_FALLBACK (t : Nat) : Fld := ⟨R.REC_RD_STAT t, 5, 1⟩
abbrev R.REC_RD_DATA (t : Nat) (w : Nat) : Nat := 0x170120 + 0x40 * t + 0x4 * w
abbrev F.REC_RD_DATA_DATA (t : Nat) (w : Nat) : Fld := ⟨R.REC_RD_DATA t w, 0, 32⟩

/-! ### UPD (R504) -/

abbrev R.UPD_CTRL : Nat := 0x180000
abbrev F.UPD_CTRL_LOCK : Fld := ⟨R.UPD_CTRL, 31, 1⟩
abbrev R.UPD_CFG : Nat := 0x180004
abbrev F.UPD_CFG_CONFIRM_S : Fld := ⟨R.UPD_CFG, 0, 16⟩
abbrev F.UPD_CFG_SAT_RETRY : Fld := ⟨R.UPD_CFG, 16, 4⟩
abbrev R.UPD_STATUS : Nat := 0x180008
abbrev F.UPD_STATUS_STATE : Fld := ⟨R.UPD_STATUS, 0, 3⟩
abbrev F.UPD_STATUS_CLASS : Fld := ⟨R.UPD_STATUS, 4, 3⟩
abbrev F.UPD_STATUS_BANK : Fld := ⟨R.UPD_STATUS, 8, 1⟩
abbrev F.UPD_STATUS_TRIAL : Fld := ⟨R.UPD_STATUS, 9, 1⟩
abbrev F.UPD_STATUS_HOLD : Fld := ⟨R.UPD_STATUS, 10, 1⟩
abbrev F.UPD_STATUS_CUST_VALID : Fld := ⟨R.UPD_STATUS, 11, 1⟩
abbrev R.UPD_BLOCKS : Nat := 0x18000C
abbrev F.UPD_BLOCKS_BLOCKS : Fld := ⟨R.UPD_BLOCKS, 0, 32⟩
abbrev R.UPD_DONE : Nat := 0x180010
abbrev F.UPD_DONE_DONE : Fld := ⟨R.UPD_DONE, 0, 32⟩
abbrev R.UPD_BANK_SEQ : Nat := 0x180014
abbrev F.UPD_BANK_SEQ_SEQ : Fld := ⟨R.UPD_BANK_SEQ, 0, 32⟩
abbrev R.UPD_SVN_LO : Nat := 0x180018
abbrev F.UPD_SVN_LO_SVN_0 : Fld := ⟨R.UPD_SVN_LO, 0, 7⟩
abbrev F.UPD_SVN_LO_SVN_1 : Fld := ⟨R.UPD_SVN_LO, 8, 7⟩
abbrev F.UPD_SVN_LO_SVN_2 : Fld := ⟨R.UPD_SVN_LO, 16, 7⟩
abbrev F.UPD_SVN_LO_SVN_3 : Fld := ⟨R.UPD_SVN_LO, 24, 7⟩
abbrev R.UPD_SVN_HI : Nat := 0x18001C
abbrev F.UPD_SVN_HI_SVN_4 : Fld := ⟨R.UPD_SVN_HI, 0, 7⟩
abbrev F.UPD_SVN_HI_SVN_5 : Fld := ⟨R.UPD_SVN_HI, 8, 7⟩
abbrev F.UPD_SVN_HI_SVN_6 : Fld := ⟨R.UPD_SVN_HI, 16, 7⟩
abbrev R.UPD_PARTNER : Nat := 0x180020
abbrev F.UPD_PARTNER_PEER_MIN : Fld := ⟨R.UPD_PARTNER, 0, 4⟩
abbrev F.UPD_PARTNER_PEER_MAX : Fld := ⟨R.UPD_PARTNER, 4, 4⟩
abbrev F.UPD_PARTNER_STATE : Fld := ⟨R.UPD_PARTNER, 8, 3⟩
abbrev F.UPD_PARTNER_TRIAL : Fld := ⟨R.UPD_PARTNER, 11, 1⟩
abbrev F.UPD_PARTNER_VALID : Fld := ⟨R.UPD_PARTNER, 12, 1⟩
abbrev R.UPD_PARTNER_UCODE : Nat := 0x180024
abbrev F.UPD_PARTNER_UCODE_VER : Fld := ⟨R.UPD_PARTNER_UCODE, 0, 32⟩
abbrev R.UPD_INT_STAT : Nat := 0x180030
abbrev F.UPD_INT_STAT_EVT : Fld := ⟨R.UPD_INT_STAT, 0, 14⟩
abbrev R.UPD_INT_EN : Nat := 0x180034
abbrev F.UPD_INT_EN_EVT : Fld := ⟨R.UPD_INT_EN, 0, 14⟩
abbrev R.UPD_VER (c : Nat) : Nat := 0x180040 + 0x4 * c
abbrev F.UPD_VER_VER (c : Nat) : Fld := ⟨R.UPD_VER c, 0, 32⟩

end Sys2Proof.Machine
end

