-- ==== Sys2Proof/Machine/RegTable.lean ====
section
/-!
DEFINITION. Machine/RegTable.lean: the register tables of the spec, row by row: name, place, repetition (stride and count
for every index), and for every field its name, lowest bit, width, access code (R9), value after reset (R8) and, where the
table says that other values are ignored, the values it takes. Reserved bits have no row: they read 0 and ignore writes (R7).
Reset values "From OTP" and "Latched at release" are the log's choice (notes/assumptions/4.md).
-/

namespace Sys2Proof.Machine

/-- SYS: R387. -/
def regsSys : List RegRow := [
  ⟨"SYS_ID", 0x0, [], [⟨"DEVICE", 16, 16, .ro, 0x7100, none⟩, ⟨"STEPPING", 8, 8, .ro, 0xB1, none⟩,
    ⟨"PACKAGE", 0, 8, .ro, 1, none⟩]⟩,
  ⟨"SYS_RST_CAUSE", 0x4, [], [⟨"CAUSE", 0, 3, .ro, 0, none⟩]⟩,
  ⟨"SYS_WAKE", 0x8, [], [⟨"KIND", 0, 2, .ro, 0, none⟩, ⟨"SRC", 8, 6, .ro, 0, none⟩]⟩,
  ⟨"SYS_WAKE_MASK_LO", 0xC, [], [⟨"MASK", 0, 32, .ro, 0, none⟩]⟩,
  ⟨"SYS_WAKE_MASK_HI", 0x10, [], [⟨"MASK", 0, 16, .ro, 0, none⟩, ⟨"TWP", 16, 1, .ro, 0, none⟩]⟩,
  ⟨"SYS_WAKE_ACK", 0x14, [], [⟨"ACK", 0, 1, .wo, 0, none⟩]⟩,
  ⟨"SYS_BOOT", 0x18, [], [⟨"BANK", 0, 1, .sec, 0, none⟩, ⟨"FALLBACK", 1, 1, .sec, 0, none⟩]⟩,
  ⟨"SYS_RESET", 0x1C, [], [⟨"KEY", 0, 8, .sec, 0, none⟩]⟩]

/-- ANG: R82 to R90. -/
def regsAng : List RegRow := [
  ⟨"ANG_CTRL", 0x20000, [], [⟨"LINE_EN", 0, 1, .rwl, 1, none⟩, ⟨"PEER_EN", 1, 1, .rwl, 1, none⟩,
    ⟨"PTP_EN", 2, 1, .rwl, 0, none⟩, ⟨"JUMP_MODE", 3, 1, .rwl, 0, none⟩, ⟨"ROT", 4, 1, .rwl, 0, none⟩,
    ⟨"PTP_PORT", 5, 1, .rwl, 0, none⟩, ⟨"FORCE_HOLD", 6, 1, .rw, 0, none⟩, ⟨"LOCK", 31, 1, .rwl, 0, none⟩]⟩,
  ⟨"ANG_NOM_FREQ", 0x20004, [], [⟨"NOM", 0, 32, .rwl, 0x2FAF080, some (45000000, 66000000)⟩]⟩,
  ⟨"ANG_VNOM", 0x20008, [], [⟨"VNOM", 0, 16, .rwl, 0x5A82, none⟩]⟩,
  ⟨"ANG_THR", 0x2000C, [], [⟨"SAG", 0, 8, .rwl, 0x50, none⟩, ⟨"SWELL", 8, 8, .rwl, 0x73, none⟩,
    ⟨"COAST", 16, 8, .rwl, 0x1E, none⟩, ⟨"LOSS", 24, 8, .rwl, 0xA, none⟩]⟩,
  ⟨"ANG_JUMP", 0x20010, [], [⟨"THR", 0, 16, .rwl, 0x71C, none⟩, ⟨"SLEW_MAX", 16, 16, .rwl, 0x51F, none⟩]⟩,
  ⟨"ANG_HOLD", 0x20014, [], [⟨"WARN", 0, 16, .rwl, 0x32, none⟩, ⟨"MAX", 16, 16, .rwl, 0x1F4, none⟩]⟩,
  ⟨"ANG_QUAL", 0x20018, [], [⟨"REQUAL", 0, 16, .rwl, 0x32, none⟩, ⟨"COAST_MAX", 16, 16, .rwl, 0x19, none⟩]⟩,
  ⟨"ANG_PHASE_TRIM", 0x2001C, [], [⟨"TRIM", 0, 16, .rwl, 0, none⟩]⟩,
  ⟨"ANG_STATUS", 0x20020, [], [⟨"SRC", 0, 3, .ro, 0, none⟩, ⟨"TRK", 3, 3, .ro, 0, none⟩,
    ⟨"REF_PHASE", 6, 2, .ro, 0, none⟩, ⟨"BAND", 8, 3, .ro, 3, none⟩, ⟨"QUALIFIED", 11, 1, .ro, 0, none⟩,
    ⟨"SLEWING", 12, 1, .ro, 0, none⟩, ⟨"HELD", 13, 1, .ro, 0, none⟩, ⟨"LINE_Q", 14, 1, .ro, 0, none⟩,
    ⟨"PEER_Q", 15, 1, .ro, 0, none⟩, ⟨"PTP_Q", 16, 1, .ro, 0, none⟩, ⟨"ROT_ERR", 17, 1, .ro, 0, none⟩,
    ⟨"HOLD_WARN", 18, 1, .ro, 0, none⟩, ⟨"WIN_ERR", 19, 1, .ro, 0, none⟩]⟩,
  ⟨"ANG_NOW_LO", 0x20024, [], [⟨"TS_LO", 0, 32, .ro, 0, none⟩]⟩,
  ⟨"ANG_NOW_HI", 0x20028, [], [⟨"TS_HI", 0, 16, .ro, 0, none⟩]⟩,
  ⟨"ANG_FREQ_MEAS", 0x2002C, [], [⟨"FREQ", 0, 32, .ro, 0, none⟩]⟩,
  ⟨"ANG_INC", 0x20030, [], [⟨"INC", 0, 32, .ro, 0x8637BD0, none⟩]⟩,
  ⟨"ANG_AMPL", 0x20034, [], [⟨"AMPL_A", 0, 8, .ro, 0, none⟩, ⟨"AMPL_B", 8, 8, .ro, 0, none⟩,
    ⟨"AMPL_C", 16, 8, .ro, 0, none⟩]⟩,
  ⟨"ANG_HOLD_CYC", 0x20038, [], [⟨"CYC", 0, 32, .ro, 0, none⟩]⟩,
  ⟨"ANG_PHASE_ERR", 0x2003C, [], [⟨"ERR", 0, 16, .ro, 0, none⟩]⟩,
  ⟨"ANG_WIN_EST", 0x20040, [], [⟨"START", 0, 16, .rwl, 0x1000, none⟩, ⟨"LEN", 16, 16, .rwl, 0x999A, none⟩]⟩,
  ⟨"ANG_WIN_SLACK", 0x20044, [], [⟨"SLACK", 0, 16, .rwl, 0x199A, none⟩, ⟨"PUB_MIN", 16, 16, .rwl, 0x1000, none⟩]⟩,
  ⟨"ANG_WIN_ACQ", 0x20048, [], [⟨"ACQ_END", 0, 16, .rwl, 0xC000, none⟩]⟩,
  ⟨"ANG_SCHED", 0x2004C, [], [⟨"LATE_RUN", 0, 8, .ro, 0, none⟩, ⟨"SHORT_LEFT", 8, 3, .ro, 0, none⟩,
    ⟨"DECIM", 11, 1, .ro, 0, none⟩, ⟨"SKIP_NEXT", 12, 1, .ro, 0, none⟩, ⟨"DELAY", 16, 16, .ro, 0, none⟩]⟩,
  ⟨"ANG_INT_STAT", 0x20050, [], [⟨"SRC_CHG", 0, 1, .w1c, 0, none⟩, ⟨"JUMP", 1, 1, .w1c, 0, none⟩,
    ⟨"SAG", 2, 1, .w1c, 0, none⟩, ⟨"SWELL", 3, 1, .w1c, 0, none⟩, ⟨"HOLD", 4, 1, .w1c, 0, none⟩,
    ⟨"UNQUAL", 5, 1, .w1c, 0, none⟩, ⟨"REF_PHASE", 6, 1, .w1c, 0, none⟩, ⟨"FREQ_RANGE", 7, 1, .w1c, 0, none⟩,
    ⟨"ROT_ERR", 8, 1, .w1c, 0, none⟩, ⟨"RELABEL", 9, 1, .w1c, 0, none⟩, ⟨"SCHED_LATE", 10, 1, .w1c, 0, none⟩,
    ⟨"SCHED_LOST", 11, 1, .w1c, 0, none⟩, ⟨"SCHED_REGAINED", 12, 1, .w1c, 0, none⟩,
    ⟨"SLOT_LATE", 13, 1, .w1c, 0, none⟩, ⟨"CYCLE", 14, 1, .w1c, 0, none⟩, ⟨"WIN_ERR", 15, 1, .w1c, 0, none⟩]⟩,
  ⟨"ANG_INT_EN", 0x20054, [], [⟨"SRC_CHG", 0, 1, .rw, 0, none⟩, ⟨"JUMP", 1, 1, .rw, 0, none⟩,
    ⟨"SAG", 2, 1, .rw, 0, none⟩, ⟨"SWELL", 3, 1, .rw, 0, none⟩, ⟨"HOLD", 4, 1, .rw, 0, none⟩,
    ⟨"UNQUAL", 5, 1, .rw, 0, none⟩, ⟨"REF_PHASE", 6, 1, .rw, 0, none⟩, ⟨"FREQ_RANGE", 7, 1, .rw, 0, none⟩,
    ⟨"ROT_ERR", 8, 1, .rw, 0, none⟩, ⟨"RELABEL", 9, 1, .rw, 0, none⟩, ⟨"SCHED_LATE", 10, 1, .rw, 0, none⟩,
    ⟨"SCHED_LOST", 11, 1, .rw, 0, none⟩, ⟨"SCHED_REGAINED", 12, 1, .rw, 0, none⟩, ⟨"SLOT_LATE", 13, 1, .rw, 0, none⟩,
    ⟨"CYCLE", 14, 1, .rw, 0, none⟩, ⟨"WIN_ERR", 15, 1, .rw, 0, none⟩]⟩,
  ⟨"ANG_PTP_EPOCH_S_LO", 0x20060, [], [⟨"S_LO", 0, 32, .rw, 0, none⟩]⟩,
  ⟨"ANG_PTP_EPOCH_S_HI", 0x20064, [], [⟨"S_HI", 0, 16, .rw, 0, none⟩]⟩,
  ⟨"ANG_PTP_EPOCH_NS", 0x20068, [], [⟨"NS", 0, 30, .rw, 0, none⟩]⟩,
  ⟨"ANG_PTP_FREQ", 0x2006C, [], [⟨"FREQ", 0, 32, .rw, 0x2FAF080, none⟩]⟩,
  ⟨"ANG_PTP_COMMIT", 0x20070, [], [⟨"COMMIT", 0, 1, .wo, 0, none⟩]⟩,
  ⟨"ANG_XPTP_S_LO", 0x20078, [], [⟨"S_LO", 0, 32, .ro, 0, none⟩]⟩,
  ⟨"ANG_XPTP_S_HI", 0x2007C, [], [⟨"S_HI", 0, 16, .ro, 0, none⟩]⟩,
  ⟨"ANG_XPTP_NS", 0x20080, [], [⟨"NS", 0, 30, .ro, 0, none⟩, ⟨"VALID", 31, 1, .ro, 0, none⟩]⟩,
  ⟨"SLOT_CTRL_n", 0x20100, [(0x10, 32)], [⟨"EN", 0, 1, .rw, 0, none⟩, ⟨"MODE", 1, 2, .rw, 0, none⟩,
    ⟨"ACTION", 3, 2, .rw, 0, none⟩, ⟨"TARGET", 5, 6, .rw, 0, none⟩, ⟨"TRESTLE", 11, 3, .rw, 0, none⟩,
    ⟨"PERIOD", 20, 12, .rw, 1, none⟩]⟩,
  ⟨"SLOT_CYC_n", 0x20104, [(0x10, 32)], [⟨"CYC", 0, 32, .rw, 0, none⟩]⟩,
  ⟨"SLOT_CNT_n", 0x20108, [(0x10, 32)], [⟨"CNT", 0, 16, .rw, 0, none⟩]⟩,
  ⟨"SLOT_STAT_n", 0x2010C, [(0x10, 32)], [⟨"FIRED", 0, 1, .w1c, 0, none⟩, ⟨"LATE", 1, 1, .w1c, 0, none⟩,
    ⟨"FIRE_CNT", 16, 16, .ro, 0, none⟩]⟩]

/-- KZC: R130 to R133. -/
def regsKzc : List RegRow := [
  ⟨"KZC_CTRL", 0x40000, [], [⟨"CH_EN", 0, 16, .rwl, 0, none⟩, ⟨"ALERT_EN", 16, 1, .rwl, 1, none⟩,
    ⟨"FORCE_V1", 17, 1, .rwl, 0, none⟩, ⟨"LOCK", 31, 1, .rwl, 0, none⟩]⟩,
  ⟨"KZC_SLOT", 0x40004, [], [⟨"LEN", 0, 16, .rwl, 0x240, some (574, 1023)⟩]⟩,
  ⟨"KZC_SVC", 0x40008, [], [⟨"TMO", 0, 16, .rwl, 0x100, none⟩, ⟨"RETRY", 16, 2, .rwl, 2, none⟩]⟩,
  ⟨"KZC_SVC_GUARD", 0x4000C, [], [⟨"GUARD", 0, 16, .rwl, 0x800, none⟩]⟩,
  ⟨"KZC_RETX", 0x40010, [], [⟨"MAX", 0, 4, .rwl, 4, none⟩, ⟨"GUARD", 16, 16, .rwl, 0x800, none⟩]⟩,
  ⟨"KZC_HEAL", 0x40014, [], [⟨"HEAL", 0, 16, .rwl, 0x32, none⟩, ⟨"FAIL", 16, 16, .rwl, 0xA, none⟩]⟩,
  ⟨"KZC_ALERT_CFG", 0x40018, [], [⟨"DEDUP", 0, 16, .rwl, 0xC8, none⟩]⟩,
  ⟨"KZC_REENUM", 0x4001C, [], [⟨"CYCLES", 0, 16, .rwl, 0x32, none⟩]⟩,
  ⟨"KZC_INT_STAT", 0x40020, [], [⟨"BREAK", 0, 1, .w1c, 0, none⟩, ⟨"HEAL", 1, 1, .w1c, 0, none⟩,
    ⟨"ENUM", 2, 1, .w1c, 0, none⟩, ⟨"MISMATCH", 3, 1, .w1c, 0, none⟩, ⟨"TRUNC", 4, 1, .w1c, 0, none⟩,
    ⟨"LATE", 5, 1, .w1c, 0, none⟩, ⟨"DUP", 6, 1, .w1c, 0, none⟩, ⟨"SVC_TMO", 7, 1, .w1c, 0, none⟩,
    ⟨"FAILED", 8, 1, .w1c, 0, none⟩, ⟨"SAT_RESET", 9, 1, .w1c, 0, none⟩, ⟨"ALERT", 10, 1, .w1c, 0, none⟩,
    ⟨"ALERT_OVF", 11, 1, .w1c, 0, none⟩, ⟨"V1", 12, 1, .w1c, 0, none⟩, ⟨"RESTORED", 13, 1, .w1c, 0, none⟩]⟩,
  ⟨"KZC_INT_EN", 0x40024, [], [⟨"BREAK", 0, 1, .rw, 0, none⟩, ⟨"HEAL", 1, 1, .rw, 0, none⟩,
    ⟨"ENUM", 2, 1, .rw, 0, none⟩, ⟨"MISMATCH", 3, 1, .rw, 0, none⟩, ⟨"TRUNC", 4, 1, .rw, 0, none⟩,
    ⟨"LATE", 5, 1, .rw, 0, none⟩, ⟨"DUP", 6, 1, .rw, 0, none⟩, ⟨"SVC_TMO", 7, 1, .rw, 0, none⟩,
    ⟨"FAILED", 8, 1, .rw, 0, none⟩, ⟨"SAT_RESET", 9, 1, .rw, 0, none⟩, ⟨"ALERT", 10, 1, .rw, 0, none⟩,
    ⟨"ALERT_OVF", 11, 1, .rw, 0, none⟩, ⟨"V1", 12, 1, .rw, 0, none⟩, ⟨"RESTORED", 13, 1, .rw, 0, none⟩]⟩,
  ⟨"KZC_ALERT_FIFO", 0x40030, [], [⟨"POS", 0, 6, .ro, 0, none⟩, ⟨"SEV", 6, 2, .ro, 0, none⟩,
    ⟨"CODE", 8, 8, .ro, 0, none⟩, ⟨"ARG", 16, 8, .ro, 0, none⟩, ⟨"CHAIN", 24, 4, .ro, 0, none⟩,
    ⟨"PORT", 28, 1, .ro, 0, none⟩, ⟨"OVF", 30, 1, .ro, 0, none⟩, ⟨"VALID", 31, 1, .ro, 0, none⟩]⟩,
  ⟨"KZC_ALERT_TS_LO", 0x40034, [], [⟨"TS_LO", 0, 32, .ro, 0, none⟩]⟩,
  ⟨"KZC_ALERT_TS_HI", 0x40038, [], [⟨"TS_HI", 0, 16, .ro, 0, none⟩]⟩,
  ⟨"CH_CTRL_n", 0x40100, [(0x40, 16)], [⟨"COUNT", 0, 6, .rwl, 0, some (0, 48)⟩, ⟨"ENUM", 8, 1, .wo, 0, none⟩,
    ⟨"FILL", 9, 1, .wo, 0, none⟩, ⟨"CLR_CNT", 10, 1, .wo, 0, none⟩]⟩,
  ⟨"CH_STAT_n", 0x40104, [(0x40, 16)], [⟨"STATE", 0, 4, .ro, 0, none⟩, ⟨"VER", 4, 2, .ro, 0, none⟩,
    ⟨"LAST_A", 6, 6, .ro, 0x3F, none⟩, ⟨"FIRST_B", 12, 6, .ro, 0x3F, none⟩, ⟨"LOCK_A", 18, 1, .ro, 0, none⟩,
    ⟨"LOCK_B", 19, 1, .ro, 0, none⟩, ⟨"SYNC_RET", 20, 1, .ro, 0, none⟩]⟩,
  ⟨"CH_COV_LO_n", 0x40108, [(0x40, 16)], [⟨"COV", 0, 32, .ro, 0, none⟩]⟩,
  ⟨"CH_COV_HI_n", 0x4010C, [(0x40, 16)], [⟨"COV", 0, 16, .ro, 0, none⟩]⟩,
  ⟨"CH_EXCL_LO_n", 0x40110, [(0x40, 16)], [⟨"EXCL", 0, 32, .ro, 0, none⟩]⟩,
  ⟨"CH_EXCL_HI_n", 0x40114, [(0x40, 16)], [⟨"EXCL", 0, 16, .ro, 0, none⟩]⟩,
  ⟨"CH_ERR_CRC_n", 0x40118, [(0x40, 16)], [⟨"CRC_A", 0, 16, .ro, 0, none⟩, ⟨"CRC_B", 16, 16, .ro, 0, none⟩]⟩,
  ⟨"CH_ERR_TRUNC_n", 0x4011C, [(0x40, 16)], [⟨"TRUNC", 0, 16, .ro, 0, none⟩, ⟨"ORPHAN", 16, 16, .ro, 0, none⟩]⟩,
  ⟨"CH_ERR_LATE_n", 0x40120, [(0x40, 16)], [⟨"LATE", 0, 16, .ro, 0, none⟩, ⟨"RETX", 16, 16, .ro, 0, none⟩]⟩,
  ⟨"CH_ERR_MISC_n", 0x40124, [(0x40, 16)], [⟨"DUP", 0, 16, .ro, 0, none⟩, ⟨"SVC_TMO", 16, 16, .ro, 0, none⟩]⟩,
  ⟨"CH_RT_n", 0x40128, [(0x40, 16)], [⟨"RT", 0, 16, .ro, 0, none⟩]⟩,
  ⟨"CH_ALERT_n", 0x4012C, [(0x40, 16)], [⟨"DEDUP", 0, 16, .ro, 0, none⟩]⟩,
  ⟨"KZC_DLY_n_p", 0x41000, [(0x100, 16), (0x4, 48)], [⟨"DLY", 0, 16, .ro, 0, none⟩, ⟨"FROM_B", 16, 1, .ro, 0, none⟩,
    ⟨"VALID", 17, 1, .ro, 0, none⟩]⟩]

/-- ACQ: R151 to R153. -/
def regsAcq : List RegRow := [
  ⟨"ACQ_CTRL", 0x30000, [], [⟨"BAL_EN", 0, 1, .rw, 0, none⟩, ⟨"EXC_EN", 1, 1, .rwl, 0, none⟩,
    ⟨"LOCK", 31, 1, .rwl, 0, none⟩]⟩,
  ⟨"ACQ_SYNC", 0x30004, [], [⟨"CNT", 0, 12, .rwl, 0, none⟩]⟩,
  ⟨"ACQ_AGE", 0x30008, [], [⟨"MAX", 0, 4, .rwl, 4, some (1, 8)⟩]⟩,
  ⟨"ACQ_PHCFG", 0x3000C, [], [⟨"HOLD_PH", 0, 16, .rwl, 0x19, none⟩]⟩,
  ⟨"ACQ_EXC_CTRL", 0x30010, [], [⟨"FRAMES", 0, 16, .rwl, 0x32, none⟩, ⟨"REPEAT", 16, 16, .rwl, 0xFA, none⟩]⟩,
  ⟨"ACQ_EXC_THR", 0x30014, [], [⟨"THR", 0, 16, .rwl, 0x64, none⟩]⟩,
  ⟨"ACQ_EXC_ROUTE", 0x30018, [], [⟨"ROUTE", 0, 12, .rwl, 0, none⟩, ⟨"LEN", 16, 7, .rwl, 8, none⟩]⟩,
  ⟨"ACQ_EXC_PATCH", 0x3001C, [], [⟨"CNT_OFS", 0, 6, .rwl, 0, none⟩, ⟨"CNT_EN", 6, 1, .rwl, 0, none⟩,
    ⟨"MASK_OFS", 8, 6, .rwl, 0, none⟩, ⟨"MASK_EN", 14, 1, .rwl, 0, none⟩]⟩,
  ⟨"ACQ_STATUS", 0x30020, [], [⟨"DIST", 0, 1, .ro, 0, none⟩, ⟨"POOR", 1, 1, .ro, 0, none⟩,
    ⟨"EXC_OUT", 2, 1, .ro, 0, none⟩, ⟨"DERIVED", 3, 1, .ro, 0, none⟩]⟩,
  ⟨"ACQ_FRAME", 0x30024, [], [⟨"FRAME", 0, 32, .ro, 0, none⟩]⟩,
  ⟨"ACQ_COUNT", 0x30028, [], [⟨"FRESH", 0, 10, .ro, 0, none⟩, ⟨"STALE", 10, 10, .ro, 0, none⟩,
    ⟨"LOST", 20, 10, .ro, 0, none⟩]⟩,
  ⟨"ACQ_UNMEAS_LO", 0x30038, [], [⟨"UNMEAS", 0, 32, .ro, 0, none⟩]⟩,
  ⟨"ACQ_UNMEAS_HI", 0x3003C, [], [⟨"UNMEAS", 0, 16, .ro, 0, none⟩]⟩,
  ⟨"ACQ_STARVED_LO", 0x30040, [], [⟨"STARVED", 0, 32, .ro, 0, none⟩]⟩,
  ⟨"ACQ_STARVED_HI", 0x30044, [], [⟨"STARVED", 0, 16, .ro, 0, none⟩]⟩,
  ⟨"ACQ_EXC_TPL_k", 0x30080, [(0x4, 16)], [⟨"BYTES", 0, 32, .rwl, 0, none⟩]⟩,
  ⟨"ACQ_INT_STAT", 0x30030, [], [⟨"CLOSED", 0, 1, .w1c, 0, none⟩, ⟨"LOST", 1, 1, .w1c, 0, none⟩,
    ⟨"RESTORED", 2, 1, .w1c, 0, none⟩, ⟨"UNMEAS", 3, 1, .w1c, 0, none⟩, ⟨"MEASURED", 4, 1, .w1c, 0, none⟩,
    ⟨"EXC_REQ", 5, 1, .w1c, 0, none⟩, ⟨"EXC_REL", 6, 1, .w1c, 0, none⟩, ⟨"ORDER", 7, 1, .w1c, 0, none⟩,
    ⟨"DERIVED", 8, 1, .w1c, 0, none⟩]⟩,
  ⟨"ACQ_INT_EN", 0x30034, [], [⟨"CLOSED", 0, 1, .rw, 0, none⟩, ⟨"LOST", 1, 1, .rw, 0, none⟩,
    ⟨"RESTORED", 2, 1, .rw, 0, none⟩, ⟨"UNMEAS", 3, 1, .rw, 0, none⟩, ⟨"MEASURED", 4, 1, .rw, 0, none⟩,
    ⟨"EXC_REQ", 5, 1, .rw, 0, none⟩, ⟨"EXC_REL", 6, 1, .rw, 0, none⟩, ⟨"ORDER", 7, 1, .rw, 0, none⟩,
    ⟨"DERIVED", 8, 1, .rw, 0, none⟩]⟩,
  ⟨"SCAN_CTRL_n", 0x30100, [(0x40, 16)], [⟨"STEPS", 0, 2, .rwl, 0, none⟩, ⟨"STEP", 4, 3, .ro, 0, none⟩]⟩,
  ⟨"SCAN_STEP_n_s", 0x30104, [(0x40, 16), (0x4, 8)], [⟨"ORD_P", 0, 5, .rwl, 2, none⟩, ⟨"ORD_Q", 8, 5, .rwl, 6, none⟩]⟩,
  ⟨"CH_FRM_n", 0x30124, [(0x40, 16)], [⟨"FRESH", 0, 6, .ro, 0, none⟩, ⟨"STALE", 8, 6, .ro, 0, none⟩,
    ⟨"LOST", 16, 6, .ro, 0, none⟩]⟩,
  ⟨"CH_TAIL_n", 0x30128, [(0x40, 16)], [⟨"LAST_EOF", 0, 16, .ro, 0, none⟩, ⟨"AFTER", 16, 16, .ro, 0, none⟩]⟩,
  ⟨"CH_DLYSRC_LO_n", 0x3012C, [(0x40, 16)], [⟨"DERIVED", 0, 32, .ro, 0, none⟩]⟩,
  ⟨"CH_DLYSRC_HI_n", 0x30130, [(0x40, 16)], [⟨"DERIVED", 0, 16, .ro, 0, none⟩]⟩,
  ⟨"ACQ_POS_n_p", 0x31000, [(0x100, 16), (0x4, 48)], [⟨"NCELL", 0, 6, .rwl, 0, none⟩, ⟨"HEAD", 6, 1, .rwl, 0, none⟩,
    ⟨"STRING", 8, 6, .rwl, 0x3F, none⟩, ⟨"EN", 14, 1, .rwl, 0, none⟩, ⟨"STATE", 16, 2, .ro, 2, none⟩,
    ⟨"AGE", 18, 4, .ro, 0, none⟩, ⟨"PH_P", 22, 1, .ro, 0, none⟩, ⟨"PH_Q", 23, 1, .ro, 0, none⟩,
    ⟨"CAUSE", 24, 4, .ro, 0, none⟩]⟩]

/-- EST: R186 to R190. -/
def regsEst : List RegRow := [
  ⟨"EST_CTRL", 0x50000, [], [⟨"EN", 0, 1, .rw, 0, none⟩, ⟨"ALIGN_EN", 1, 1, .rwl, 1, none⟩,
    ⟨"CLR_CNT", 2, 1, .wo, 0, none⟩, ⟨"ALIGN_MAX", 8, 8, .rwl, 0x60, none⟩, ⟨"LOCK", 31, 1, .rwl, 0, none⟩]⟩,
  ⟨"EST_CFG", 0x50004, [], [⟨"RETRY", 0, 2, .rwl, 2, none⟩, ⟨"GATE", 4, 4, .rwl, 4, none⟩,
    ⟨"THOLD", 8, 4, .rwl, 0xA, none⟩, ⟨"MAXGAP", 12, 4, .rwl, 0xF, some (2, 15)⟩,
    ⟨"LANE_ERR_MAX", 16, 8, .rwl, 0x10, none⟩]⟩,
  ⟨"EST_ZCFG", 0x50008, [], [⟨"IMIN", 0, 16, .rwl, 0x14, none⟩]⟩,
  ⟨"EST_BANK_BASE", 0x5000C, [], [⟨"BASE", 0, 32, .rwl, 0x800000, none⟩]⟩,
  ⟨"EST_STR_CHEM_k", 0x50060, [(0x4, 6)], [⟨"SET_0", 0, 3, .rwl, 0, none⟩, ⟨"SET_1", 4, 3, .rwl, 0, none⟩,
    ⟨"SET_2", 8, 3, .rwl, 0, none⟩, ⟨"SET_3", 12, 3, .rwl, 0, none⟩, ⟨"SET_4", 16, 3, .rwl, 0, none⟩,
    ⟨"SET_5", 20, 3, .rwl, 0, none⟩, ⟨"SET_6", 24, 3, .rwl, 0, none⟩, ⟨"SET_7", 28, 3, .rwl, 0, none⟩]⟩,
  ⟨"EST_STATUS", 0x50010, [], [⟨"RUNNING", 0, 1, .ro, 0, none⟩, ⟨"BUSY", 1, 1, .ro, 0, none⟩,
    ⟨"DOWN", 2, 1, .ro, 0, none⟩, ⟨"UCODE_RELOAD", 3, 1, .ro, 0, none⟩, ⟨"PUB_BANK", 4, 1, .ro, 0, none⟩,
    ⟨"ALIGNING", 5, 1, .ro, 0, none⟩]⟩,
  ⟨"EST_LANE", 0x50014, [], [⟨"FENCED", 0, 8, .ro, 0, none⟩, ⟨"RESTORE", 8, 8, .wo, 0, none⟩,
    ⟨"ST_FAIL", 16, 8, .ro, 0, none⟩]⟩,
  ⟨"EST_FRAME", 0x50018, [], [⟨"FRAME", 0, 32, .ro, 0, none⟩]⟩,
  ⟨"EST_PUB_FRAME", 0x5001C, [], [⟨"FRAME", 0, 32, .ro, 0, none⟩]⟩,
  ⟨"EST_PUB_SEQ", 0x50020, [], [⟨"SEQ", 0, 32, .ro, 0, none⟩]⟩,
  ⟨"EST_CYC", 0x50024, [], [⟨"LANE_CYC", 0, 32, .ro, 0, none⟩]⟩,
  ⟨"EST_CNT_A", 0x50028, [], [⟨"UPDATED", 0, 16, .ro, 0, none⟩, ⟨"PREDICTED", 16, 16, .ro, 0, none⟩]⟩,
  ⟨"EST_CNT_B", 0x5002C, [], [⟨"HELD", 0, 16, .ro, 0, none⟩, ⟨"INVALID", 16, 16, .ro, 0, none⟩]⟩,
  ⟨"EST_CNT_C", 0x50030, [], [⟨"REINIT", 0, 16, .ro, 0, none⟩, ⟨"RECOMPUTED", 16, 16, .ro, 0, none⟩]⟩,
  ⟨"EST_ERR_A", 0x50034, [], [⟨"RESIDUE", 0, 16, .ro, 0, none⟩, ⟨"RECOMP_FAIL", 16, 16, .ro, 0, none⟩]⟩,
  ⟨"EST_ERR_B", 0x50038, [], [⟨"STATE_PAR", 0, 8, .ro, 0, none⟩, ⟨"PARAM_PAR", 8, 8, .ro, 0, none⟩,
    ⟨"FIFO_PAR", 16, 8, .ro, 0, none⟩, ⟨"UCODE_PAR", 24, 8, .ro, 0, none⟩]⟩,
  ⟨"EST_CHEM", 0x50050, [], [⟨"VALID", 0, 8, .ro, 0, none⟩, ⟨"BAD", 8, 8, .ro, 0, none⟩]⟩,
  ⟨"EST_ALIGN", 0x50054, [], [⟨"UNALIGNED", 0, 10, .ro, 0, none⟩, ⟨"REQ", 10, 1, .ro, 0, none⟩]⟩,
  ⟨"EST_UCODE", 0x50058, [], [⟨"VERSION", 0, 16, .ro, 0, none⟩]⟩,
  ⟨"EST_DIGEST_n", 0x50080, [(0x4, 16)], [⟨"DIGEST", 0, 32, .ro, 0, none⟩]⟩,
  ⟨"EST_ZONE_DIGEST", 0x500C0, [], [⟨"DIGEST", 0, 32, .ro, 0, none⟩]⟩,
  ⟨"EST_CELL_INIT", 0x50048, [], [⟨"CELL", 0, 15, .wo, 0, none⟩, ⟨"ALL", 15, 1, .wo, 0, none⟩,
    ⟨"AT_FRAME", 16, 1, .wo, 0, none⟩, ⟨"GO", 17, 1, .wo, 0, none⟩]⟩,
  ⟨"EST_INIT_FRAME", 0x5004C, [], [⟨"FRAME", 0, 32, .rw, 0, none⟩]⟩,
  ⟨"EST_INT_STAT", 0x50040, [], [⟨"PUBLISHED", 0, 1, .w1c, 0, none⟩, ⟨"RECOMPUTE", 1, 1, .w1c, 0, none⟩,
    ⟨"RECOMP_FAIL", 2, 1, .w1c, 0, none⟩, ⟨"LANE_FENCED", 3, 1, .w1c, 0, none⟩,
    ⟨"LANE_RESTORED", 4, 1, .w1c, 0, none⟩, ⟨"STATE_PAR", 5, 1, .w1c, 0, none⟩, ⟨"PARAM_PAR", 6, 1, .w1c, 0, none⟩,
    ⟨"PARAM_RELOADED", 7, 1, .w1c, 0, none⟩, ⟨"FIFO_PAR", 8, 1, .w1c, 0, none⟩, ⟨"UCODE_PAR", 9, 1, .w1c, 0, none⟩,
    ⟨"UCODE_RELOADED", 10, 1, .w1c, 0, none⟩, ⟨"REINIT", 11, 1, .w1c, 0, none⟩, ⟨"ALIGN_DONE", 12, 1, .w1c, 0, none⟩,
    ⟨"BENCH_DOWN", 13, 1, .w1c, 0, none⟩, ⟨"INIT_DONE", 14, 1, .w1c, 0, none⟩]⟩,
  ⟨"EST_INT_EN", 0x50044, [], [⟨"PUBLISHED", 0, 1, .rw, 0, none⟩, ⟨"RECOMPUTE", 1, 1, .rw, 0, none⟩,
    ⟨"RECOMP_FAIL", 2, 1, .rw, 0, none⟩, ⟨"LANE_FENCED", 3, 1, .rw, 0, none⟩, ⟨"LANE_RESTORED", 4, 1, .rw, 0, none⟩,
    ⟨"STATE_PAR", 5, 1, .rw, 0, none⟩, ⟨"PARAM_PAR", 6, 1, .rw, 0, none⟩, ⟨"PARAM_RELOADED", 7, 1, .rw, 0, none⟩,
    ⟨"FIFO_PAR", 8, 1, .rw, 0, none⟩, ⟨"UCODE_PAR", 9, 1, .rw, 0, none⟩, ⟨"UCODE_RELOADED", 10, 1, .rw, 0, none⟩,
    ⟨"REINIT", 11, 1, .rw, 0, none⟩, ⟨"ALIGN_DONE", 12, 1, .rw, 0, none⟩, ⟨"BENCH_DOWN", 13, 1, .rw, 0, none⟩,
    ⟨"INIT_DONE", 14, 1, .rw, 0, none⟩]⟩]

/-- PROT: R221 to R224. -/
def regsProt : List RegRow := [
  ⟨"PROT_CTRL", 0x60000, [], [⟨"DRIVE", 0, 2, .rwl, 0, none⟩, ⟨"LOCK", 31, 1, .rwl, 0, none⟩]⟩,
  ⟨"PROT_CFG", 0x60004, [], [⟨"ALERT_ACT", 0, 2, .rwl, 2, none⟩, ⟨"IDEAD", 8, 8, .rwl, 0xA, none⟩,
    ⟨"OPEN_IMAX", 16, 16, .rwl, 0x32, none⟩]⟩,
  ⟨"PROT_TIM_A", 0x60008, [], [⟨"NEG_MS", 0, 16, .rwl, 0x32, none⟩, ⟨"FB_MS", 16, 16, .rwl, 0x64, none⟩]⟩,
  ⟨"PROT_TIM_B", 0x6000C, [], [⟨"PRE_MIN_MS", 0, 16, .rwl, 0xC8, none⟩, ⟨"PRE_MAX_MS", 16, 16, .rwl, 0xBB8, none⟩]⟩,
  ⟨"PROT_TIM_C", 0x60010, [], [⟨"OVERLAP_MS", 0, 16, .rwl, 0x32, none⟩, ⟨"OPEN_GAP_MS", 16, 16, .rwl, 0x14, none⟩]⟩,
  ⟨"PROT_TIM_D", 0x60014, [], [⟨"OPEN_WAIT_MS", 0, 16, .rwl, 0x7D0, none⟩, ⟨"PRE_IEND", 16, 16, .rwl, 0x14, none⟩]⟩,
  ⟨"PROT_HOLD", 0x60018, [], [⟨"HOLD_MS", 0, 8, .rwl, 0xC8, some (1, 200)⟩, ⟨"KICK_MS", 8, 8, .rwl, 0x14, none⟩,
    ⟨"STEP_CNT", 16, 16, .rwl, 0x8000, none⟩]⟩,
  ⟨"PROT_CMD", 0x6001C, [], [⟨"ARM", 0, 1, .wo, 0, none⟩, ⟨"DISARM", 1, 1, .wo, 0, none⟩,
    ⟨"ZCLR", 2, 1, .wo, 0, none⟩, ⟨"RECONF", 3, 1, .wo, 0, none⟩]⟩,
  ⟨"PROT_RECONF_CRC", 0x60020, [], [⟨"CRC", 0, 32, .rw, 0, none⟩]⟩,
  ⟨"PROT_ARM_CRC", 0x60024, [], [⟨"CRC", 0, 32, .ro, 0, none⟩]⟩,
  ⟨"PROT_KICK", 0x60028, [], [⟨"KEY", 0, 8, .wo, 0, none⟩]⟩,
  ⟨"PROT_STATUS", 0x6002C, [], [⟨"ZSTATE", 0, 3, .ro, 0, none⟩, ⟨"OK_RUN", 3, 1, .ro, 0, none⟩,
    ⟨"SAFE_N", 4, 1, .ro, 0, none⟩, ⟨"HS", 5, 1, .ro, 0, none⟩, ⟨"KICK_LATE", 6, 1, .ro, 0, none⟩,
    ⟨"CLOSING", 8, 6, .ro, 0x3F, none⟩, ⟨"HOLD_LEFT", 16, 16, .ro, 0, none⟩]⟩,
  ⟨"PROT_ZCAUSE", 0x60030, [], [⟨"SOURCE", 0, 32, .ro, 0, none⟩]⟩,
  ⟨"PROT_TRIP_LO", 0x60034, [], [⟨"TRIP", 0, 32, .ro, 0, none⟩]⟩,
  ⟨"PROT_TRIP_HI", 0x60038, [], [⟨"TRIP", 0, 16, .ro, 0, none⟩]⟩,
  ⟨"PROT_CLOSED_LO", 0x6003C, [], [⟨"CLOSED", 0, 32, .ro, 0, none⟩]⟩,
  ⟨"PROT_CLOSED_HI", 0x60040, [], [⟨"CLOSED", 0, 16, .ro, 0, none⟩]⟩,
  ⟨"PROT_WARN_LO", 0x60044, [], [⟨"WARN", 0, 32, .ro, 0, none⟩]⟩,
  ⟨"PROT_WARN_HI", 0x60048, [], [⟨"WARN", 0, 16, .ro, 0, none⟩]⟩,
  ⟨"PROT_STR_A_n", 0x60100, [(0x10, 48)], [⟨"POS_CH", 0, 6, .rwl, 0x3F, none⟩, ⟨"PRE_CH", 6, 6, .rwl, 0x3F, none⟩,
    ⟨"NEG_CH", 12, 6, .rwl, 0x3F, none⟩, ⟨"LSET", 18, 3, .rwl, 0, none⟩, ⟨"AUTO_CLOSE", 21, 1, .rwl, 0, none⟩,
    ⟨"EN", 22, 1, .rwl, 0, none⟩]⟩,
  ⟨"PROT_STR_B_n", 0x60104, [(0x10, 48)], [⟨"POS_FB", 0, 6, .rwl, 0x3F, none⟩, ⟨"PRE_FB", 6, 6, .rwl, 0x3F, none⟩,
    ⟨"NEG_FB", 12, 6, .rwl, 0x3F, none⟩]⟩,
  ⟨"PROT_SEQ_n", 0x60108, [(0x10, 48)], [⟨"STATE", 0, 3, .ro, 0, none⟩, ⟨"QUEUED", 3, 1, .ro, 0, none⟩,
    ⟨"CAUSE", 8, 8, .ro, 0, none⟩, ⟨"STEP_MS", 16, 16, .ro, 0, none⟩]⟩,
  ⟨"PROT_STR_CMD_n", 0x6010C, [(0x10, 48)], [⟨"CLOSE", 0, 1, .wo, 0, none⟩, ⟨"OPEN", 1, 1, .wo, 0, none⟩,
    ⟨"CLR", 2, 1, .wo, 0, none⟩]⟩,
  ⟨"PROT_LIM_s_k", 0x60400, [(0x40, 8), (0x4, 16)], [⟨"THR", 0, 16, .rwl, 0, none⟩,
    ⟨"PERSIST", 16, 4, .rwl, 1, none⟩, ⟨"ACT", 20, 2, .rwl, 0, none⟩, ⟨"EN", 22, 1, .rwl, 0, none⟩,
    ⟨"HYST", 24, 8, .rwl, 0, none⟩]⟩,
  ⟨"PROT_INT_STAT", 0x60050, [], [⟨"EVT", 0, 16, .w1c, 0, none⟩]⟩,
  ⟨"PROT_INT_EN", 0x60054, [], [⟨"EVT", 0, 16, .rw, 0, none⟩]⟩]

/-- IOX: R225. -/
def regsIox : List RegRow := [
  ⟨"IOX_CTRL", 0x190000, [], [⟨"LOCK", 31, 1, .rwl, 0, none⟩]⟩,
  ⟨"IOX_SW_LO", 0x190004, [], [⟨"LEVEL", 0, 32, .ro, 0, none⟩]⟩,
  ⟨"IOX_SW_HI", 0x190008, [], [⟨"LEVEL", 0, 16, .ro, 0, none⟩]⟩,
  ⟨"IOX_SW_CHG_LO", 0x19000C, [], [⟨"CHG", 0, 32, .w1c, 0, none⟩]⟩,
  ⟨"IOX_SW_CHG_HI", 0x190010, [], [⟨"CHG", 0, 16, .w1c, 0, none⟩]⟩,
  ⟨"IOX_LSO_OUT", 0x190014, [], [⟨"ON", 0, 16, .rw, 0, none⟩]⟩,
  ⟨"IOX_LSO_SAFE", 0x190018, [], [⟨"SAFE", 0, 16, .rwl, 0, none⟩]⟩,
  ⟨"IOX_LSO_STAT", 0x19001C, [], [⟨"STATE", 0, 16, .ro, 0, none⟩, ⟨"FAULT", 16, 16, .w1c, 0, none⟩]⟩,
  ⟨"IOX_SW_CFG_i", 0x190100, [(0x4, 48)], [⟨"WET", 0, 2, .rwl, 1, none⟩, ⟨"INV", 2, 1, .rwl, 0, none⟩,
    ⟨"DEB", 3, 4, .rwl, 5, none⟩, ⟨"ROLE", 7, 2, .rwl, 0, none⟩, ⟨"ACT", 9, 2, .rwl, 0, none⟩,
    ⟨"STRING", 11, 6, .rwl, 0x3F, none⟩, ⟨"WAKE", 17, 1, .rwl, 0, none⟩]⟩,
  ⟨"IOX_AIN_CFG_k", 0x190200, [(0x8, 8)], [⟨"MODE", 0, 1, .rwl, 0, none⟩, ⟨"EN", 1, 1, .rwl, 0, none⟩,
    ⟨"ACT", 2, 2, .rwl, 0, none⟩, ⟨"DIR", 4, 1, .rwl, 0, none⟩, ⟨"PERSIST", 5, 4, .rwl, 1, none⟩,
    ⟨"STRING", 9, 6, .rwl, 0x3F, none⟩, ⟨"LIM", 16, 16, .rwl, 0, none⟩]⟩,
  ⟨"IOX_AIN_VAL_k", 0x190204, [(0x8, 8)], [⟨"VALUE", 0, 16, .ro, 0, none⟩, ⟨"WIRE", 16, 1, .ro, 0, none⟩,
    ⟨"OVR", 17, 1, .ro, 0, none⟩]⟩]

/-- LSW: R256 to R258. -/
def regsLsw : List RegRow := [
  ⟨"LSW_CTRL", 0x70000, [], [⟨"LOCK", 31, 1, .rwl, 0, none⟩]⟩,
  ⟨"LSW_CFG", 0x70004, [], [⟨"LAMP_VREF", 0, 10, .rwl, 0xF0, some (120, 320)⟩, ⟨"OLOFF_PER", 16, 8, .rwl, 0xA, none⟩]⟩,
  ⟨"LSW_BUDGET", 0x70008, [], [⟨"BUDGET", 0, 16, .rwl, 0x6E, none⟩, ⟨"AVG_MS", 16, 16, .rwl, 0x3E8, none⟩]⟩,
  ⟨"LSW_SUPPLY", 0x7000C, [], [⟨"VAUX", 0, 16, .ro, 0, none⟩, ⟨"OV", 16, 1, .ro, 0, none⟩, ⟨"UV", 17, 1, .ro, 0, none⟩]⟩,
  ⟨"LSW_PLOSS", 0x70010, [], [⟨"AVG", 0, 16, .ro, 0, none⟩, ⟨"PEAK", 16, 16, .ro, 0, none⟩]⟩,
  ⟨"LSW_ON", 0x70014, [], [⟨"ON", 0, 32, .ro, 0, none⟩]⟩,
  ⟨"LSW_FAULT", 0x70018, [], [⟨"FAULT", 0, 32, .ro, 0, none⟩]⟩,
  ⟨"LSW_LATCHED", 0x7001C, [], [⟨"LATCHED", 0, 32, .ro, 0, none⟩]⟩,
  ⟨"LSW_SHED", 0x70028, [], [⟨"SHED", 0, 32, .ro, 0, none⟩]⟩,
  ⟨"LSW_INT_STAT", 0x70020, [], [⟨"SHORT", 0, 1, .w1c, 0, none⟩, ⟨"OVERTEMP", 1, 1, .w1c, 0, none⟩,
    ⟨"LATCHED", 2, 1, .w1c, 0, none⟩, ⟨"OPEN_LOAD", 3, 1, .w1c, 0, none⟩, ⟨"CLEARED", 4, 1, .w1c, 0, none⟩,
    ⟨"SUPPLY_OV", 5, 1, .w1c, 0, none⟩, ⟨"SUPPLY_UV", 6, 1, .w1c, 0, none⟩, ⟨"BUDGET", 7, 1, .w1c, 0, none⟩]⟩,
  ⟨"LSW_INT_EN", 0x70024, [], [⟨"SHORT", 0, 1, .rw, 0, none⟩, ⟨"OVERTEMP", 1, 1, .rw, 0, none⟩,
    ⟨"LATCHED", 2, 1, .rw, 0, none⟩, ⟨"OPEN_LOAD", 3, 1, .rw, 0, none⟩, ⟨"CLEARED", 4, 1, .rw, 0, none⟩,
    ⟨"SUPPLY_OV", 5, 1, .rw, 0, none⟩, ⟨"SUPPLY_UV", 6, 1, .rw, 0, none⟩, ⟨"BUDGET", 7, 1, .rw, 0, none⟩]⟩,
  ⟨"CH_CFG_ch", 0x71000, [(0x100, 32)], [⟨"MODE", 0, 2, .rwl, 0, none⟩, ⟨"SLOPE", 2, 2, .rwl, 1, none⟩,
    ⟨"FREQ", 4, 3, .rwl, 3, none⟩, ⟨"COMP", 7, 1, .rwl, 0, none⟩, ⟨"FW_EN", 8, 1, .rwl, 0, none⟩,
    ⟨"RESP", 9, 1, .rwl, 0, none⟩, ⟨"SAFE", 10, 2, .rwl, 0, none⟩, ⟨"RESTART_MAX", 12, 4, .rwl, 3, none⟩,
    ⟨"SHED_PRIO", 16, 4, .rwl, 0, none⟩, ⟨"IRQ_TL", 20, 3, .rwl, 0, none⟩, ⟨"OLOFF_EN", 23, 1, .rwl, 0, none⟩,
    ⟨"INRUSH_MS", 24, 8, .rwl, 0, none⟩]⟩,
  ⟨"CH_DIAG_ch", 0x71004, [(0x100, 8)], [⟨"OL_TH", 0, 16, .rwl, 0x64, none⟩, ⟨"OL_MS", 16, 8, .rwl, 0xA, none⟩,
    ⟨"RETRY", 24, 8, .rwl, 0xA, none⟩]⟩,
  ⟨"CH_DIAG_ch", 0x71804, [(0x100, 24)], [⟨"OL_TH", 0, 16, .rwl, 0x14, none⟩, ⟨"OL_MS", 16, 8, .rwl, 0xA, none⟩,
    ⟨"RETRY", 24, 8, .rwl, 0xA, none⟩]⟩,
  ⟨"CH_PWM_ch", 0x71008, [(0x100, 32)], [⟨"DUTY", 0, 11, .rw, 0x400, none⟩, ⟨"PULL_MS", 16, 12, .rwl, 0, none⟩,
    ⟨"PHASE", 28, 4, .rwl, 0, none⟩]⟩,
  ⟨"CH_SLEW_ch", 0x7100C, [(0x100, 32)], [⟨"RATE", 0, 16, .rwl, 0xF0, none⟩]⟩,
  ⟨"CH_CMD_ch", 0x71010, [(0x100, 32)], [⟨"ON", 0, 1, .rw, 0, none⟩, ⟨"CLR", 1, 1, .wo, 0, none⟩]⟩,
  ⟨"CH_STAT_ch", 0x71014, [(0x100, 32)], [⟨"STATE", 0, 3, .ro, 0, none⟩, ⟨"OUT", 3, 1, .ro, 0, none⟩,
    ⟨"BOUND", 4, 1, .ro, 0, none⟩, ⟨"LIMIT", 5, 1, .ro, 0, none⟩, ⟨"LAMP_SAT", 6, 1, .ro, 0, none⟩,
    ⟨"FW", 7, 1, .ro, 0, none⟩, ⟨"RESTARTS", 8, 4, .ro, 0, none⟩]⟩,
  ⟨"CH_MEAS_ch", 0x71018, [(0x100, 32)], [⟨"I_AVG", 0, 16, .ro, 0, none⟩, ⟨"I_ON", 16, 16, .ro, 0, none⟩]⟩,
  ⟨"CH_TEMP_ch", 0x7101C, [(0x100, 32)], [⟨"TJ", 0, 12, .ro, 0, none⟩, ⟨"DT", 16, 12, .ro, 0, none⟩]⟩,
  ⟨"CH_FLT_ch", 0x71020, [(0x100, 32)], [⟨"SHORT", 0, 1, .w1c, 0, none⟩, ⟨"OT", 1, 1, .w1c, 0, none⟩,
    ⟨"DT", 2, 1, .w1c, 0, none⟩, ⟨"OL_ON", 3, 1, .w1c, 0, none⟩, ⟨"OL_OFF", 4, 1, .w1c, 0, none⟩,
    ⟨"SHORT_VAUX", 5, 1, .w1c, 0, none⟩, ⟨"SUPPLY", 6, 1, .w1c, 0, none⟩, ⟨"SHED", 7, 1, .w1c, 0, none⟩,
    ⟨"COUPLED", 8, 1, .w1c, 0, none⟩]⟩,
  ⟨"CH_FLT_EN_ch", 0x71024, [(0x100, 32)], [⟨"EN", 0, 9, .rw, 0, none⟩]⟩,
  ⟨"CH_CNT_ch", 0x71028, [(0x100, 32)], [⟨"SHORTS", 0, 16, .ro, 0, none⟩, ⟨"THERMAL", 16, 16, .ro, 0, none⟩]⟩]

/-- CPX: R286, R287. -/
def regsCpx : List RegRow := [
  ⟨"CPX_CTRL", 0x80000, [], [⟨"TL0_RESET", 0, 1, .rwl, 1, none⟩, ⟨"TL0_RST_MAX", 8, 8, .rwl, 3, none⟩,
    ⟨"LOCK", 31, 1, .rwl, 0, none⟩]⟩,
  ⟨"CPX_CFG", 0x80004, [], [⟨"CRIT_MASK", 0, 5, .rwl, 1, none⟩]⟩,
  ⟨"CPX_STATUS", 0x80008, [], [⟨"STATE_0", 0, 3, .ro, 0, none⟩, ⟨"STATE_1", 3, 3, .ro, 0, none⟩,
    ⟨"STATE_2", 6, 3, .ro, 0, none⟩, ⟨"STATE_3", 9, 3, .ro, 0, none⟩, ⟨"STATE_4", 12, 3, .ro, 0, none⟩,
    ⟨"DEV_FAULT", 15, 1, .ro, 0, none⟩]⟩,
  ⟨"CPX_FCYC", 0x8000C, [], [⟨"FCYC", 0, 32, .ro, 0, none⟩]⟩,
  ⟨"CPX_INT_STAT", 0x80010, [], [⟨"EVT", 0, 7, .w1c, 0, none⟩]⟩,
  ⟨"CPX_INT_EN", 0x80014, [], [⟨"EVT", 0, 7, .rw, 0, none⟩]⟩,
  ⟨"TL_CTRL_t", 0x80100, [(0x40, 5)], [⟨"RESTART", 0, 1, .wo, 0, none⟩, ⟨"STOP", 1, 1, .wo, 0, none⟩,
    ⟨"TEST", 2, 1, .wo, 0, none⟩, ⟨"CLR_CNT", 3, 1, .wo, 0, none⟩]⟩,
  ⟨"TL_CFG_t", 0x80104, [(0x40, 5)], [⟨"WIN", 0, 8, .rwl, 0x40, none⟩, ⟨"DIV_MAX", 8, 8, .rwl, 0x10, none⟩,
    ⟨"REPEAT_MAX", 16, 4, .rwl, 4, none⟩, ⟨"AUTO", 20, 1, .rwl, 0, none⟩, ⟨"RST_MAX", 21, 3, .rwl, 3, none⟩,
    ⟨"NOTE_EN", 24, 1, .rw, 0, none⟩, ⟨"DIN_LOW", 25, 1, .rwl, 0, none⟩]⟩,
  ⟨"TL_STAT_t", 0x80108, [(0x40, 5)], [⟨"STATE", 0, 3, .ro, 0, none⟩, ⟨"CAUSE", 3, 4, .ro, 0, none⟩,
    ⟨"TEST_OK", 7, 1, .ro, 0, none⟩, ⟨"EPOCH_LEN", 8, 8, .ro, 0, none⟩, ⟨"SB_USED", 16, 6, .ro, 0, none⟩,
    ⟨"RESTARTS", 24, 8, .ro, 0, none⟩]⟩,
  ⟨"TL_DIN_t_j", 0x8010C, [(0x40, 5), (0x4, 4)], [⟨"SRC_0", 0, 6, .rwl, 0x3F, none⟩,
    ⟨"SRC_1", 8, 6, .rwl, 0x3F, none⟩, ⟨"SRC_2", 16, 6, .rwl, 0x3F, none⟩, ⟨"SRC_3", 24, 6, .rwl, 0x3F, none⟩]⟩,
  ⟨"TL_DIN_IE_t", 0x8011C, [(0x40, 5)], [⟨"IE", 0, 16, .rw, 0, none⟩]⟩,
  ⟨"TL_CNT_A_t", 0x80120, [(0x40, 5)], [⟨"DIVERGE", 0, 16, .ro, 0, none⟩, ⟨"ROLLBACK", 16, 16, .ro, 0, none⟩]⟩,
  ⟨"TL_CNT_B_t", 0x80124, [(0x40, 5)], [⟨"REFILL", 0, 16, .ro, 0, none⟩, ⟨"SB_PAR", 16, 8, .ro, 0, none⟩,
    ⟨"DLY_PAR", 24, 8, .ro, 0, none⟩]⟩,
  ⟨"TL_MISM_t", 0x80128, [(0x40, 5)], [⟨"GROUP", 0, 4, .ro, 0, none⟩, ⟨"BIT", 4, 7, .ro, 0, none⟩,
    ⟨"ATTRIB", 11, 1, .ro, 0, none⟩]⟩,
  ⟨"TL_MISM_CYC_t", 0x8012C, [(0x40, 5)], [⟨"CYC", 0, 32, .ro, 0, none⟩]⟩,
  ⟨"TL_WIT_t", 0x80130, [(0x40, 5)], [⟨"DIN", 0, 4, .ro, 0, none⟩, ⟨"VALID", 4, 1, .ro, 0, none⟩]⟩,
  ⟨"TL_WIT_CYC_t", 0x80134, [(0x40, 5)], [⟨"CYC", 0, 32, .ro, 0, none⟩]⟩,
  ⟨"TL_TEST_t", 0x80138, [(0x40, 5)], [⟨"FAIL_GROUP", 0, 4, .ro, 0, none⟩, ⟨"FAIL_BIT", 4, 7, .ro, 0, none⟩,
    ⟨"POL", 11, 1, .ro, 0, none⟩, ⟨"DELAY", 12, 1, .ro, 0, none⟩, ⟨"TEST_CYC", 16, 16, .ro, 0, none⟩]⟩]

/-- WLD: R321 to R323. -/
def regsWld : List RegRow := [
  ⟨"WLD_CTRL", 0x90000, [], [⟨"LOCK", 31, 1, .sec, 0, none⟩]⟩,
  ⟨"WLD_SECBLK", 0x90004, [], [⟨"SEC", 0, 29, .sec, 0x19800141, none⟩]⟩,
  ⟨"WLD_INT_STAT", 0x90010, [], [⟨"EVT", 0, 12, .w1c, 0, none⟩]⟩,
  ⟨"WLD_INT_EN", 0x90014, [], [⟨"EVT", 0, 12, .sec, 0, none⟩]⟩,
  ⟨"WLD_SLOT_OWN_j", 0x90020, [(0x4, 4)], [⟨"OWN_0", 0, 4, .sec, 0, none⟩, ⟨"OWN_1", 4, 4, .sec, 0, none⟩,
    ⟨"OWN_2", 8, 4, .sec, 0, none⟩, ⟨"OWN_3", 12, 4, .sec, 0, none⟩, ⟨"OWN_4", 16, 4, .sec, 0, none⟩,
    ⟨"OWN_5", 20, 4, .sec, 0, none⟩, ⟨"OWN_6", 24, 4, .sec, 0, none⟩, ⟨"OWN_7", 28, 4, .sec, 0, none⟩]⟩,
  ⟨"WLD_LSW_OWN_j", 0x90030, [(0x4, 4)], [⟨"OWN_0", 0, 4, .sec, 0, none⟩, ⟨"OWN_1", 4, 4, .sec, 0, none⟩,
    ⟨"OWN_2", 8, 4, .sec, 0, none⟩, ⟨"OWN_3", 12, 4, .sec, 0, none⟩, ⟨"OWN_4", 16, 4, .sec, 0, none⟩,
    ⟨"OWN_5", 20, 4, .sec, 0, none⟩, ⟨"OWN_6", 24, 4, .sec, 0, none⟩, ⟨"OWN_7", 28, 4, .sec, 0, none⟩]⟩,
  ⟨"WLD_TEN_CFG_k", 0x90100, [(0x10, 1)], [⟨"EN", 0, 1, .sec, 1, none⟩, ⟨"TLMASK", 1, 5, .sec, 1, none⟩]⟩,
  ⟨"WLD_TEN_CFG_k", 0x90110, [(0x10, 7)], [⟨"EN", 0, 1, .sec, 0, none⟩, ⟨"TLMASK", 1, 5, .sec, 0, none⟩]⟩,
  ⟨"WLD_TEN_STAT_k", 0x90104, [(0x10, 1)], [⟨"STATE", 0, 3, .ro, 1, none⟩, ⟨"BLOCKED", 3, 1, .ro, 0, none⟩,
    ⟨"RESETS", 8, 8, .ro, 0, none⟩, ⟨"FAULTS", 16, 8, .ro, 0, none⟩]⟩,
  ⟨"WLD_TEN_STAT_k", 0x90114, [(0x10, 7)], [⟨"STATE", 0, 3, .ro, 0, none⟩, ⟨"BLOCKED", 3, 1, .ro, 1, none⟩,
    ⟨"RESETS", 8, 8, .ro, 0, none⟩, ⟨"FAULTS", 16, 8, .ro, 0, none⟩]⟩,
  ⟨"WLD_TEN_CMD_k", 0x90108, [(0x10, 8)], [⟨"RESET", 0, 1, .wo, 0, none⟩, ⟨"RELEASE", 1, 1, .wo, 0, none⟩]⟩,
  ⟨"CAB_CMD", 0x90200, [], [⟨"OP", 0, 4, .sec, 0, none⟩, ⟨"SLOT", 4, 4, .sec, 0, none⟩, ⟨"DST", 8, 4, .sec, 0, none⟩,
    ⟨"LEN", 12, 7, .sec, 0, none⟩, ⟨"EXP", 19, 1, .sec, 0, none⟩]⟩,
  ⟨"CAB_STAT", 0x90204, [], [⟨"BUSY", 0, 1, .secro, 0, none⟩, ⟨"OWNER", 1, 3, .secro, 0, none⟩,
    ⟨"ERR", 4, 4, .secro, 0, none⟩]⟩,
  ⟨"CAB_ATTR_s", 0x90240, [(0x4, 16)], [⟨"VALID", 0, 1, .secro, 0, none⟩, ⟨"EXP", 1, 1, .secro, 0, none⟩,
    ⟨"LK", 2, 1, .secro, 0, none⟩, ⟨"LEN", 3, 7, .secro, 0, none⟩]⟩,
  ⟨"CAB_DATA_w", 0x90280, [(0x4, 16)], [⟨"DATA", 0, 32, .sec, 0, none⟩]⟩,
  ⟨"RC_CTRL_c", 0x91000, [(0x200, 9)], [⟨"DEF_SEC", 0, 1, .sec, 1, none⟩]⟩,
  ⟨"RC_FLT_LO_c", 0x91004, [(0x200, 9)], [⟨"ADDR", 0, 32, .secro, 0, none⟩]⟩,
  ⟨"RC_FLT_HI_c", 0x91008, [(0x200, 9)], [⟨"ADDR_HI", 0, 8, .secro, 0, none⟩, ⟨"ATTR", 8, 8, .secro, 0, none⟩,
    ⟨"TYPE", 16, 2, .secro, 0, none⟩, ⟨"VALID", 18, 1, .w1c, 0, none⟩, ⟨"REGION", 20, 4, .secro, 0, none⟩]⟩,
  ⟨"RC_FLT_CNT_c", 0x9100C, [(0x200, 9)], [⟨"COUNT", 0, 32, .secro, 0, none⟩]⟩,
  ⟨"RC_BASE_c_n", 0x91100, [(0x200, 9), (0x10, 16)], [⟨"BASE", 0, 32, .sec, 0, none⟩]⟩,
  ⟨"RC_CFG_c_n", 0x91104, [(0x200, 9), (0x10, 16)], [⟨"EN", 0, 1, .sec, 0, none⟩, ⟨"SIZE", 1, 6, .sec, 0, none⟩,
    ⟨"S_R", 7, 1, .sec, 0, none⟩, ⟨"S_W", 8, 1, .sec, 0, none⟩, ⟨"S_X", 9, 1, .sec, 0, none⟩,
    ⟨"H_R", 10, 1, .sec, 0, none⟩, ⟨"H_W", 11, 1, .sec, 0, none⟩, ⟨"H_X", 12, 1, .sec, 0, none⟩,
    ⟨"G_R", 13, 1, .sec, 0, none⟩, ⟨"G_W", 14, 1, .sec, 0, none⟩, ⟨"G_X", 15, 1, .sec, 0, none⟩,
    ⟨"GATE", 16, 1, .sec, 0, none⟩, ⟨"UPRIV", 17, 1, .sec, 0, none⟩, ⟨"TMASK", 24, 8, .sec, 0, none⟩]⟩]

/-- DBG: R324. -/
def regsDbg : List RegRow := [
  ⟨"DBG_OTP", 0x1B0000, [], [⟨"OTP", 0, 4, .ro, 0xC, none⟩]⟩,
  ⟨"DBG_RT", 0x1B0004, [], [⟨"RT", 0, 4, .sec, 0, none⟩]⟩,
  ⟨"DBG_EFF", 0x1B0008, [], [⟨"EFF", 0, 4, .ro, 0, none⟩]⟩,
  ⟨"DBG_PROG", 0x1B000C, [], [⟨"RAISE", 0, 4, .sec, 0, none⟩, ⟨"KEY", 24, 8, .sec, 0, none⟩]⟩,
  ⟨"DBG_STAT", 0x1B0010, [], [⟨"BUSY", 0, 1, .ro, 0, none⟩, ⟨"HALT_PEND", 1, 1, .ro, 0, none⟩,
    ⟨"PROG_FAIL", 2, 1, .ro, 0, none⟩, ⟨"SCAN_ACT", 3, 1, .ro, 0, none⟩]⟩]

/-- AIX: R362, R363. -/
def regsAix : List RegRow := [
  ⟨"AIX_CTRL", 0xA0000, [], [⟨"EN", 0, 1, .sec, 1, none⟩, ⟨"ETH0", 1, 1, .sec, 1, none⟩,
    ⟨"ETH1", 2, 1, .sec, 1, none⟩, ⟨"TWP", 3, 1, .sec, 1, none⟩, ⟨"CLR_CNT", 4, 1, .sec, 0, none⟩]⟩,
  ⟨"AIX_PORT", 0xA0004, [], [⟨"PORT", 0, 16, .sec, 0xBAC2, none⟩]⟩,
  ⟨"AIX_TMO", 0xA0008, [], [⟨"SESS_TMO", 0, 16, .sec, 0x3C, none⟩, ⟨"ACCEPT_MS", 16, 8, .sec, 0x14, none⟩]⟩,
  ⟨"AIX_QBASE", 0xA000C, [], [⟨"BASE", 0, 32, .sec, 0x81C00, none⟩]⟩,
  ⟨"AIX_STATUS", 0xA0010, [], [⟨"ENGINE", 0, 1, .ro, 0, none⟩, ⟨"SESSIONS", 8, 6, .ro, 0, none⟩]⟩,
  ⟨"AIX_CMT_SEQ", 0xA0014, [], [⟨"SEQ", 0, 16, .sec, 0, none⟩, ⟨"DRAWER", 16, 3, .sec, 0, none⟩,
    ⟨"SLOT", 19, 2, .sec, 0, none⟩]⟩,
  ⟨"AIX_CMT", 0xA0018, [], [⟨"STATUS", 0, 16, .sec, 0, none⟩, ⟨"GO", 16, 1, .sec, 0, none⟩]⟩,
  ⟨"AIX_INT_STAT", 0xA0020, [], [⟨"EVT", 0, 10, .w1c, 0, none⟩]⟩,
  ⟨"AIX_INT_EN", 0xA0024, [], [⟨"EVT", 0, 10, .sec, 0, none⟩]⟩,
  ⟨"AIX_CNT_CRC", 0xA0030, [], [⟨"CNT", 0, 32, .ro, 0, none⟩]⟩,
  ⟨"AIX_CNT_FMT", 0xA0034, [], [⟨"CNT", 0, 32, .ro, 0, none⟩]⟩,
  ⟨"AIX_CNT_ACL", 0xA0038, [], [⟨"CNT", 0, 32, .ro, 0, none⟩]⟩,
  ⟨"AIX_CNT_DUP", 0xA003C, [], [⟨"CNT", 0, 32, .ro, 0, none⟩]⟩,
  ⟨"AIX_CNT_BUSY", 0xA0040, [], [⟨"CNT", 0, 32, .ro, 0, none⟩]⟩,
  ⟨"AIX_CNT_DROP", 0xA0044, [], [⟨"CNT", 0, 32, .ro, 0, none⟩]⟩,
  ⟨"AIX_CNT_TMO", 0xA0048, [], [⟨"CNT", 0, 32, .ro, 0, none⟩]⟩,
  ⟨"AIX_CNT_BADRSP", 0xA004C, [], [⟨"CNT", 0, 32, .ro, 0, none⟩]⟩,
  ⟨"AIX_ADDR_e_w", 0xA0100, [(0x10, 32), (0x4, 4)], [⟨"ADDR", 0, 32, .sec, 0, none⟩]⟩,
  ⟨"AIX_DCFG_k", 0xA0300, [(0x8, 1)], [⟨"EN", 0, 1, .sec, 1, none⟩, ⟨"TWP", 1, 1, .sec, 1, none⟩,
    ⟨"IRQ_TL", 2, 3, .sec, 0, none⟩, ⟨"TMO", 8, 8, .sec, 0xA, none⟩]⟩,
  ⟨"AIX_DCFG_k", 0xA0308, [(0x8, 7)], [⟨"EN", 0, 1, .sec, 0, none⟩, ⟨"TWP", 1, 1, .sec, 0, none⟩,
    ⟨"IRQ_TL", 2, 3, .sec, 0, none⟩, ⟨"TMO", 8, 8, .sec, 0xA, none⟩]⟩,
  ⟨"AIX_DACL_k", 0xA0304, [(0x8, 8)], [⟨"MASK", 0, 32, .sec, 0, none⟩]⟩,
  ⟨"DRW_REQ_BASE_k", 0xA1000, [(0x100, 8)], [⟨"BASE", 0, 32, .rw, 0, none⟩]⟩,
  ⟨"DRW_RSP_BASE_k", 0xA1004, [(0x100, 8)], [⟨"BASE", 0, 32, .rw, 0, none⟩]⟩,
  ⟨"DRW_CTRL_k", 0xA1008, [(0x100, 8)], [⟨"EN", 0, 1, .rw, 0, none⟩]⟩,
  ⟨"DRW_REQ_PROD_k", 0xA100C, [(0x100, 8)], [⟨"IDX", 0, 5, .ro, 0, none⟩]⟩,
  ⟨"DRW_REQ_CONS_k", 0xA1010, [(0x100, 8)], [⟨"IDX", 0, 5, .rw, 0, none⟩]⟩,
  ⟨"DRW_RSP_PROD_k", 0xA1014, [(0x100, 8)], [⟨"IDX", 0, 5, .rw, 0, none⟩]⟩,
  ⟨"DRW_RSP_CONS_k", 0xA1018, [(0x100, 8)], [⟨"IDX", 0, 5, .ro, 0, none⟩]⟩,
  ⟨"DRW_INT_k", 0xA101C, [(0x100, 8)], [⟨"REQ", 0, 1, .w1c, 0, none⟩, ⟨"RSP_BAD", 1, 1, .w1c, 0, none⟩,
    ⟨"RING_ERR", 2, 1, .w1c, 0, none⟩]⟩]

/-- ETH: R364. -/
def regsEth : List RegRow := [
  ⟨"ETH_CTRL", 0xD0000, [(0x10000, 2)], [⟨"EN", 0, 1, .rwl, 1, none⟩, ⟨"IPV4_EN", 1, 1, .rwl, 0, none⟩,
    ⟨"IPV6_EN", 2, 1, .rwl, 1, none⟩, ⟨"PTP_EN", 3, 1, .rwl, 0, none⟩, ⟨"LOCK", 31, 1, .rwl, 0, none⟩]⟩,
  ⟨"ETH_MAC_LO", 0xD0004, [(0x10000, 2)], [⟨"MAC", 0, 32, .rwl, 0, none⟩]⟩,
  ⟨"ETH_MAC_HI", 0xD0008, [(0x10000, 2)], [⟨"MAC", 0, 16, .rwl, 0, none⟩]⟩,
  ⟨"ETH_IPV4", 0xD000C, [(0x10000, 2)], [⟨"ADDR", 0, 32, .rwl, 0, none⟩]⟩,
  ⟨"ETH_IPV4_CFG", 0xD0010, [(0x10000, 2)], [⟨"PREFIX", 0, 6, .rwl, 0, some (0, 32)⟩]⟩,
  ⟨"ETH_IPV4_GW", 0xD0014, [(0x10000, 2)], [⟨"ADDR", 0, 32, .rwl, 0, none⟩]⟩,
  ⟨"ETH_IPV6_w", 0xD0020, [(0x10000, 2), (0x4, 4)], [⟨"ADDR", 0, 32, .rwl, 0, none⟩]⟩,
  ⟨"ETH_IPV6_CFG", 0xD0030, [(0x10000, 2)], [⟨"PREFIX", 0, 8, .rwl, 0, some (0, 128)⟩]⟩,
  ⟨"ETH_VLAN", 0xD0034, [(0x10000, 2)], [⟨"VID", 0, 12, .rwl, 0, none⟩, ⟨"PCP", 12, 3, .rwl, 0, none⟩,
    ⟨"EN", 15, 1, .rwl, 0, none⟩]⟩,
  ⟨"ETH_IPV6_GW_w", 0xD0040, [(0x10000, 2), (0x4, 4)], [⟨"ADDR", 0, 32, .rwl, 0, none⟩]⟩,
  ⟨"ETH_STATUS", 0xD0050, [(0x10000, 2)], [⟨"LINK", 0, 1, .ro, 0, none⟩, ⟨"SYNC", 1, 1, .ro, 0, none⟩,
    ⟨"PTP_SYNC", 2, 1, .ro, 0, none⟩]⟩,
  ⟨"ETH_PTP_OFS", 0xD0054, [(0x10000, 2)], [⟨"OFS", 0, 32, .ro, 0, none⟩]⟩,
  ⟨"ETH_CNT_RX", 0xD0060, [(0x10000, 2)], [⟨"CNT", 0, 32, .ro, 0, none⟩]⟩,
  ⟨"ETH_CNT_FCS", 0xD0064, [(0x10000, 2)], [⟨"CNT", 0, 32, .ro, 0, none⟩]⟩,
  ⟨"ETH_CNT_DROP", 0xD0068, [(0x10000, 2)], [⟨"CNT", 0, 32, .ro, 0, none⟩]⟩,
  ⟨"ETH_CNT_TX", 0xD006C, [(0x10000, 2)], [⟨"CNT", 0, 32, .ro, 0, none⟩]⟩,
  ⟨"ETH_CNT_CLR", 0xD0070, [(0x10000, 2)], [⟨"CLR", 0, 1, .wo, 0, none⟩]⟩,
  ⟨"ETH_INT_STAT", 0xD0078, [(0x10000, 2)], [⟨"LINK", 0, 1, .w1c, 0, none⟩, ⟨"PTP", 1, 1, .w1c, 0, none⟩]⟩,
  ⟨"ETH_INT_EN", 0xD007C, [(0x10000, 2)], [⟨"EN", 0, 2, .rw, 0, none⟩]⟩]

/-- CFG: R388. -/
def regsCfg : List RegRow := [
  ⟨"CFG_STATUS", 0x1C0000, [], [⟨"STATE", 0, 2, .sec, 0, none⟩, ⟨"SLOT", 2, 1, .sec, 0, none⟩,
    ⟨"CONVERTED", 3, 1, .sec, 0, none⟩, ⟨"WRITE_FAIL", 4, 1, .sec, 0, none⟩, ⟨"NET_ONLY", 5, 1, .sec, 0, none⟩,
    ⟨"HOLD_CAUSE", 8, 8, .sec, 0, none⟩, ⟨"CHECK", 16, 16, .sec, 0, none⟩]⟩,
  ⟨"CFG_CRC", 0x1C0004, [], [⟨"CRC", 0, 32, .sec, 0, none⟩]⟩,
  ⟨"CFG_GEN", 0x1C0008, [], [⟨"GEN", 0, 32, .sec, 0, none⟩]⟩,
  ⟨"CFG_OFS", 0x1C000C, [], [⟨"OFS", 0, 32, .sec, 0, none⟩]⟩,
  ⟨"CFG_SEQ_0", 0x1C0010, [], [⟨"SEQ", 0, 32, .sec, 0, none⟩]⟩,
  ⟨"CFG_SEQ_1", 0x1C0014, [], [⟨"SEQ", 0, 32, .sec, 0, none⟩]⟩,
  ⟨"CFG_STAGE_BASE", 0x1C0018, [], [⟨"BASE", 0, 32, .sec, 0x802000, none⟩]⟩,
  ⟨"CFG_STAGE_LEN", 0x1C001C, [], [⟨"RECEIVED", 0, 21, .sec, 0, none⟩]⟩,
  ⟨"CFG_STAGE_TOTAL", 0x1C0020, [], [⟨"TOTAL", 0, 21, .sec, 0, none⟩]⟩]

/-- BRG: R411 to R413. -/
def regsBrg : List RegRow := [
  ⟨"BRG_CTRL", 0xB0000, [], [⟨"DEF_MODE", 0, 2, .rwl, 1, none⟩, ⟨"LOCK", 31, 1, .rwl, 0, none⟩]⟩,
  ⟨"BRG_CFG", 0xB0004, [], [⟨"HOLD_US", 0, 16, .rwl, 0x3E8, none⟩, ⟨"PF_WORDS", 16, 7, .rwl, 0x10, some (1, 64)⟩]⟩,
  ⟨"BRG_STATUS", 0xB0008, [], [⟨"BUSY", 0, 16, .ro, 0, none⟩]⟩,
  ⟨"BRG_INT_STAT", 0xB0010, [], [⟨"EVT", 0, 9, .w1c, 0, none⟩]⟩,
  ⟨"BRG_INT_EN", 0xB0014, [], [⟨"EVT", 0, 9, .rw, 0, none⟩]⟩,
  ⟨"BRG_CNT_ERR", 0xB0020, [], [⟨"CNT", 0, 32, .ro, 0, none⟩]⟩,
  ⟨"BRG_CNT_RETRY", 0xB0024, [], [⟨"CNT", 0, 32, .ro, 0, none⟩]⟩,
  ⟨"BRG_CNT_PFHIT", 0xB0028, [], [⟨"CNT", 0, 32, .ro, 0, none⟩]⟩,
  ⟨"BRG_CNT_MEM", 0xB002C, [], [⟨"SRAM", 0, 16, .ro, 0, none⟩, ⟨"DRAM", 16, 16, .ro, 0, none⟩]⟩,
  ⟨"BRG_CNT_PAR", 0xB0030, [], [⟨"FABRIC", 0, 16, .ro, 0, none⟩, ⟨"RXBUF", 16, 16, .ro, 0, none⟩]⟩,
  ⟨"BRG_MEMERR_LO", 0xB0034, [], [⟨"ADDR", 0, 32, .ro, 0, none⟩]⟩,
  ⟨"BRG_MEMERR_HI", 0xB0038, [], [⟨"ADDR", 0, 8, .ro, 0, none⟩, ⟨"DRAM", 8, 1, .ro, 0, none⟩]⟩,
  ⟨"BRG_CLR", 0xB003C, [], [⟨"CLR", 0, 1, .wo, 0, none⟩]⟩,
  ⟨"WIN_BASE_n", 0xB0100, [(0x10, 8)], [⟨"BASE", 0, 16, .rwl, 0, none⟩]⟩,
  ⟨"WIN_LIMIT_n", 0xB0104, [(0x10, 8)], [⟨"LIMIT", 0, 16, .rwl, 0, none⟩]⟩,
  ⟨"WIN_CFG_n", 0xB0108, [(0x10, 8)], [⟨"EN", 0, 1, .rw, 0, none⟩, ⟨"TARGET", 1, 1, .rw, 0, none⟩,
    ⟨"MODE", 2, 2, .rw, 1, none⟩]⟩,
  ⟨"BE_N_LO_t", 0xB0200, [(0x20, 5)], [⟨"ADDR", 0, 32, .ro, 0, none⟩]⟩,
  ⟨"BE_N_HI_t", 0xB0204, [(0x20, 5)], [⟨"ADDR_HI", 0, 8, .ro, 0, none⟩, ⟨"ATTR", 8, 8, .ro, 0, none⟩,
    ⟨"CAUSE", 16, 4, .ro, 0, none⟩, ⟨"SRC", 20, 2, .ro, 0, none⟩, ⟨"DETAIL", 22, 4, .ro, 0, none⟩,
    ⟨"OVF_CNT", 26, 3, .ro, 0, none⟩, ⟨"OVF", 29, 1, .ro, 0, none⟩, ⟨"VALID", 31, 1, .ro, 0, none⟩]⟩,
  ⟨"BE_N_POP_t", 0xB0208, [(0x20, 5)], [⟨"POP", 0, 1, .wo, 0, none⟩]⟩,
  ⟨"BE_S_LO_t", 0xB020C, [(0x20, 5)], [⟨"ADDR", 0, 32, .secro, 0, none⟩]⟩,
  ⟨"BE_S_HI_t", 0xB0210, [(0x20, 5)], [⟨"ADDR_HI", 0, 8, .secro, 0, none⟩, ⟨"ATTR", 8, 8, .secro, 0, none⟩,
    ⟨"CAUSE", 16, 4, .secro, 0, none⟩, ⟨"SRC", 20, 2, .secro, 0, none⟩, ⟨"DETAIL", 22, 4, .secro, 0, none⟩,
    ⟨"OVF_CNT", 26, 3, .secro, 0, none⟩, ⟨"OVF", 29, 1, .secro, 0, none⟩, ⟨"VALID", 31, 1, .secro, 0, none⟩]⟩,
  ⟨"BE_S_POP_t", 0xB0214, [(0x20, 5)], [⟨"POP", 0, 1, .sec, 0, none⟩]⟩,
  ⟨"BRG_LD_CAUSE_t", 0xB0218, [(0x20, 5)], [⟨"CAUSE", 0, 4, .ro, 0, none⟩, ⟨"DETAIL", 4, 4, .ro, 0, none⟩]⟩]

/-- PEER: R414. -/
def regsPeer : List RegRow := [
  ⟨"PEER_CTRL", 0xC0000, [], [⟨"EN", 0, 1, .rwl, 1, none⟩, ⟨"IN_EN", 1, 1, .rwl, 0, none⟩,
    ⟨"LOCK", 31, 1, .rwl, 0, none⟩]⟩,
  ⟨"PEER_CFG", 0xC0004, [], [⟨"RETRY_MAX", 0, 8, .rwl, 0x32, none⟩]⟩,
  ⟨"PEER_IN_ATTR", 0xC0008, [], [⟨"ATTR", 0, 7, .sec, 0x10, none⟩]⟩,
  ⟨"PEER_STATUS", 0xC000C, [], [⟨"LINK", 0, 2, .ro, 0, none⟩, ⟨"VER", 2, 2, .ro, 0, none⟩,
    ⟨"LANE_0", 4, 1, .ro, 0, none⟩, ⟨"LANE_1", 5, 1, .ro, 0, none⟩, ⟨"OUT", 6, 4, .ro, 0, none⟩,
    ⟨"IN_BUSY", 10, 1, .ro, 0, none⟩]⟩,
  ⟨"PEER_RTT", 0xC0010, [], [⟨"RTT", 0, 16, .ro, 0, none⟩]⟩,
  ⟨"PEER_INT_STAT", 0xC0014, [], [⟨"EVT", 0, 4, .w1c, 0, none⟩]⟩,
  ⟨"PEER_INT_EN", 0xC0018, [], [⟨"EVT", 0, 4, .rw, 0, none⟩]⟩,
  ⟨"PEER_CNT_CRC", 0xC0020, [], [⟨"CNT", 0, 32, .ro, 0, none⟩]⟩,
  ⟨"PEER_CNT_RETX", 0xC0024, [], [⟨"CNT", 0, 32, .ro, 0, none⟩]⟩,
  ⟨"PEER_CNT_RETRY", 0xC0028, [], [⟨"CNT", 0, 32, .ro, 0, none⟩]⟩,
  ⟨"PEER_CNT_ERR", 0xC002C, [], [⟨"CNT", 0, 32, .ro, 0, none⟩]⟩,
  ⟨"PEER_CLR", 0xC0030, [], [⟨"CLR", 0, 1, .wo, 0, none⟩]⟩,
  ⟨"PEER_MAP_n", 0xC0100, [(0x4, 16)], [⟨"EN", 0, 1, .rwl, 0, none⟩, ⟨"BASE", 16, 16, .rwl, 0, none⟩]⟩]

/-- CAN: R442, R443. -/
def regsCan : List RegRow := [
  ⟨"CAN_CTRL", 0x100000, [(0x10000, 6)], [⟨"MODE", 0, 2, .rw, 0, none⟩, ⟨"FD_EN", 2, 1, .rwl, 0, none⟩,
    ⟨"AUTO_RECOV", 3, 1, .rwl, 1, none⟩, ⟨"RECOVER", 4, 1, .wo, 0, none⟩, ⟨"LOCK", 31, 1, .rwl, 0, none⟩]⟩,
  ⟨"CAN_NBT", 0x100004, [(0x10000, 6)], [⟨"BRP", 0, 5, .rwl, 0, none⟩, ⟨"TSEG1", 5, 8, .rwl, 0x7E, some (1, 255)⟩,
    ⟨"TSEG2", 13, 7, .rwl, 0x1F, some (1, 127)⟩, ⟨"SJW", 20, 7, .rwl, 0x1F, none⟩]⟩,
  ⟨"CAN_DBT", 0x100008, [(0x10000, 6)], [⟨"BRP", 0, 5, .rwl, 0, none⟩, ⟨"TSEG1", 5, 5, .rwl, 0x1C, none⟩,
    ⟨"TSEG2", 10, 4, .rwl, 9, none⟩, ⟨"SJW", 14, 4, .rwl, 9, none⟩, ⟨"TDC_EN", 18, 1, .rwl, 1, none⟩,
    ⟨"TDCO", 19, 7, .rwl, 0x1E, none⟩]⟩,
  ⟨"CAN_CFG", 0x10000C, [(0x10000, 6)], [⟨"RETRY", 0, 4, .rwl, 0xF, none⟩, ⟨"OWNER", 4, 4, .rwl, 0, none⟩,
    ⟨"COLLIDE_MAX", 8, 8, .rwl, 8, none⟩, ⟨"IRQ_TL", 16, 3, .rwl, 0, none⟩, ⟨"TTL_MS", 20, 12, .rwl, 0, none⟩]⟩,
  ⟨"CAN_XCVR", 0x100010, [(0x10000, 6)], [⟨"STATE", 0, 2, .rw, 2, none⟩, ⟨"WAKE_EN", 2, 1, .rwl, 1, none⟩]⟩,
  ⟨"CAN_STATUS", 0x100014, [(0x10000, 6)], [⟨"EFF_MODE", 0, 2, .ro, 0, none⟩, ⟨"ESTATE", 2, 2, .ro, 0, none⟩,
    ⟨"HELD", 4, 1, .ro, 0, none⟩, ⟨"TXD_TO", 5, 1, .ro, 0, none⟩, ⟨"QUEUED", 8, 5, .ro, 0, none⟩]⟩,
  ⟨"CAN_ERRCNT", 0x100018, [(0x10000, 6)], [⟨"TEC", 0, 9, .ro, 0, none⟩, ⟨"REC", 16, 8, .ro, 0, none⟩]⟩,
  ⟨"CAN_TS", 0x10001C, [(0x10000, 6)], [⟨"TS", 0, 32, .ro, 0, none⟩]⟩,
  ⟨"CAN_TS_CYC", 0x100020, [(0x10000, 6)], [⟨"TS", 0, 32, .ro, 0, none⟩]⟩,
  ⟨"CAN_INT_STAT", 0x100030, [(0x10000, 6)], [⟨"EVT", 0, 10, .w1c, 0, none⟩]⟩,
  ⟨"CAN_INT_EN", 0x100034, [(0x10000, 6)], [⟨"EVT", 0, 10, .rw, 0, none⟩]⟩,
  ⟨"CAN_CNT_RX", 0x100040, [(0x10000, 6)], [⟨"CNT", 0, 32, .ro, 0, none⟩]⟩,
  ⟨"CAN_CNT_TX", 0x100044, [(0x10000, 6)], [⟨"CNT", 0, 32, .ro, 0, none⟩]⟩,
  ⟨"CAN_CNT_ERR", 0x100048, [(0x10000, 6)], [⟨"ERR", 0, 16, .ro, 0, none⟩, ⟨"ARB", 16, 16, .ro, 0, none⟩]⟩,
  ⟨"CAN_CNT_DROP", 0x10004C, [(0x10000, 6)], [⟨"NOMATCH", 0, 16, .ro, 0, none⟩, ⟨"OVF", 16, 16, .ro, 0, none⟩]⟩,
  ⟨"CAN_CNT_ABN", 0x100050, [(0x10000, 6)], [⟨"ABANDON", 0, 16, .ro, 0, none⟩, ⟨"COLLIDE", 16, 16, .ro, 0, none⟩]⟩,
  ⟨"CAN_CNT_CLR", 0x100054, [(0x10000, 6)], [⟨"CLR", 0, 1, .wo, 0, none⟩]⟩,
  ⟨"TX_DATA_w", 0x100100, [(0x10000, 6), (0x100, 2), (0x4, 16)], [⟨"DATA", 0, 32, .rw, 0, none⟩]⟩,
  ⟨"TX_CMD", 0x100140, [(0x10000, 6), (0x100, 2)], [⟨"ROUTE", 0, 12, .wo, 0, none⟩, ⟨"LEN", 12, 7, .wo, 0, none⟩,
    ⟨"GO", 19, 1, .wo, 0, none⟩]⟩,
  ⟨"TX_STAT", 0x100144, [(0x10000, 6), (0x100, 1)], [⟨"FREE", 0, 5, .ro, 0x10, none⟩, ⟨"TAG", 8, 8, .ro, 0, none⟩,
    ⟨"RESULT", 16, 3, .ro, 0, none⟩]⟩,
  ⟨"TX_STAT", 0x100244, [(0x10000, 6), (0x100, 1)], [⟨"FREE", 0, 5, .ro, 8, none⟩, ⟨"TAG", 8, 8, .ro, 0, none⟩,
    ⟨"RESULT", 16, 3, .ro, 0, none⟩]⟩,
  ⟨"TX_CANCEL", 0x100148, [(0x10000, 6), (0x100, 2)], [⟨"TAG", 0, 8, .wo, 0, none⟩, ⟨"GO", 8, 1, .wo, 0, none⟩]⟩,
  ⟨"TX_DONE", 0x10014C, [(0x10000, 6), (0x100, 2)], [⟨"TAG", 0, 8, .ro, 0, none⟩, ⟨"OUTCOME", 8, 3, .ro, 0, none⟩,
    ⟨"OVF", 30, 1, .ro, 0, none⟩, ⟨"VALID", 31, 1, .ro, 0, none⟩]⟩,
  ⟨"RX_HDR", 0x100150, [(0x10000, 6), (0x100, 2)], [⟨"ID", 0, 29, .ro, 0, none⟩, ⟨"IDE", 29, 1, .ro, 0, none⟩,
    ⟨"FDF", 30, 1, .ro, 0, none⟩, ⟨"VALID", 31, 1, .ro, 0, none⟩]⟩,
  ⟨"RX_INFO", 0x100154, [(0x10000, 6), (0x100, 2)], [⟨"LEN", 0, 7, .ro, 0, none⟩, ⟨"BRS", 7, 1, .ro, 0, none⟩,
    ⟨"ESI", 8, 1, .ro, 0, none⟩, ⟨"RTR", 9, 1, .ro, 0, none⟩, ⟨"ENTRY", 10, 12, .ro, 0, none⟩,
    ⟨"COUNT", 24, 6, .ro, 0, none⟩, ⟨"OVF", 30, 1, .ro, 0, none⟩]⟩,
  ⟨"RX_TS", 0x100158, [(0x10000, 6), (0x100, 2)], [⟨"TS", 0, 32, .ro, 0, none⟩]⟩,
  ⟨"RX_POP", 0x10015C, [(0x10000, 6), (0x100, 2)], [⟨"POP", 0, 1, .wo, 0, none⟩]⟩,
  ⟨"RX_DATA_w", 0x100160, [(0x10000, 6), (0x100, 2), (0x4, 16)], [⟨"DATA", 0, 32, .ro, 0, none⟩]⟩,
  ⟨"PG_IE", 0x1001A0, [(0x10000, 6), (0x100, 2)], [⟨"RX", 0, 1, .rw, 0, none⟩, ⟨"DONE", 1, 1, .rw, 0, none⟩]⟩]

/-- NSM: R444, R426. -/
def regsNsm : List RegRow := [
  ⟨"NSM_CTRL", 0x160000, [], [⟨"EN", 0, 1, .rw, 0, none⟩, ⟨"TARGET", 1, 1, .rw, 0, none⟩,
    ⟨"CHANNELS", 8, 6, .rw, 0, none⟩, ⟨"LOCK", 31, 1, .rwl, 0, none⟩]⟩,
  ⟨"NSM_TIME", 0x160004, [], [⟨"IDLE_S", 0, 16, .rw, 0x3C, some (1, 65535)⟩, ⟨"WAIT_MS", 16, 16, .rwl, 0x3E8, none⟩]⟩,
  ⟨"NSM_NM", 0x160008, [], [⟨"BASE", 0, 11, .rwl, 0x500, none⟩, ⟨"SELF", 11, 6, .rwl, 0, none⟩,
    ⟨"PERIOD", 17, 8, .rwl, 0xA, none⟩]⟩,
  ⟨"NSM_CAP", 0x16000C, [], [⟨"CAP_S", 0, 16, .rwl, 0x258, none⟩]⟩,
  ⟨"NSM_REG", 0x160010, [], [⟨"REG_S3", 0, 1, .rwl, 0, none⟩, ⟨"XWAKE_REG", 1, 1, .rwl, 1, none⟩,
    ⟨"LEVEL", 2, 1, .ro, 1, none⟩]⟩,
  ⟨"NSM_STATUS", 0x160014, [], [⟨"STATE", 0, 3, .ro, 0, none⟩, ⟨"OWN", 3, 1, .ro, 0, none⟩,
    ⟨"IDLE_LEFT", 16, 16, .ro, 0, none⟩]⟩,
  ⟨"NSM_XWAKE", 0x160018, [], [⟨"CH", 0, 6, .w1c, 0, none⟩]⟩,
  ⟨"NSM_INT_STAT", 0x160020, [], [⟨"EVT", 0, 5, .w1c, 0, none⟩]⟩,
  ⟨"NSM_INT_EN", 0x160024, [], [⟨"EVT", 0, 5, .rw, 0, none⟩]⟩,
  ⟨"NSM_EDST_d", 0x160100, [(0x4, 16)], [⟨"ADDR", 0, 5, .rwl, 0, none⟩, ⟨"PORT", 5, 1, .rwl, 0, none⟩,
    ⟨"EN", 6, 1, .rwl, 0, none⟩, ⟨"UDP", 16, 16, .rwl, 0, none⟩]⟩,
  ⟨"NSM_NODE_j", 0x160200, [(0x4, 64)], [⟨"SEEN", 0, 1, .ro, 0, none⟩, ⟨"AWAKE", 1, 1, .ro, 0, none⟩,
    ⟨"CAPPED", 2, 1, .w1c, 0, none⟩, ⟨"CH", 4, 3, .ro, 0, none⟩, ⟨"SOLE_S", 16, 16, .ro, 0, none⟩]⟩,
  ⟨"NSM_VOTE_k", 0x161000, [(0x100, 8)], [⟨"AWAKE", 0, 1, .rw, 0, none⟩]⟩,
  ⟨"NSM_RT_e_0", 0x168000, [(0x8, 4096)], [⟨"ID", 0, 29, .rwl, 0, none⟩, ⟨"IDE", 29, 1, .rwl, 0, none⟩,
    ⟨"FDF", 30, 1, .rwl, 0, none⟩, ⟨"BRS", 31, 1, .rwl, 0, none⟩]⟩,
  ⟨"NSM_RT_e_1", 0x168004, [(0x8, 4096)], [⟨"KIND", 0, 2, .rwl, 0, none⟩, ⟨"CH", 2, 3, .rwl, 0, none⟩,
    ⟨"MBITS", 5, 5, .rwl, 0, none⟩, ⟨"DEST", 10, 4, .rwl, 0, none⟩, ⟨"GW", 14, 3, .rwl, 0, none⟩,
    ⟨"ED", 17, 4, .rwl, 0, none⟩, ⟨"OWNER", 21, 4, .rwl, 0, none⟩]⟩]

/-- PWR: R464. -/
def regsPwr : List RegRow := [
  ⟨"PWR_PL", 0x10000, [], [⟨"TARGET", 0, 2, .sec, 0, none⟩, ⟨"CUR", 4, 2, .ro, 0, none⟩, ⟨"BUSY", 8, 1, .ro, 0, none⟩]⟩,
  ⟨"PWR_SLEEP", 0x10004, [], [⟨"STATE", 0, 3, .sec, 0, none⟩, ⟨"GO", 3, 1, .sec, 0, none⟩]⟩,
  ⟨"PWR_STATUS", 0x10008, [], [⟨"PSTATE", 0, 2, .ro, 0, none⟩, ⟨"LAST", 2, 3, .ro, 0, none⟩,
    ⟨"HCLK", 5, 1, .ro, 0, none⟩, ⟨"XTAL_STOP", 6, 1, .ro, 0, none⟩, ⟨"CAL_SPREAD", 7, 1, .ro, 0, none⟩,
    ⟨"ELAPSED_VALID", 8, 1, .ro, 0, none⟩]⟩,
  ⟨"PWR_ELAPSED_S", 0x1000C, [], [⟨"S", 0, 32, .ro, 0, none⟩]⟩,
  ⟨"PWR_ELAPSED_MS", 0x10010, [], [⟨"MS", 0, 10, .ro, 0, none⟩]⟩,
  ⟨"PWR_CAL_ENTRY", 0x10014, [], [⟨"F", 0, 32, .ro, 0, none⟩]⟩,
  ⟨"PWR_CAL_EXIT", 0x10018, [], [⟨"F", 0, 32, .ro, 0, none⟩]⟩,
  ⟨"PWR_OPSEC", 0x1001C, [], [⟨"SEC", 0, 32, .ro, 0, none⟩]⟩,
  ⟨"PWR_INT_STAT", 0x10020, [], [⟨"EVT", 0, 7, .w1c, 0, none⟩, ⟨"WAKE", 7, 1, .w1c, 0, none⟩]⟩,
  ⟨"PWR_INT_EN", 0x10024, [], [⟨"EN", 0, 8, .rw, 0, none⟩]⟩,
  ⟨"PWR_CG", 0x10040, [], [⟨"CG", 0, 29, .rw, 0, none⟩]⟩,
  ⟨"PWR_RST", 0x10044, [], [⟨"RST", 0, 29, .rw, 0, none⟩]⟩,
  ⟨"PWR_PSW", 0x10048, [], [⟨"PSW", 0, 29, .rw, 0, none⟩]⟩]

/-- TWP: R465. -/
def regsTwp : List RegRow := [
  ⟨"TWP_CTRL", 0x1A0000, [], [⟨"FAST", 0, 1, .ro, 0, none⟩, ⟨"LOCK", 31, 1, .rwl, 0, none⟩]⟩,
  ⟨"TWP_ADDR", 0x1A0004, [], [⟨"ADDR", 0, 7, .rwl, 0x4A, some (8, 119)⟩]⟩,
  ⟨"TWP_STATUS", 0x1A0008, [], [⟨"BUSY", 0, 1, .ro, 0, none⟩, ⟨"RX_READY", 1, 1, .ro, 0, none⟩,
    ⟨"TX_READY", 2, 1, .ro, 0, none⟩, ⟨"MATCH", 3, 1, .w1c, 0, none⟩]⟩,
  ⟨"TWP_CNT_RX", 0x1A0010, [], [⟨"CNT", 0, 32, .ro, 0, none⟩]⟩,
  ⟨"TWP_CNT_TX", 0x1A0014, [], [⟨"CNT", 0, 32, .ro, 0, none⟩]⟩,
  ⟨"TWP_CNT_ERR", 0x1A0018, [], [⟨"CNT", 0, 32, .ro, 0, none⟩]⟩,
  ⟨"TWP_CNT_NACK", 0x1A001C, [], [⟨"CNT", 0, 32, .ro, 0, none⟩]⟩]

/-- REC: R483, R484. -/
def regsRec : List RegRow := [
  ⟨"REC_CTRL", 0x170000, [], [⟨"LOCK", 31, 1, .rwl, 0, none⟩]⟩,
  ⟨"REC_CFG", 0x170004, [], [⟨"REPEAT_MS", 0, 16, .rwl, 0x3E8, none⟩, ⟨"MARK_MIN", 16, 8, .rwl, 0x3C, none⟩]⟩,
  ⟨"REC_STATUS", 0x170008, [], [⟨"OPEN", 0, 1, .ro, 0, none⟩, ⟨"MRAM_FAIL", 1, 1, .ro, 0, none⟩,
    ⟨"FALLBACK", 2, 1, .ro, 0, none⟩, ⟨"RUN", 3, 1, .ro, 0, none⟩, ⟨"FB_COUNT", 8, 5, .ro, 0, none⟩,
    ⟨"LEVEL", 16, 7, .ro, 0, none⟩]⟩,
  ⟨"REC_NEWEST", 0x17000C, [], [⟨"SEQ", 0, 32, .ro, 0, none⟩]⟩,
  ⟨"REC_OLDEST", 0x170010, [], [⟨"SEQ", 0, 32, .ro, 0, none⟩]⟩,
  ⟨"REC_HELD", 0x170014, [], [⟨"HELD", 0, 17, .ro, 0, none⟩]⟩,
  ⟨"REC_PCYC", 0x170018, [], [⟨"PCYC", 0, 24, .ro, 0, none⟩]⟩,
  ⟨"REC_OPBASE", 0x17001C, [], [⟨"BASE", 0, 32, .ro, 0, none⟩]⟩,
  ⟨"REC_RUN_CNT", 0x170020, [], [⟨"CNT", 0, 16, .ro, 0, none⟩]⟩,
  ⟨"REC_LOST", 0x170024, [], [⟨"CNT", 0, 32, .ro, 0, none⟩]⟩,
  ⟨"REC_BADSLOT", 0x170028, [], [⟨"SCAN", 0, 16, .ro, 0, none⟩, ⟨"REWRITE", 16, 16, .ro, 0, none⟩]⟩,
  ⟨"REC_INT_STAT", 0x170050, [], [⟨"EVT", 0, 4, .w1c, 0, none⟩]⟩,
  ⟨"REC_INT_EN", 0x170054, [], [⟨"EVT", 0, 4, .rw, 0, none⟩]⟩,
  ⟨"SUB_P1_t", 0x170100, [(0x40, 5)], [⟨"P1", 0, 32, .rw, 0, none⟩]⟩,
  ⟨"SUB_P2_t", 0x170104, [(0x40, 5)], [⟨"P2", 0, 32, .rw, 0, none⟩]⟩,
  ⟨"SUB_P3_t", 0x170108, [(0x40, 5)], [⟨"P3", 0, 32, .rw, 0, none⟩]⟩,
  ⟨"SUB_CMD_t", 0x17010C, [(0x40, 5)], [⟨"CODE", 0, 16, .wo, 0, none⟩, ⟨"GO", 16, 1, .wo, 0, none⟩,
    ⟨"RESULT", 17, 2, .ro, 0, none⟩]⟩,
  ⟨"RD_SEQ_t", 0x170110, [(0x40, 5)], [⟨"SEQ", 0, 32, .rw, 0, none⟩]⟩,
  ⟨"RD_STAT_t", 0x170114, [(0x40, 5)], [⟨"BUSY", 0, 1, .ro, 0, none⟩, ⟨"VALID", 1, 1, .ro, 0, none⟩,
    ⟨"OVERWRITTEN", 2, 1, .ro, 0, none⟩, ⟨"BAD", 3, 1, .ro, 0, none⟩, ⟨"GONE", 4, 1, .ro, 0, none⟩,
    ⟨"FALLBACK", 5, 1, .ro, 0, none⟩]⟩,
  ⟨"RD_DATA_t_w", 0x170120, [(0x40, 5), (0x4, 8)], [⟨"DATA", 0, 32, .ro, 0, none⟩]⟩]

/-- UPD: R504. -/
def regsUpd : List RegRow := [
  ⟨"UPD_CTRL", 0x180000, [], [⟨"LOCK", 31, 1, .rwl, 0, none⟩]⟩,
  ⟨"UPD_CFG", 0x180004, [], [⟨"CONFIRM_S", 0, 16, .rwl, 0x1E, none⟩, ⟨"SAT_RETRY", 16, 4, .rwl, 2, none⟩]⟩,
  ⟨"UPD_STATUS", 0x180008, [], [⟨"STATE", 0, 3, .sec, 0, none⟩, ⟨"CLASS", 4, 3, .sec, 0, none⟩,
    ⟨"BANK", 8, 1, .sec, 0, none⟩, ⟨"TRIAL", 9, 1, .sec, 0, none⟩, ⟨"HOLD", 10, 1, .sec, 0, none⟩,
    ⟨"CUST_VALID", 11, 1, .sec, 0, none⟩]⟩,
  ⟨"UPD_BLOCKS", 0x18000C, [], [⟨"BLOCKS", 0, 32, .sec, 0, none⟩]⟩,
  ⟨"UPD_DONE", 0x180010, [], [⟨"DONE", 0, 32, .sec, 0, none⟩]⟩,
  ⟨"UPD_BANK_SEQ", 0x180014, [], [⟨"SEQ", 0, 32, .sec, 0, none⟩]⟩,
  ⟨"UPD_SVN_LO", 0x180018, [], [⟨"SVN_0", 0, 7, .ro, 0, none⟩, ⟨"SVN_1", 8, 7, .ro, 0, none⟩,
    ⟨"SVN_2", 16, 7, .ro, 0, none⟩, ⟨"SVN_3", 24, 7, .ro, 0, none⟩]⟩,
  ⟨"UPD_SVN_HI", 0x18001C, [], [⟨"SVN_4", 0, 7, .ro, 0, none⟩, ⟨"SVN_5", 8, 7, .ro, 0, none⟩,
    ⟨"SVN_6", 16, 7, .ro, 0, none⟩]⟩,
  ⟨"UPD_PARTNER", 0x180020, [], [⟨"PEER_MIN", 0, 4, .sec, 0, none⟩, ⟨"PEER_MAX", 4, 4, .sec, 0, none⟩,
    ⟨"STATE", 8, 3, .sec, 0, none⟩, ⟨"TRIAL", 11, 1, .sec, 0, none⟩, ⟨"VALID", 12, 1, .sec, 0, none⟩]⟩,
  ⟨"UPD_PARTNER_UCODE", 0x180024, [], [⟨"VER", 0, 32, .sec, 0, none⟩]⟩,
  ⟨"UPD_INT_STAT", 0x180030, [], [⟨"EVT", 0, 14, .w1c, 0, none⟩]⟩,
  ⟨"UPD_INT_EN", 0x180034, [], [⟨"EVT", 0, 14, .rw, 0, none⟩]⟩,
  ⟨"UPD_VER_c", 0x180040, [(0x4, 7)], [⟨"VER", 0, 32, .sec, 0, none⟩]⟩]

/-- The rows of the block in peripheral slot `n` (R4); slot 0x0F and every slot above 0x1C is unpopulated. -/
def slotRows (n : Nat) : List RegRow :=
  match n with
  | 0 => regsSys
  | 1 => regsPwr
  | 2 => regsAng
  | 3 => regsAcq
  | 4 => regsKzc
  | 5 => regsEst
  | 6 => regsProt
  | 7 => regsLsw
  | 8 => regsCpx
  | 9 => regsWld
  | 10 => regsAix
  | 11 => regsBrg
  | 12 => regsPeer
  | 13 => regsEth
  | 14 => regsEth
  | 16 => regsCan
  | 17 => regsCan
  | 18 => regsCan
  | 19 => regsCan
  | 20 => regsCan
  | 21 => regsCan
  | 22 => regsNsm
  | 23 => regsRec
  | 24 => regsUpd
  | 25 => regsIox
  | 26 => regsTwp
  | 27 => regsDbg
  | 28 => regsCfg
  | _ => []

end Sys2Proof.Machine
end

