-- ==== Sys2Proof/Machine/Tab.lean ====
section
/-!
DEFINITION. Machine/Tab.lean: the operations on sparse maps and on the bits of a register.
-/

namespace Sys2Proof.Machine

/-- What key `k` reads as, `d` giving what a key without an entry reads as. -/
def tabGet {α : Type} (d : Nat → α) : Tab α → Nat → α
  | [], k => d k
  | (k', v) :: t, k => if k' = k then v else tabGet d t k

/-- An entry put in its place in rising order of key. -/
def tabPut {α : Type} : Tab α → Nat → α → Tab α
  | [], k, v => [(k, v)]
  | (k', v') :: t, k, v =>
    if k' = k then (k, v) :: t
    else if k < k' then (k, v) :: (k', v') :: t
    else (k', v') :: tabPut t k v

/-- The entry of a key taken away. -/
def tabDel {α : Type} : Tab α → Nat → Tab α
  | [], _ => []
  | (k', v') :: t, k => if k' = k then tabDel t k else (k', v') :: tabDel t k

/-- A write: an entry equal to what an unlisted key reads as is taken away, so that equal maps are equal data. -/
def tabSet {α : Type} [DecidableEq α] (d : Nat → α) (t : Tab α) (k : Nat) (v : α) : Tab α :=
  if v = d k then tabDel t k else tabPut t k v

/-- Whether every key lies above `k` and the keys rise. -/
def tabRises {α : Type} : Nat → Tab α → Bool
  | _, [] => true
  | k, (k', _) :: t => decide (k < k') && tabRises k' t

/-- The canonical form: keys strictly rising, no entry equal to what an unlisted key reads as. -/
def tabWf {α : Type} [DecidableEq α] (d : Nat → α) (t : Tab α) : Bool :=
  (match t with
    | [] => true
    | (k, _) :: t' => tabRises k t') && t.all (fun e => decide (e.2 ≠ d e.1))

/-- Bits `lo` to `lo + width - 1` of a number. -/
def bitsOf (n lo width : Nat) : Nat := (n >>> lo) % 2 ^ width

/-- `n` with bits `lo` to `lo + width - 1` replaced by the low bits of `v`. -/
def bitsPut (n lo width v : Nat) : Nat :=
  (n % 2 ^ lo) ||| ((v % 2 ^ width) <<< lo) ||| ((n >>> (lo + width)) <<< (lo + width))

/-- Bit `i` of a mask. -/
def maskBit (m i : Nat) : Bool := m.testBit i

/-- A mask with bit `i` set or cleared. -/
def maskPut (m i : Nat) (b : Bool) : Nat := bitsPut m i 1 (if b then 1 else 0)

/-- The number of ones among the low `n` bits. -/
def onesIn (m : Nat) : Nat → Nat
  | 0 => 0
  | n + 1 => onesIn m n + (if m.testBit n then 1 else 0)

/-- A 32-bit difference taken as a signed number (R41). -/
def sdiff32 (a b : Nat) : Int := (BitVec.ofNat 32 (a + (2 ^ 32 - b % 2 ^ 32))).toInt

/-- A signed value in `w` bits, two's complement. -/
def toSigned (w n : Nat) : Int := (BitVec.ofNat w n).toInt

/-- The `w`-bit pattern of a signed value. -/
def ofSigned (w : Nat) (i : Int) : Nat := (BitVec.ofInt w i).toNat

/-- A count that stops at `top`. -/
def satAdd (n k top : Nat) : Nat := min (n + k) top

/-- The low `n` numbers that satisfy `p`, in rising order. -/
def below (n : Nat) (p : Nat → Bool) : List Nat := (List.range n).filter p

/-- A number of 1 for true and 0 for false. -/
def b2n (b : Bool) : Nat := if b then 1 else 0

/-- The element at a place of a list replaced. -/
def listPut {α : Type} : List α → Nat → α → List α
  | [], _, _ => []
  | _ :: t, 0, v => v :: t
  | h :: t, n + 1, v => h :: listPut t n v

/-- Whether a distance from a row's first register is one of its repetitions. -/
def coversFrom : List (Nat × Nat) → Nat → Bool
  | [], r => r == 0
  | (stride, n) :: ds, r => decide (r / stride < n) && coversFrom ds (r % stride)

end Sys2Proof.Machine
end

