-- ==== Sys2Proof/Machine/RegFile.lean ====
section
/-!
DEFINITION. Machine/RegFile.lean: which row of the tables a register number names, and its value after reset.
-/

namespace Sys2Proof.Machine

/-- Whether a row of a register table covers register number `a`. -/
def rowCovers (r : RegRow) (a : Nat) : Bool := decide (r.off ≤ a) && coversFrom r.dims (a - r.off)

/-- The row of register number `a`; none at a reserved offset (R7), in an unpopulated slot (R4), and in the reserved page of
drawer 0 (R363). -/
def regRow (a : Nat) : Option RegRow :=
  if a % 4 = 0 ∧ ¬(0xA1000 ≤ a ∧ a < 0xA1100) then (slotRows (a / 0x10000)).find? (fun r => rowCovers r a) else none

/-- The fields of register number `a`. -/
def regFields (a : Nat) : List FieldRow :=
  match regRow a with
  | some r => r.fields
  | none => []

/-- The value of register number `a` after reset (R8). -/
def regReset (a : Nat) : Word :=
  BitVec.ofNat 32 ((regFields a).foldl (fun n f => n ||| (f.reset <<< f.lo)) 0)

end Sys2Proof.Machine
end

