-- ==== Sys2Proof/Machine/State.lean ====
section
/-!
DEFINITION. Machine/State.lean: everything the spec gives the block, as plain data.
Registers are in `Dev.regs`, the rest of each block in a structure of its own; memories are in `State.mem`.
-/

namespace Sys2Proof.Machine

/-- Why a command stops the model. Raised by no meaning: every command of the table has an effect in the spec, and the
two names stand for what the model's own data could not hold. -/
inductive Fault where
  /-- Raised by nothing; an access outside the address map is the bus error of R3, which is an effect. Safe. -/
  | outsideMap
deriving DecidableEq, Repr

/-- Why a command has no meaning here. -/
inductive Refusal where
  /-- Raised by `exec` alone, for a row whose meaning has not been written. Safe. -/
  | notModelled (mnemonic : String)
deriving DecidableEq, Repr

/-! ### Pair (01) -/

/-- What a member keeps of its own frame for the comparison with the partner's message (R34, R182): the digests and coverage maps of a
published set, and by chain the positions queued and not reinitialised. A skipped frame has neither digest nor queued position. -/
structure OwnSet where
  frame : Nat
  published : Bool := false
  digests : List Nat := []
  zone : Nat := 0
  coverage : List Nat := []
  test : List Nat := []
  whole : Bool := false
deriving DecidableEq, Repr

/-- The pair beyond its registers. -/
structure Pair where
  /-- pair mode of the image (R23): 0 single, 1 series drive, 2 parallel drive; configured preference: primary -/
  mode : Nat := 0
  prefers : Bool := false
  /-- PAIR_SLOT as sampled at the release of reset: slot B (R22) -/
  slotB : Bool := false
  /-- R25, by the codes of R37: 0 single, 1 ALONE_WAIT, 2 NEGOTIATE, 3 PRIMARY, 4 SECONDARY, 5 LONE -/
  role : Nat := 0
  /-- this member entered NEGOTIATE from LONE (R26) -/
  fromLone : Bool := false
  /-- the partner's last role message, and its configuration CRC (R23) -/
  report : Option RoleReport := none
  partnerCrc : Option Nat := none
  /-- the zone state of the partner's last frame, the tick at which it was first reported, and whether the monitor was expected to pulse
  at the last frame before the link went down (R36) -/
  partnerZone : Nat := 0
  partnerZoneAt : Nat := 0
  monitorDue : Bool := false
  /-- CONFIG_MISMATCH and PAIR_SLOT_CONFLICT have been recorded -/
  mismatchTold : Bool := false
  conflictTold : Bool := false
  /-- digest messages that wait for the own publication of their frame (R34), newest first -/
  digests : List DigestMsg := []
  /-- the own sets of the frames last published or skipped, newest first (R34, R182) -/
  sets : List OwnSet := []
  /-- chains not compared for unequal coverage (R34) -/
  notCompared : Nat := 0
  /-- mismatches in a row by chain, and the chains whose estimates are STALE for disagreement (R35) -/
  digestRun : Tab Nat := []
  disagree : Nat := 0
  /-- late digests (R33) -/
  lateDigests : Nat := 0
deriving DecidableEq, Repr

/-! ### Grid angle (02) -/

/-- One phase as the tracker has classified it (R46, R50). Band codes 0 to 4 as R46; 5 while unclassified. -/
structure PhaseBand where
  band : Nat := 5
  raw : Nat := 5
  requal : Nat := 0
  sagAt : Option Nat := none
  swellAt : Option Nat := none
deriving DecidableEq, Repr

/-- A window set of R68. -/
structure WinSet where
  start : Nat := 0x1000
  len : Nat := 0x999A
  slack : Nat := 0x199A
  pubMin : Nat := 0x1000
  acqEnd : Nat := 0xC000
deriving DecidableEq, Repr

/-- The PTP epoch and frequency in use (R60). -/
structure PtpSet where
  sec : Nat := 0
  ns : Nat := 0
  freq : Nat := 0x02FAF080
deriving DecidableEq, Repr

/-- The angle block beyond its registers. -/
structure Ang where
  /-- the 80-bit accumulator of R40: cycle, count and 2^-32 counts -/
  acc : Nat := 0
  /-- while HELD is 1: 2^-32 counts until the tracked angle reaches the timestamp (R54) -/
  hold : Nat := 0
  /-- the increment without a slew correction -/
  incBase : Nat := 0x08637BD0
  /-- the frequencies of the last 10 cycles, newest first (R61) -/
  freqs : List Nat := []
  /-- the same for the selected source -/
  srcFreqs : List Nat := []
  phA : PhaseBand := {}
  phB : PhaseBand := {}
  phC : PhaseBand := {}
  /-- consecutive cycles of wrong rotation (R45) -/
  rotBad : Nat := 0
  /-- consecutive cycles outside 45 to 66 Hz (R51) -/
  freqBad : Nat := 0
  /-- disqualified by frequency, and the cycles inside the range since (R51) -/
  freqOut : Bool := false
  freqOk : Nat := 0
  /-- cycles of convergence in PULL_IN (R47) -/
  pullOk : Nat := 0
  /-- cycles back in NORMAL or SWELL in RIDE (R47) -/
  rideOk : Nat := 0
  /-- LINE has been disqualified, and the cycles in LOCKED or RIDE since (R57) -/
  lineOut : Bool := false
  lineOk : Nat := 0
  /-- the next entry into LOCKED makes an initial alignment (R48) -/
  alignDue : Bool := true
  /-- the differences kept for the sources, source minus timestamp, counts (R58) -/
  diffLine : Int := 0
  diffPeer : Int := 0
  diffPtp : Int := 0
  /-- cycles each source has stayed qualified (R58) -/
  qualLine : Nat := 0
  qualPeer : Nat := 0
  qualPtp : Nat := 0
  /-- consistent angle messages in a row, and the last difference of partner and own timestamp (R59) -/
  peerGood : Nat := 0
  peerLast : Option Int := none
  /-- Sync intervals in a row with an offset of at most 10 µs (R57) -/
  ptpGood : Nat := 0
  /-- messages in a row whose cycle number differs, and the whole cycles to add at the next boundary (R66) -/
  relabelRun : Nat := 0
  relabelBy : Option Int := none
  ptpUse : PtpSet := {}
  ptpNext : Option PtpSet := none
  /-- counts of slew correction still to make, and the count of the present cycle up to which it has been reckoned (R53) -/
  slewLeft : Int := 0
  slewAt : Nat := 0
  /-- a source has been qualified since reset or wake (R57) -/
  everOk : Bool := false
  /-- phase A was given up in COAST: the cycles it has been back above COAST (R47, R49) -/
  aWait : Option Nat := none
  /-- the change of the reference fundamental's phase over the cycle, while it is tracked alongside another source (R52) -/
  lineMove : Int := 0
  /-- a timestamp step, hold or slew fell in the present cycle, and in the one before (R56) -/
  disturbed : Bool := false
  disturbedPrev : Bool := false
  win : WinSet := {}
  /-- the set checked last -/
  winSeen : WinSet := {}
  trimUse : Int := 0
  /-- a forward step has passed count 0 and the per-cycle work is still to be done -/
  wrapped : Bool := false
  /-- by slot: the timestamp of its last firing, plus 1 -/
  slotAt : Tab Nat := []
  /-- timestamp bits 47 to 32 latched for each trestle (R42) -/
  nowHi : Tab Nat := []
  /-- the late run of R70: its frames, its first frame, and the processed frames in a row that met their own window -/
  lateRun : Nat := 0
  lateFirst : Nat := 0
  decimGood : Nat := 0
deriving DecidableEq, Repr

/-! ### Kazilo chains (03) -/

/-- An enumeration in progress (R124). -/
structure EnumRun where
  full : Bool := true
  /-- the accepted answers, by position -/
  answers : Tab (Option EnumResp) := []
  /-- the ENUM came back at the opposite end, or the secondary reported it there -/
  returned : Bool := false
  /-- a satellite without a position has been recorded for the ENUM under way -/
  strayA : Bool := false
  strayB : Bool := false
  /-- the answers of satellites that took no position, and the lowest version among them (R123, R129) -/
  strays : Nat := 0
  strayVer : Option Nat := none
deriving DecidableEq, Repr

/-- The outstanding service transaction of a chain (R106). -/
structure SvcRun where
  write : Bool
  pos : Nat
  addr : Nat
  data : Nat
  seq : Nat
  tries : Nat
  /-- the frame waits to be sent again: after a timeout, or 100 µs after a busy answer -/
  again : Bool := false
  busy : Bool := false
deriving DecidableEq, Repr

/-- One chain beyond its registers. -/
structure Chain where
  /-- the state that takes effect at the next SYNC trigger (R115) -/
  next : Option Nat := none
  /-- a receiver that discards until the next SOF (R109) -/
  discardA : Bool := false
  discardB : Bool := false
  run : Option EnumRun := none
  /-- a fill-in ENUM is due (R126); it is due for the B segment alone (R140) -/
  fillDue : Bool := false
  fillB : Bool := false
  /-- frames in a row without an accepted burst, as a master (R116) -/
  idle : Nat := 0
  /-- later copies of bursts from the other port (R107) -/
  copies : Nat := 0
  /-- CHAIN_UP is still to be recorded (R124) -/
  upDue : Bool := false
  /-- the alert enable of the last ENUM_COMMIT -/
  alerts : Bool := false
  /-- a SYNC left for this cycle; that from A has arrived at the B end, that from B at the A end -/
  sent : Bool := false
  /-- tick at which that SYNC left -/
  syncAt : Nat := 0
  retA : Bool := false
  retB : Bool := false
  /-- consecutive cycles without the SYNC from A at the B end (R117), and intact cycles or frames (R120) -/
  syncMiss : Nat := 0
  healRun : Nat := 0
  /-- the break under way: its cycle, and the positions known so far (R117) -/
  broken : Option Nat := none
  breakLast : Option Nat := none
  breakFirst : Option Nat := none
  breakTold : Bool := true
  /-- the positions a copy of whose burst has been committed at A and at B for the frame collected -/
  gotA : Nat := 0
  gotB : Nat := 0
  /-- positions recorded as DELAY_DERIVED since the break (R140) -/
  derivedTold : Nat := 0
  /-- a listener has seen an ENUM since its last report to the primary (R117) -/
  enumSeen : Bool := false
  /-- CHAIN_TAKEOVER is still to be recorded (R37) -/
  takeoverDue : Bool := false
  /-- travel time of the last SYNC from A that arrived, ns (R140) -/
  rtLast : Nat := 0
  /-- the primary's A delays, by position plus 1 (R140) -/
  dlyPrimary : Tab Nat := []
  /-- orders and increment of the SYNC of the present cycle and of the one before (R138, R139) -/
  ordNow : Option (Nat × Nat) := none
  ordPrev : Option (Nat × Nat) := none
  incNow : Nat := 0
  incPrev : Nat := 0
  /-- a listener's SYNC of a cycle that its own trigger has not begun: the cycle, the orders and the increment (R138) -/
  ordRecv : Option (Nat × Nat × Nat × Nat) := none
  /-- RETX sent in this frame, the one outstanding, and the mask of those tried (R110) -/
  retxSent : Nat := 0
  retxOut : Option Nat := none
  retxTried : Nat := 0
  svc : Option SvcRun := none
  svcSeq : Nat := 0
deriving DecidableEq, Repr

/-- An entry of the alert FIFO (R132). -/
structure AlertEntry where
  word : Nat
  ts : Nat
deriving DecidableEq, Repr

/-- An alert remembered for R112. -/
structure AlertSeen where
  chain : Nat
  port : Port
  p : Nat
  c : Nat
  a : Nat
  clk : Nat
deriving DecidableEq, Repr

/-- The chain link block beyond its registers. -/
structure Kzc where
  chains : Tab Chain := []
  fifo : List AlertEntry := []
  /-- alerts lost since the FIFO was full -/
  lost : Nat := 0
  /-- arrival timestamps latched for each trestle, plus 1 (R132) -/
  latch : Tab Nat := []
  recent : List AlertSeen := []
  /-- the frame being collected (R107) -/
  collect : Option Nat := none
  /-- the UIDs of the image's enumeration table, by chain and position (R125, R377) -/
  uids : Tab Nat := []
deriving DecidableEq, Repr

/-! ### Acquisition (04) -/

/-- One position beyond its register: the latest record as received, and what follows from it. -/
structure Pos where
  /-- the latest accepted burst, header and body (R101) -/
  burst : List Byte := []
  /-- its FRAME, and whether there is one since reset or enumeration (R144) -/
  frame : Option Nat := none
  /-- CRC of the first copy committed for the frame collected (R107) -/
  crc : Option Nat := none
  /-- the port of that copy -/
  port : Port := .a
  /-- the frame that its latest burst entered, and the timestamp of that burst's EOF -/
  entered : Option Nat := none
  eof : Nat := 0
  /-- frames in a row without a burst (R117, R126) -/
  silent : Nat := 0
  /-- POSITION_LOST has been recorded and not yet POSITION_RESTORED -/
  lostTold : Bool := false
  /-- the satellite has reported a reset and awaits numbering (R126) -/
  awaits : Bool := false
  /-- its exclusion has ended, and the next SYNC has not left (R127) -/
  rejoins : Bool := false
  /-- cause of the exclusion in force (R125) -/
  cause : Nat := 0
  /-- firmware version of the last answer (R498) -/
  fw : Nat := 0
  /-- MAXVER of the last answer, 0 when there is none (R489) -/
  maxVer : Nat := 0
deriving DecidableEq, Repr

/-- One string as acquisition keeps it. -/
structure StringAcq where
  /-- it has been measured once since reset or return (R145) -/
  once : Bool := false
  /-- frames unmeasured since STRING_UNMEASURED, 0 when STRING_MEASURED has followed -/
  unmeas : Nat := 0
  /-- frame for which it was evaluated, and the unexcited flags of that frame (R147) -/
  evalFrame : Option Nat := none
  unexcP : Bool := false
  unexcQ : Bool := false
  measQ : Bool := false
  /-- frames unexcited in a row (R148) -/
  starve : Nat := 0
deriving DecidableEq, Repr

/-- Acquisition beyond its registers. -/
structure Acq where
  pos : Tab Pos := []
  str : Tab StringAcq := []
  /-- the frame last closed -/
  closed : Option Nat := none
  /-- angle-poor at the trigger that started the present cycle, and the verdict on the cycle before (R142) -/
  poorNow : Bool := false
  poorPrev : Bool := false
  /-- excitation: the message counter, the cycle of the last request, and the frame of the first (R148, R149) -/
  excCount : Nat := 0
  excLast : Nat := 0
  excFirst : Nat := 0
  /-- the tick of the last write to ACQ_CTRL, and BAL_EN before that tick (R134) -/
  balOld : Option (Nat × Bool) := none
  /-- balancing permission carried by the last SYNC (R134) -/
  balSent : Bool := false
  /-- count of the last EOF of the frame collected, by chain -/
  lastEof : Tab Nat := []
deriving DecidableEq, Repr

/-! ### Estimator bench (05) -/

/-- An entry of the estimator input FIFO (R167): what the bench needs of a ready position and of its head for one frame. The
pass flags are those of R141, the unexcited flags those of R147, the delays those of R140. -/
structure EstEntry where
  frame : Nat
  chain : Nat
  pos : Nat
  string : Nat
  burst : List Byte
  cur : Nat
  phP : Bool
  phQ : Bool
  unexcP : Bool
  unexcQ : Bool
  ordP : Nat
  ordQ : Nat
  inc : Nat
  dlyPos : Nat
  dlyHead : Nat
deriving DecidableEq, Repr

/-- A frame in the ledger of a string (R169); no mean current is the missing mark. -/
structure LedgerEntry where
  frame : Nat
  inc : Nat
  imean : Option Int := none
deriving DecidableEq, Repr

/-- A request of EST_CELL_INIT (R189), and the cells whose reinitialisation has consumed it. -/
structure InitReq where
  all : Bool
  cell : Nat
  due : Option Nat
  done : Nat := 0
deriving DecidableEq, Repr

/-- The estimator beyond its registers and its store. -/
structure Est where
  /-- the last 16 frames of each string, newest first (R169) -/
  ledgers : Tab (List LedgerEntry) := []
  /-- positions ready and not yet queued -/
  fifo : List EstEntry := []
  /-- positions queued for the frame in work, the next cell of the first of them, and the recomputes it has failed -/
  queue : List EstEntry := []
  cell : Nat := 0
  tries : Nat := 0
  /-- the lane that failed the run before, and by lane the fabric cycle from which it is free (R174, R176) -/
  failLane : Option Nat := none
  laneAt : Tab Nat := []
  /-- the frame in work, the frame last worked or skipped, and the frame whose cut-off has passed last -/
  work : Option Nat := none
  considered : Option Nat := none
  cut : Option Nat := none
  /-- by chain: the positions queued for the frame, and those with a reinitialisation that R182 does not admit -/
  queued : Tab Nat := []
  foreign : Tab Nat := []
  /-- cells whose block has been written for the frame -/
  done : Nat := 0
  /-- lane-cycles used for the frame -/
  cycles : Nat := 0
  /-- the frame whose publish window runs, and the timestamp of that window's end (R67) -/
  pub : Option Nat := none
  pubEnd : Nat := 0
  /-- cells initialised since the store was (R165), those not updated since a return from S2, and the causes that an attempt
  could not serve, plus 1 (R166) -/
  inited : Nat := 0
  woken : Nat := 0
  retry : Tab Nat := []
  /-- chains whose INIT_DONE has been recorded -/
  initTold : Nat := 0
  req : Option InitReq := none
  /-- a request that was due when a later one replaced it -/
  reqDue : Option InitReq := none
  /-- residue errors: lane and frame (R176) -/
  laneErrs : List (Nat × Nat) := []
  /-- lanes under self-test -/
  testing : Nat := 0
  /-- frames with cells held, by bad chemistry set, and frames skipped for the microcode (R185) -/
  badFrames : Tab Nat := []
  ucodeFrames : Nat := 0
  /-- since the processing cycle of a skipped frame began no set was published (R184) -/
  stale : Bool := false
  /-- unaligned positions by chain, whether every position is to be marked, positions installed so far (R182, R183) -/
  unaligned : Tab Nat := []
  alignAll : Bool := true
  installed : Nat := 0
  /-- the request to serve in the publish window, and a transfer to install: its frame and blocks -/
  alignReq : List (Nat × Nat) := []
  xfer : Option (Nat × List PosBlocks) := none
  /-- by chain, of the set published: its coverage map (R33) -/
  coverage : List Nat := []
deriving DecidableEq, Repr

/-! ### Protection (06) -/

/-- A limit entry, or the limit of an analog input, for one source (R196): the evaluations in a row in which its condition
held, those in which the quantity stood on the safe side, and whether it is active. -/
structure Limit where
  up : Nat := 0
  down : Nat := 0
  active : Bool := false
deriving DecidableEq, Repr

/-- A string's sequencer beyond its registers. -/
structure Seq where
  /-- tick of the close's acceptance, of the entry into the present state, and of the present step's own edge -/
  acceptAt : Nat := 0
  enterAt : Nat := 0
  edgeAt : Nat := 0
  /-- OPENING: POS and PRE are off since this tick (R211) -/
  gapAt : Option Nat := none
  /-- POS: PRE is off and its feedback is awaited (R208) -/
  preOff : Bool := false
  /-- frames in a row at or below PRE_IEND, and the last of them (R208) -/
  preFrames : Nat := 0
  preLast : Option Nat := none
  /-- frames in a row at or below OPEN_IMAX since OPENING (R211) -/
  openFrames : Nat := 0
  /-- the string's latest IMEAN, mA (R103) -/
  imean : Option Int := none
deriving DecidableEq, Repr

/-- A step agreed with the partner for an edge in a target cycle (R214). Phase: 0 requested, 1 to be driven by the member
that leads; 2 confirmed, 3 to be driven by the member that follows. -/
structure Handshake where
  string : Nat
  role : Nat
  on : Bool
  cycle : Nat
  phase : Nat
deriving DecidableEq, Repr

/-- Protection beyond its registers. -/
structure Prot where
  /-- the first CONFIG_COMMIT since reset has succeeded (R191) -/
  runs : Bool := false
  /-- limits by `limitKey` (R195), and those of the analog inputs -/
  limits : Tab Limit := []
  ains : Tab Limit := []
  seqs : Tab Seq := []
  /-- the close queue, oldest first (R210) -/
  queue : List Nat := []
  /-- coils commanded on, by channel code 0 to 47 (R207) -/
  coils : Nat := 0
  hs : Option Handshake := none
  /-- the debounced levels of the switch inputs before INV, or whether a partner monitor pulses (R225, R226) -/
  swRaw : Nat := 0
  zoneLatch : Bool := false
  /-- ENGINE_HOLD: the state before it, and the tick of entry (R217) -/
  holdPrev : Nat := 0
  holdAt : Nat := 0
  /-- low-side outputs shut down for over-current (R524) -/
  lsoShut : Nat := 0
deriving DecidableEq, Repr

/-! ### Load switches (07) -/

/-- One load channel beyond its page. -/
structure Chan where
  /-- inside its pull-in time, its slew ramp, its inrush window -/
  pull : Bool := false
  ramp : Bool := false
  inrush : Bool := false
  /-- tick of the last turn-off under R244 or R245 -/
  lastProt : Option Nat := none
  /-- SHED, and ON has been written 0 since (R250) -/
  shedZero : Bool := false
  /-- the duty in force (R235) -/
  duty : Nat := 1024
  /-- the tick in which the running pattern's last period started, none when the switch follows no pattern; its period, ns; and the tick of
  the last period start (R235) -/
  patternAt : Option Nat := none
  period : Nat := 0
  startAt : Option Nat := none
  /-- unbound, in ENGINE_HOLD: on, or in WAIT, at entry (R230) -/
  heldOn : Bool := false
  /-- turned off under R245 and not yet at the restart temperatures -/
  hot : Bool := false
  /-- evaluated milliseconds with I_ON below OL_TH (R241) -/
  lowMs : Nat := 0
deriving DecidableEq, Repr

/-- A supply excursion: its first tick and the extreme of VAUX, mV (R253). -/
structure Excursion where
  clk : Nat
  extreme : Nat
deriving DecidableEq, Repr

/-- The load switches beyond their registers. -/
structure Lsw where
  chans : Tab Chan := []
  ov : Option Excursion := none
  uv : Option Excursion := none
  /-- ground is lost (R251) -/
  noGround : Bool := false
  /-- the module losses of the averaging time, newest first, mW (R250) -/
  losses : List Nat := []
  /-- channels shed in the excursion above the budget, and whether the empty mask has been recorded -/
  shed : Nat := 0
  emptyTold : Bool := false
deriving DecidableEq, Repr

/-! ### Trestles (08) -/

/-- The architectural state of a trestle's hart (R268). CSRs that R291 banks are kept by number for normal world and by number
+ 0x1000 for secure world. -/
structure Arch where
  pc : DWord := 0
  x : Tab DWord := []
  f : Tab DWord := []
  csr : Tab DWord := []
  /-- privilege: 0 U, 1 S or HS, 3 M; virtualisation mode; world (R289) -/
  priv : Nat := 3
  v : Bool := false
  w : Bool := true
  /-- MWORLD.MPW, WEPC, WSTATUS and WTENANT (R290, R297, R302) -/
  mpw : Bool := true
  wepc : DWord := 0
  wstatus : BitVec 5 := 0
  wtenant : BitVec 3 := 0
  resv : Option (BitVec 40) := none
deriving DecidableEq, Repr

/-- An entry of the epoch store buffer (R269). -/
structure SbEntry where
  addr : Nat
  size : Nat
  data : Nat
  attr : Nat
  committed : Bool := false
deriving DecidableEq, Repr

/-- The load that a trestle has issued and not yet retired: its physical address and attribute byte, and the data or the bus
error cause and detail once it has come. -/
structure BusLoad where
  op : LoadOp
  addr : Nat
  attr : Nat
  data : Option Nat := none
  error : Option (Nat × Nat × Nat) := none
deriving DecidableEq, Repr

/-- The load latch of an I/O load whose epoch has not committed (R270): its address, and its data or error once it has come. -/
structure LoadLatch where
  addr : Nat
  data : Option Nat := none
  error : Option (Nat × Nat × Nat) := none
deriving DecidableEq, Repr

/-- A witness record (R266). -/
structure WitRec where
  din : Nat
  stamp : Nat
deriving DecidableEq, Repr

/-- A trestle beyond its registers. Both cores hold the same state, since a difference is undone or stops the trestle. -/
structure Trestle where
  arch : Arch := {}
  /-- the shadow registers (R268) -/
  shadow : Arch := {}
  /-- instructions retired in the epoch -/
  epoch : Nat := 0
  store : List SbEntry := []
  load : Option BusLoad := none
  latch : Option LoadLatch := none
  /-- the 64-byte lines that the instruction and the data caches hold, by line number, newest first (R260); what a line holds is what
  memory holds -/
  icache : List Nat := []
  dcache : List Nat := []
  /-- the last 8 witness records, newest first, and the DIN levels -/
  wit : List WitRec := []
  din : Nat := 0
  /-- divergences in the interval of R273, and rollbacks of the epoch in a row -/
  divs : Nat := 0
  repeats : Nat := 0
  /-- operating times of the restarts in the window (R279, R280) -/
  restarts : List Nat := []
  /-- where a passed test leads: 0 as at device reset, 1 to RUN, else the state plus 10 (R282, R283) -/
  after : Nat := 0
  /-- local interrupts 16 to 18 pending -/
  irq : Nat := 0
  /-- debug: halted, and a halt that waits for normal world (R284, R315) -/
  halted : Bool := false
  haltDue : Bool := false
  /-- a halt at the next instruction boundary: after a single step, or a halt request while a load waits (R284) -/
  stepDue : Bool := false
deriving DecidableEq, Repr

/-! ### Worlds, tenants and the cabinet (09) -/

/-- A cabinet slot (R317): its bytes (none while empty), and EXP and LK. -/
structure CabSlot where
  bytes : Option (List Byte) := none
  exp : Bool := false
  lk : Bool := false
deriving DecidableEq, Repr

/-- Worlds and tenants beyond their registers. -/
structure Worlds where
  /-- tick at which each tenant entered RESET -/
  resetAt : Tab Nat := []
  cab : Tab CabSlot := []
  /-- OTP bits that a programming in progress raises (R314) -/
  raising : Nat := 0
deriving DecidableEq, Repr

/-! ### Aidex (10) -/

/-- A request in AIX: how it came, its header and payload, and what its row says of its course. `hold`: the engine starts it and does not
commit in the same step; `raw`: queued while TL0 was not in RUN, not yet checked. -/
structure AixReq where
  via : Nat := 0
  src : Nat := 0
  sport : Nat := 0
  ver : Nat := 3
  drawer : Nat := 0
  opcode : Nat := 0
  seq : Nat := 0
  session : Nat := 0
  /-- the key of the session: 4 × drawer + slot, 32 for the wake port -/
  slot : Nat := 0
  payload : List Byte := []
  hold : Bool := false
  raw : Bool := false
  /-- the flash offset of an operation that fails after its commit (R382) -/
  fault : Option Nat := none
deriving DecidableEq, Repr

/-- A reply kept in the cache of a session (R341). -/
structure AixCached where
  seq : Nat
  opcode : Nat
  status : Nat
  payload : List Byte
deriving DecidableEq, Repr

/-- An open session (R330, R332): its HELLO, the reply to it, and the reply cache, newest first. `long`: completed tenant requests
whose reply was too long to cache (R336). -/
structure AixSession where
  id : Nat
  ver : Nat
  src : Nat
  sport : Nat
  host : Nat
  seq : Nat
  opened : Nat
  last : Nat
  reply : List Byte := []
  cache : List AixCached := []
  long : List Nat := []
deriving DecidableEq, Repr

/-- A tenant-class request in a drawer's ring (R335, R336), and whether the tenant has sent an interim reply. -/
structure AixTenant where
  req : AixReq
  begun : Bool := false
deriving DecidableEq, Repr

/-- AIX and the engine's work on requests. -/
structure Aix where
  sessions : Tab (Option AixSession) := []
  queue : List AixReq := []
  /-- the request in progress, and whether it waits for its commit write (else for an event of its own); the ABORTs deferred to it -/
  cur : Option AixReq := none
  held : Bool := false
  /-- the reply of a request that has made its change and waits for its commit: status and fragments -/
  ready : Option (Nat × List (List Byte)) := none
  /-- its interim reply has been sent (R340) -/
  interim : Bool := false
  deferred : List AixReq := []
  /-- what the request in progress has found so far -/
  found : List Nat := []
  tenants : List AixTenant := []
  /-- tenant requests to answer with a status once TL0 runs again (R280, R343) -/
  owed : List (AixReq × Nat) := []
  /-- requests discarded while TL0 was not in RUN (R343) -/
  dropped : Nat := 0
  /-- the reply ready on the wake port, and a sleep that begins when it has been read (R452) -/
  twp : Option (List Byte) := none
  twpSleep : Option Nat := none
deriving DecidableEq, Repr

/-! ### Configuration (11) -/

/-- A boot descriptor of the image (R368, R375). -/
structure BootDesc where
  tl : Nat
  ofs : Nat
  len : Nat
  dest : Nat
  entry : Nat
deriving DecidableEq, Repr

/-- What the image in force says beyond the registers: its zone number (R14) and its boot descriptors. -/
structure Cfg where
  zoneNo : Nat := 0
  boots : List BootDesc := []
deriving DecidableEq, Repr

/-! ### Bridges (12) -/

/-- Who waits for a bridge access: a load of a trestle, a posted store of a trestle, an Aidex service request, a firmware
transfer, an inbound peer request, the debug module, a prefetch alone. -/
inductive Origin where
  | load (t : Nat)
  | store (t : Nat)
  | service (k : Nat)
  | update (n : Nat)
  | peer
  | debug
  | engine
  | prefetch
deriving DecidableEq, Repr

/-- An access in a chain's bridge queue (R392): `need` words carry it, `total` with a prefetch; `got` the words read so far, of which
the first `stale` came before the prefetch buffer was last emptied (R394). -/
structure KzAcc where
  origin : Origin
  write : Bool
  addr : Nat
  size : Nat
  data : Nat := 0
  attr : Nat
  mode : Nat := 0
  need : Nat
  total : Nat
  piece : Nat := 0
  got : List Nat := []
  stale : Nat := 0
  started : Bool := false
  busies : Nat := 0
deriving DecidableEq, Repr

/-- Read data that waits for its presentation (R394), or the error cause, detail and address. -/
structure HeldRead where
  tl : Nat
  attr : Nat
  addr : Nat
  size : Nat
  data : Option Nat
  error : Option (Nat × Nat × Nat)
  clk : Nat
deriving DecidableEq, Repr

/-- An outbound peer request (R402): of an 8-byte access, `half` counts the halves done and `low` holds the first; a prefetch reads
the 64-byte block around the access. `waits`: it has been answered RETRY and is sent again in 20 µs. `stale`: the prefetch buffer has
been emptied since, and does not keep the block (R394). -/
structure PeerReq where
  origin : Origin
  write : Bool
  addr : Nat
  target : Nat
  size : Nat
  data : Nat
  attr : Nat
  mode : Nat
  block : Bool := false
  half : Nat := 0
  low : Nat := 0
  tries : Nat := 0
  waits : Bool := false
  stale : Bool := false
deriving DecidableEq, Repr

/-- An inbound peer request (R403); `dead`: the link went down under it, and its response is discarded. -/
structure PeerIn where
  write : Bool
  addr : Nat
  size : Nat
  data : Nat
  result : Option (Option Nat × Nat) := none
  dead : Bool := false
deriving DecidableEq, Repr

/-- A captured imprecise failure (R396, R413). -/
structure BeEntry where
  addr : Nat
  attr : Nat
  cause : Nat
  src : Nat
  detail : Nat
  ovf : Bool := false
deriving DecidableEq, Repr

/-- The outcome of a bridge access of the management engine: its number, data, and error cause and detail. -/
structure SvcResult where
  origin : Origin
  data : List Nat
  error : Option (Nat × Nat)
deriving DecidableEq, Repr

/-- The bridges and the peer link beyond their registers. -/
structure Bridges where
  kz : Tab (List KzAcc) := []
  /-- accesses held at the fabric port for a full queue (R392) -/
  port : List KzAcc := []
  held : List HeldRead := []
  /-- prefetch buffers by chain, 16 for the peer bridge: address of the first word, and the words -/
  pf : Tab (Nat × List Nat) := []
  beN : Tab (List BeEntry) := []
  beS : Tab (List BeEntry) := []
  ovfN : Tab Nat := []
  ovfS : Tab Nat := []
  /-- outbound peer requests, the first 8 outstanding, the others held at the fabric port -/
  peerOut : List PeerReq := []
  peerIn : List PeerIn := []
  /-- peer frames sent and not acknowledged (R399) -/
  unacked : Nat := 0
  /-- frames to the partner that wait for room among the 32 unacknowledged ones (R399) -/
  waiting : List Output := []
  /-- outcomes for the management engine, oldest first -/
  results : List SvcResult := []
  /-- the bad words of system SRAM, with their byte lanes, and the bad bursts of DRAM, by first address (R407) -/
  bad : List (Nat × Byte) := []
deriving DecidableEq, Repr

/-! ### CAN and network sleep (13) -/

/-- A frame of a transmit queue (R418): `page` 0 or 1 for a frame that reports into TX_DONE, 2 for gateway, Aidex and excitation
frames, 3 for a keep-alive of the NSM. -/
structure CanTx where
  frame : CanFrame
  page : Nat
  tag : Nat := 0
  qat : Nat
  attempts : Nat := 0
  collides : Nat := 0
  cancelled : Bool := false
deriving DecidableEq, Repr

/-- An entry of a receive FIFO (R427). -/
structure CanRx where
  frame : CanFrame
  entry : Nat
  ts : Nat
  ovf : Bool := false
deriving DecidableEq, Repr

/-- An entry of a TX_DONE FIFO (R421). -/
structure CanDone where
  tag : Nat
  outcome : Nat
  ovf : Bool := false
deriving DecidableEq, Repr

/-- A page of a channel beyond its registers: the FIFOs and the frames lost since the receive FIFO was full. -/
structure CanPage where
  rx : List CanRx := []
  lost : Nat := 0
  done : List CanDone := []
deriving DecidableEq, Repr

/-- A CAN channel beyond its registers. -/
structure Can where
  queue : List CanTx := []
  page0 : CanPage := {}
  page1 : CanPage := {}
  /-- the transceiver's move to NORMAL or LISTEN is under way (R433) -/
  moving : Bool := false
  /-- tick at which bus-off was entered -/
  offAt : Nat := 0
  /-- tick of the last CAN_ID_FOREIGN, by entry (R425) -/
  foreign : Tab Nat := []
deriving DecidableEq, Repr

/-- The network sleep manager beyond its registers: the tick after each node's last keep-alive on each channel, by
64 × channel + node (R439), the state S1 to S4 keeps, and the tick at which the timestamp counters stood at 0 (R432). -/
structure Nsm where
  cans : Tab Can := []
  seenAt : Tab Nat := []
  tsBase : Nat := 0
deriving DecidableEq, Repr

/-! ### Power (14) -/

/-- A sleep that has ended with a device reset, as its records give it (R458, R463, R65): the state left, the cycle numbers at its
entry and after it, the elapsed seconds (0xFFFF_FFFF when not measured), the causes of HUTCH_CLOCK, and the Aidex sessions
it closed, by slot. -/
structure SleepPast where
  state : Nat
  oldCycle : Nat
  newCycle : Nat
  seconds : Nat
  clocks : List Nat
  sessions : List Nat
deriving DecidableEq, Repr

/-- Power beyond its registers: the sleep under way (0 none; state, NSM request, past its seal), level and sleep requests held
back, what entry copied into the hutch, and the sleep that a boot has still to record. -/
structure Pwr where
  target : Nat := 0
  nsm : Bool := false
  sealed : Bool := false
  plNext : Option Nat := none
  sleepNext : Option (Nat × Bool) := none
  cycle : Nat := 0
  level : Nat := 0
  wakes : Nat := 0
  /-- wake sources that have asserted since entry began: switch inputs 0 to 47, and 48 the wake port -/
  srcs : Nat := 0
  xcvrs : List Nat := []
  clocks : List Nat := []
  past : Option SleepPast := none
  /-- wake sources are being collected (R385) -/
  collect : Bool := true
  /-- ticks at the last wake or release of reset (R355) -/
  wokeAt : Nat := 0
  /-- slots of the Aidex sessions closed at the seal of S3 or S4 (R450) -/
  shut : List Nat := []
  /-- asleep in S3 or S4 with VAUX below 16 V, and a wake decided meanwhile (R512) -/
  low : Bool := false
  lowWake : Option SleepMeas := none
  /-- VAUX is below the brown-out threshold, or has been and not yet risen to the release threshold (R512) -/
  down : Bool := false
  /-- the boot has run since the release of reset -/
  booted : Bool := false
deriving DecidableEq, Repr

/-! ### Sideboard (15) -/

/-- An event in REC's intake (R471), or a closing record waiting there (R472). -/
structure RecEvent where
  code : Nat
  p1 : Nat
  p2 : Nat
  p3 : Nat
  sw : Bool := false
  tl : Nat := 0
  optime : Nat := 0
  rep : Nat := 0
  close : Bool := false
  early : Bool := false
  carried : Bool := false
deriving DecidableEq, Repr

/-- The run of R472, held in the hutch. -/
structure RecRun where
  code : Nat
  p1 : Nat
  p2 : Nat
  sw : Bool
  tl : Nat
  count : Nat
  p3 : Nat
  optime : Nat
  last : Nat
deriving DecidableEq, Repr

/-- A record of the fallback area (R480). -/
structure RecEntry where
  event : RecEvent
  seq : Nat
  pcyc : Nat
deriving DecidableEq, Repr

/-- The recorder beyond its registers. -/
structure Sideboard where
  intake : List RecEvent := []
  run : Option RecRun := none
  /-- the run that was open at a device reset, closed when the ring opens (R473) -/
  carried : Option RecRun := none
  /-- events lost since the intake was full, and the code of the first (R471) -/
  lostNow : Nat := 0
  lostFirst : Nat := 0
  /-- fallback entry 0 and the ring of the newest 15 records after it (R480) -/
  fallback : List RecEntry := []
  /-- PWR_OPSEC when the newest record was written (R475) -/
  newestAt : Nat := 0
deriving DecidableEq, Repr

/-! ### Field update (16) -/

/-- A chain in SAT_PROGRAM (R498): the position it holds, the step it has reached and the words of LDR_DATA written, the failed
attempts, and whether an access is outstanding. Steps: 0 ERASE, 1 poll, 2 and 3 LDR_PTR, 4 LDR_DATA, 5 and 6 LDR_CRC, 7 and 8
LDR_LEN, 9 COMMIT, 10 poll, 11 SWAP, 12 the satellite restarts. -/
structure SatRun where
  pos : Nat
  step : Nat := 0
  words : Nat := 0
  fails : Nat := 0
  busy : Bool := false
deriving DecidableEq, Repr

/-- The update engine beyond its registers. `header`: the 320 bytes of the open update; `part`: the block in progress;
`when1`, the WHEN of the activation; `asked`: an activation request awaits the partner's answer; `stopped`: the trestles a
customer activation has stopped; `sats`: the chains being programmed; `cancel`: SAT_PROGRAM ends after the positions held.
The staging record and the customer area's state lie in flash at places that the spec does not give: `staged` is the header of a
VALID staging record of class CUSTOMER, `cust` the area's state, 0 erased, 1 WRITING, 2 VALID. `rom`: ROM recovery (R367); `romAt`: the bank that it is building (R502). -/
structure Upd where
  header : List Byte := []
  part : Option (List Byte) := none
  when1 : Bool := false
  asked : Bool := false
  stopped : List Nat := []
  sats : Tab SatRun := []
  cancel : Bool := false
  staged : Option (List Byte) := none
  cust : Nat := 0
  rom : Bool := false
  romAt : Option Nat := none
deriving DecidableEq, Repr

/-! ### The machine -/

/-- The device without its memories and without the queue of waiting commands. -/
structure Dev where
  /-- 100 MHz angle-clock ticks since power-on -/
  clk : Nat := 0
  /-- registers whose value differs from reset, by number -/
  regs : Tab Word := []
  /-- the MODEL's own: how many free values have been drawn -/
  free : Nat := 0
  /-- the MODEL's own: what has been sent out, newest first -/
  out : List Output := []
  pair : Pair := {}
  ang : Ang := {}
  kzc : Kzc := {}
  acq : Acq := {}
  est : Est := {}
  prot : Prot := {}
  lsw : Lsw := {}
  trestles : Tab Trestle := []
  /-- fabric clock cycles since device reset (R286) -/
  fcyc : Nat := 0
  worlds : Worlds := {}
  aix : Aix := {}
  cfg : Cfg := {}
  brg : Bridges := {}
  nsm : Nsm := {}
  pwr : Pwr := {}
  side : Sideboard := {}
  upd : Upd := {}
deriving DecidableEq, Repr

/-- The machine: the queue of waiting commands, the memories, and the device. -/
structure State where
  /-- commands waiting, first in, first out -/
  pending : List Instr
  /-- the bytes of the memories that differ from what an unlisted byte reads as, by physical address -/
  mem : List Host.Cell
  dev : Dev
deriving DecidableEq, Repr

/-- The machine right after reset: every register at the reset value of its table, every memory with nothing listed. -/
def State.reset : State := ⟨[], [], {}⟩

end Sys2Proof.Machine
end

