-- ==== Sys2Proof/Machine/Flags.lean ====
section
/-!
DEFINITION. Machine/Flags.lean: reading and setting the fields of the register file, and which interrupt status bit each
event of the sideboard sets in its block (R81, R131, R152, R185, R222, R255, R285, R320, R361, R411, R414, R441, R463,
R482, R503).
-/

namespace Sys2Proof.Machine

/-- The value register number `a` holds. -/
def regGet (d : Dev) (a : Nat) : Word := tabGet regReset d.regs a

/-- Register number `a` given a value by hardware. -/
def regPut (a : Nat) (w : Word) (d : Dev) : Dev := { d with regs := tabSet regReset d.regs a w }

/-- The value of a field. -/
def fget (f : Fld) (d : Dev) : Nat := bitsOf (regGet d f.reg).toNat f.lo f.width

/-- A field set by hardware; its register's other bits stay. -/
def fset (f : Fld) (v : Nat) (d : Dev) : Dev :=
  regPut f.reg (BitVec.ofNat 32 (bitsPut (regGet d f.reg).toNat f.lo f.width v)) d

/-- A one-bit field as a truth value. -/
def flag (f : Fld) (d : Dev) : Bool := fget f d != 0

/-- A one-bit field set from a truth value. -/
def fput (f : Fld) (b : Bool) (d : Dev) : Dev := fset f (b2n b) d

/-- A counter field advanced by `k`, saturating at its width. -/
def fsat (f : Fld) (k : Nat) (d : Dev) : Dev := fset f (satAdd (fget f d) k (2 ^ f.width - 1)) d

/-- A counter field advanced by 1, wrapping at its width. -/
def finc (f : Fld) (d : Dev) : Dev := fset f (fget f d + 1) d

/-- One bit of a field. -/
def fbit (f : Fld) (i : Nat) (d : Dev) : Bool := (fget f d).testBit i

/-- One bit of a field set or cleared. -/
def fbitPut (f : Fld) (i : Nat) (b : Bool) (d : Dev) : Dev := fset ⟨f.reg, f.lo + i, 1⟩ (b2n b) d

/-- A 48-bit mask kept in a low and a high field. -/
def mask48 (lo hi : Fld) (d : Dev) : Nat := fget lo d + fget hi d <<< 32

/-- A 48-bit mask written to its two fields. -/
def mask48Put (lo hi : Fld) (m : Nat) (d : Dev) : Dev := fset hi (m >>> 32) (fset lo m d)

/-- Bit `i` of a 48-bit mask kept in two fields. -/
def mask48Bit (lo hi : Fld) (i : Nat) (d : Dev) : Bool := (mask48 lo hi d).testBit i

/-- Bit `i` of such a mask set or cleared. -/
def mask48BitPut (lo hi : Fld) (i : Nat) (b : Bool) (d : Dev) : Dev :=
  if i < 32 then fbitPut lo i b d else fbitPut hi (i - 32) b d

/-- The interrupt status bit an event sets: the register and the bit. `p1` is the event's first parameter, which names the
channel for CAN events. SOURCE events that set none answer none. -/
def eventFlag (code p1 : Nat) : Option (Nat × Nat) :=
  match code >>> 8 with
  | 0x02 =>
    match code &&& 0xFF with
    | 0x01 => some (R.ANG_INT_STAT, 0)
    | 0x02 => some (R.ANG_INT_STAT, 1)
    | 0x03 => some (R.ANG_INT_STAT, 2)
    | 0x04 => some (R.ANG_INT_STAT, 2)
    | 0x05 => some (R.ANG_INT_STAT, 3)
    | 0x06 => some (R.ANG_INT_STAT, 3)
    | 0x07 => some (R.ANG_INT_STAT, 4)
    | 0x08 => some (R.ANG_INT_STAT, 4)
    | 0x09 => some (R.ANG_INT_STAT, 5)
    | 0x0A => some (R.ANG_INT_STAT, 6)
    | 0x0B => some (R.ANG_INT_STAT, 8)
    | 0x0C => some (R.ANG_INT_STAT, 7)
    | 0x0D => some (R.ANG_INT_STAT, 9)
    | 0x0E => some (R.ANG_INT_STAT, 9)
    | 0x10 => some (R.ANG_INT_STAT, 10)
    | 0x11 => some (R.ANG_INT_STAT, 11)
    | 0x12 => some (R.ANG_INT_STAT, 12)
    | 0x13 => some (R.ANG_INT_STAT, 13)
    | _ => none
  | 0x03 =>
    match code &&& 0xFF with
    | 0x01 => some (R.KZC_INT_STAT, 2)
    | 0x02 => some (R.KZC_INT_STAT, 0)
    | 0x03 => some (R.KZC_INT_STAT, 1)
    | 0x04 => some (R.KZC_INT_STAT, 2)
    | 0x05 => some (R.KZC_INT_STAT, 3)
    | 0x06 => some (R.KZC_INT_STAT, 12)
    | 0x07 => some (R.KZC_INT_STAT, 4)
    | 0x08 => some (R.KZC_INT_STAT, 5)
    | 0x09 => some (R.KZC_INT_STAT, 6)
    | 0x0A => some (R.KZC_INT_STAT, 7)
    | 0x0B => some (R.KZC_INT_STAT, 8)
    | 0x0C => some (R.KZC_INT_STAT, 9)
    | 0x0D => some (R.KZC_INT_STAT, 11)
    | 0x0E => some (R.KZC_INT_STAT, 13)
    | 0x20 => some (R.ACQ_INT_STAT, 1)
    | 0x21 => some (R.ACQ_INT_STAT, 2)
    | 0x22 => some (R.ACQ_INT_STAT, 3)
    | 0x23 => some (R.ACQ_INT_STAT, 4)
    | 0x24 => some (R.ACQ_INT_STAT, 5)
    | 0x25 => some (R.ACQ_INT_STAT, 6)
    | 0x26 => some (R.ACQ_INT_STAT, 7)
    | 0x27 => some (R.ACQ_INT_STAT, 8)
    | _ => none
  | 0x04 =>
    match code &&& 0xFF with
    | 0x01 => some (R.EST_INT_STAT, 1)
    | 0x02 => some (R.EST_INT_STAT, 2)
    | 0x03 => some (R.EST_INT_STAT, 3)
    | 0x04 => some (R.EST_INT_STAT, 4)
    | 0x05 => some (R.EST_INT_STAT, 5)
    | 0x06 => some (R.EST_INT_STAT, 6)
    | 0x07 => some (R.EST_INT_STAT, 7)
    | 0x08 => some (R.EST_INT_STAT, 8)
    | 0x09 => some (R.EST_INT_STAT, 9)
    | 0x0A => some (R.EST_INT_STAT, 10)
    | 0x0B => some (R.EST_INT_STAT, 11)
    | 0x0C => some (R.EST_INT_STAT, 12)
    | 0x0D => some (R.EST_INT_STAT, 13)
    | 0x0E => some (R.EST_INT_STAT, 14)
    | _ => none
  | 0x05 =>
    match code &&& 0xFF with
    | 0x20 => some (R.PROT_INT_STAT, 14)
    | 0x21 => some (R.PROT_INT_STAT, 15)
    | n => if 1 ≤ n ∧ n ≤ 14 then some (R.PROT_INT_STAT, n - 1) else none
  | 0x06 =>
    match code &&& 0xFF with
    | 0x01 => some (R.LSW_INT_STAT, 0)
    | 0x02 => some (R.LSW_INT_STAT, 1)
    | 0x03 => some (R.LSW_INT_STAT, 2)
    | 0x04 => some (R.LSW_INT_STAT, 3)
    | 0x05 => some (R.LSW_INT_STAT, 4)
    | 0x06 => some (R.LSW_INT_STAT, 5)
    | 0x07 => some (R.LSW_INT_STAT, 5)
    | 0x08 => some (R.LSW_INT_STAT, 6)
    | 0x09 => some (R.LSW_INT_STAT, 6)
    | 0x0A => some (R.LSW_INT_STAT, 7)
    | _ => none
  | 0x07 => some (R.CPX_INT_STAT, (code &&& 0xFF) - 1)
  | 0x08 => some (R.WLD_INT_STAT, (code &&& 0xFF) - 1)
  | 0x09 => some (R.AIX_INT_STAT, (code &&& 0xFF) - 1)
  | 0x0A =>
    match code &&& 0xFF with
    | 0x01 => some (R.BRG_INT_STAT, 0)
    | 0x02 => some (R.BRG_INT_STAT, 1)
    | 0x03 => some (R.BRG_INT_STAT, 2)
    | 0x04 => some (R.BRG_INT_STAT, 3)
    | 0x10 => some (R.BRG_INT_STAT, 4)
    | 0x11 => some (R.BRG_INT_STAT, 5)
    | 0x12 => some (R.BRG_INT_STAT, 6)
    | 0x13 => some (R.BRG_INT_STAT, 7)
    | 0x14 => some (R.BRG_INT_STAT, 8)
    | 0x20 => some (R.PEER_INT_STAT, 0)
    | 0x21 => some (R.PEER_INT_STAT, 1)
    | 0x22 => some (R.PEER_INT_STAT, 2)
    | 0x23 => some (R.PEER_INT_STAT, 3)
    | _ => none
  | 0x0B =>
    if code &&& 0xFF < 0x20 then some (R.CAN_INT_STAT (p1 % 8), (code &&& 0xFF) - 1)
    else some (R.NSM_INT_STAT, (code &&& 0xFF) - 0x20)
  | 0x0C => some (R.PWR_INT_STAT, (code &&& 0xFF) - 1)
  | 0x0D => some (R.REC_INT_STAT, (code &&& 0xFF) - 1)
  | 0x0E => some (R.UPD_INT_STAT, (code &&& 0xFF) - 1)
  | _ => none

/-- The interrupt status bit of an event set. -/
def raiseFlag (code p1 : Nat) (d : Dev) : Dev :=
  match eventFlag code p1 with
  | some (r, i) => fset ⟨r, i, 1⟩ 1 d
  | none => d

/-- A block's interrupt line: a bit set in both its status and its enable register. -/
def irqLine (stat en : Nat) (d : Dev) : Bool := (regGet d stat &&& regGet d en) != 0

end Sys2Proof.Machine
end

