-- ==== Sys2Proof/Machine/Ops.lean ====
section
/-!
DEFINITION. Machine/Ops.lean: the operations every block uses: time, what is sent out, events to the sideboard's intake,
free values, and the bytes of the memories.
-/

namespace Sys2Proof.Machine

/-- `f` where `c` holds. -/
def whenB (c : Bool) (f : Dev → Dev) (d : Dev) : Dev := if c then f d else d

/-- One operation for each element of a list, in order. -/
def each {α : Type} (l : List α) (f : α → Dev → Dev) (d : Dev) : Dev := l.foldl (fun d a => f a d) d

/-- A meaning that changes the device and no memory. -/
def onDev (f : Dev → Dev) (s : State) : Host.Outcome State Fault Refusal := .next { s with dev := f s.dev }

/-- A meaning that changes the device and the memories. -/
def onBoth (f : List Host.Cell → Dev → List Host.Cell × Dev) (s : State) : Host.Outcome State Fault Refusal :=
  .next { s with mem := (f s.mem s.dev).1, dev := (f s.mem s.dev).2 }

/-- The block in peripheral slot `i` is cut: its clock gated, held in reset, or unpowered (R461). -/
def cut (i : Nat) (d : Dev) : Bool := fbit F.PWR_CG_CG i d || fbit F.PWR_RST_RST i d || fbit F.PWR_PSW_PSW i d

/-- A meaning that acts in the block of slot `i`: none while the block is cut. -/
def onBlk (i : Nat) (f : Dev → Dev) (s : State) : Host.Outcome State Fault Refusal :=
  .next (if cut i s.dev then s else { s with dev := f s.dev })

/-- The same for a meaning that changes memories too. -/
def onBlkBoth (i : Nat) (f : List Host.Cell → Dev → List Host.Cell × Dev) (s : State) : Host.Outcome State Fault Refusal :=
  .next (if cut i s.dev then s else { s with mem := (f s.mem s.dev).1, dev := (f s.mem s.dev).2 })

/-! ### Time -/

/-- The 48-bit angle timestamp: the accumulator's upper 48 bits (R39, R40). It stands during a hold (R54). -/
def tsNow (d : Dev) : Nat := (d.ang.acc >>> 32) % 2 ^ 48

/-- The cycle number (R39). -/
def cycleNow (d : Dev) : Nat := tsNow d >>> 16

/-- The angle count (R39). -/
def countNow (d : Dev) : Nat := tsNow d % 2 ^ 16

/-- Angle-clock ticks in one millisecond. -/
def tickMs : Nat := 100000

/-- Angle-clock ticks in one microsecond. -/
def tickUs : Nat := 100

/-- Whole milliseconds since tick `t`. -/
def msSince (t : Nat) (d : Dev) : Nat := (d.clk - t) / tickMs

/-- Whole microseconds since tick `t`. -/
def usSince (t : Nat) (d : Dev) : Nat := (d.clk - t) / tickUs

/-! ### What is sent out, and free values -/

/-- Something leaves the block. -/
def send (o : Output) (d : Dev) : Dev := { d with out := o :: d.out }

/-- One free value drawn: the count of draws, and the device with the count advanced. -/
def draw (d : Dev) : Nat × Dev := (d.free, { d with free := d.free + 1 })

/-! ### Events -/

/-- The operating time an event carries (R469). -/
def opTime (d : Dev) : Nat := (fget F.REC_OPBASE_BASE d + fget F.PWR_OPSEC_SEC d) % 2 ^ 32

/-- The closing record of a run (R472). -/
def closingOf (r : RecRun) : RecEvent :=
  { code := r.code, p1 := r.p1, p2 := r.p2, p3 := r.p3, sw := r.sw, tl := r.tl, optime := r.optime, rep := r.count,
    close := true }

/-- An event lost to a full intake (R471). -/
def recLose (code : Nat) (d : Dev) : Dev :=
  let d := fsat F.REC_LOST_CNT 1 d
  { d with side := { d.side with
      lostFirst := if d.side.lostNow = 0 then code else d.side.lostFirst
      lostNow := d.side.lostNow + 1 } }

/-- The open run ends; its closing record enters the intake when the count is above 0 (R472). -/
def recEndRun (d : Dev) : Dev :=
  match d.side.run with
  | none => d
  | some r =>
    let d := { d with side := { d.side with run := none } }
    if r.count = 0 then d
    else if d.side.intake.length < 64 then
      { d with side := { d.side with
          intake := d.side.intake ++ [{ closingOf r with early := !flag F.REC_STATUS_OPEN d }] } }
    else recLose r.code d

/-- Whether an event folds into the open run (R472). -/
def recFolds (e : RecEvent) (d : Dev) : Bool :=
  match d.side.run with
  | none => false
  | some r =>
    r.code == e.code && r.p1 == e.p1 && r.p2 == e.p2 && r.sw == e.sw && e.code >>> 8 != 0x0D
      && fget F.REC_CFG_REPEAT_MS d != 0 && decide (d.clk - r.last ≤ fget F.REC_CFG_REPEAT_MS d * tickMs)

/-- An event handed to REC's intake (R471, R472): folded into the run, accepted at the end of the intake behind the closing
record of the run it ends, or lost. -/
def recAccept (e : RecEvent) (d : Dev) : Dev :=
  if recFolds e d then
    match d.side.run with
    | none => d
    | some r =>
      let d := { d with side := { d.side with
        run := some { r with count := r.count + 1, p3 := e.p3, optime := opTime d, last := d.clk } } }
      if r.count + 1 = 65535 then recEndRun d else d
  else
    let closing := match d.side.run with
      | some r => b2n (decide (r.count ≠ 0))
      | none => 0
    if 64 < d.side.intake.length + closing + 1 then recLose e.code d
    else
      let d := recEndRun d
      let e := { e with optime := opTime d, early := !flag F.REC_STATUS_OPEN d }
      { d with side := { d.side with
          intake := d.side.intake ++ [e]
          run := some { code := e.code, p1 := e.p1, p2 := e.p2, sw := e.sw, tl := e.tl, count := 0, p3 := e.p3,
                        optime := e.optime, last := d.clk } } }

/-- A block records an event: its interrupt status bit is set and the event goes to the intake. Parameters are 32 bits. -/
def record (code p1 p2 p3 : Nat) (d : Dev) : Dev :=
  recAccept { code := code, p1 := p1 % 2 ^ 32, p2 := p2 % 2 ^ 32, p3 := p3 % 2 ^ 32 } (raiseFlag code p1 d)

/-- An event whose third parameter is the cycle number. -/
def recordC (code p1 p2 : Nat) (d : Dev) : Dev := record code p1 p2 (cycleNow d) d

end Sys2Proof.Machine
end

