-- ==== Sys2Proof/Machine/LswOps.lean ====
section
/-!
DEFINITION. Machine/LswOps.lean: what drives a load channel and a low-side output: the binding to coil roles (R207, R229), the
output rule by zone state (R230), turn-on and turn-off.
-/

namespace Sys2Proof.Machine

/-! ### Coil roles (R207) -/

/-- The channel code of a role of string `n`: 0 to 31 load channels, 32 to 47 low-side outputs, 63 none. -/
def roleCh (n : Nat) (r : Role) (d : Dev) : Nat :=
  match r with
  | .neg => fget (F.PROT_STR_A_NEG_CH n) d
  | .pre => fget (F.PROT_STR_A_PRE_CH n) d
  | .pos => fget (F.PROT_STR_A_POS_CH n) d

/-- The feedback input of a role of string `n`: 0 to 47, 63 none. -/
def roleFb (n : Nat) (r : Role) (d : Dev) : Nat :=
  match r with
  | .neg => fget (F.PROT_STR_B_NEG_FB n) d
  | .pre => fget (F.PROT_STR_B_PRE_FB n) d
  | .pos => fget (F.PROT_STR_B_POS_FB n) d

/-- The code of a role in events and messages (R220). -/
def roleCode : Role → Nat
  | .neg => 0
  | .pre => 1
  | .pos => 2

def roles : List Role := [.neg, .pre, .pos]

/-- The strings that are enabled (R207). -/
def stringsOn (d : Dev) : List Nat := below 48 (fun n => flag (F.PROT_STR_A_EN n) d)

/-- The string and role that channel code `c` is bound to. -/
def boundTo (c : Nat) (d : Dev) : Option (Nat × Role) :=
  (stringsOn d).findSome? (fun n => (roles.find? (fun r => roleCh n r d == c)).map (fun r => (n, r)))

/-- A channel code is bound to a coil role (R229). -/
def isBound (c : Nat) (d : Dev) : Bool := (boundTo c d).isSome

/-- PROT's command for channel code `c`. -/
def coilOn (c : Nat) (d : Dev) : Bool := maskBit d.prot.coils c

/-! ### Load channels -/

/-- The zone state (R202). -/
def zone (d : Dev) : Nat := fget F.PROT_STATUS_ZSTATE d

/-- The hidden part of channel `ch`. -/
def chan (ch : Nat) (d : Dev) : Chan := tabGet (fun _ => {}) d.lsw.chans ch

/-- The hidden part of channel `ch` replaced. -/
def chanPut (ch : Nat) (c : Chan) (d : Dev) : Dev :=
  { d with lsw := { d.lsw with chans := tabSet (fun _ => {}) d.lsw.chans ch c } }

/-- What the controller of channel `ch` commands under R230. -/
def chWant (ch : Nat) (d : Dev) : Bool :=
  if isBound ch d then (zone d == 2 || zone d == 3 || zone d == 6) && coilOn ch d
  else match zone d with
    | 0 | 1 => false
    | 2 | 3 => flag (F.LSW_CH_CMD_ON ch) d
    | 6 => (chan ch d).heldOn
    | _ => fget (F.LSW_CH_CFG_SAFE ch) d == 1 || (fget (F.LSW_CH_CFG_SAFE ch) d == 2 && flag (F.LSW_CH_CMD_ON ch) d)

/-- The state of channel `ch` (R258). -/
def chState (ch : Nat) (d : Dev) : Nat := fget (F.LSW_CH_STAT_STATE ch) d

/-- Channel `ch` is on: ON or RAMP. -/
def chIsOn (ch : Nat) (d : Dev) : Bool := chState ch d == 1 || chState ch d == 2

/-- Too hot to restart or to clear: TJ above 155 °C, or DT above 40 K (R245, R247). -/
def chHot (ch : Nat) (d : Dev) : Bool :=
  decide (1240 < toSigned 12 (fget (F.LSW_CH_TEMP_TJ ch) d)) || decide (320 < toSigned 12 (fget (F.LSW_CH_TEMP_DT ch) d))

/-- A supply rule holds every channel off (R251). -/
def supplyHeld (d : Dev) : Bool := d.lsw.ov.isSome || d.lsw.uv.isSome || d.lsw.noGround

/-- A fresh turn-on: pull-in, ramp and inrush window start (R231, R236, R238, R244). -/
def chTurnOn (ch : Nat) (d : Dev) : Dev :=
  let mode := fget (F.LSW_CH_CFG_MODE ch) d
  let pull := mode == 1 && fget (F.LSW_CH_PWM_PULL_MS ch) d != 0
  let ramp := mode == 3
  let inrush := ramp || fget (F.LSW_CH_CFG_INRUSH_MS ch) d != 0
  let d := chanPut ch { chan ch d with pull, ramp, inrush, patternAt := none, hot := false, lowMs := 0 } d
  let d := fset (F.LSW_CH_STAT_STATE ch) (if pull || inrush then 2 else 1) d
  fput (F.LSW_CH_STAT_LIMIT ch) false (fput (F.LSW_CH_STAT_OUT ch) (mode == 0 || ramp || pull) d)

/-- A turn-off into state `st`: the switch opens and the freewheel switch is not engaged (R236). -/
def chTurnOff (ch st : Nat) (d : Dev) : Dev :=
  let d := chanPut ch { chan ch d with pull := false, ramp := false, inrush := false, patternAt := none } d
  let d := fset (F.LSW_CH_STAT_STATE ch) st (fput (F.LSW_CH_STAT_OUT ch) false d)
  fput (F.LSW_CH_STAT_FW ch) false (fput (F.LSW_CH_STAT_LIMIT ch) false d)

/-- Channel `ch` follows its command (R230): LATCHED, SUPPLY and SHED stay as they are; WAIT ends on a command to off. A channel that
is OFF goes to SUPPLY while a supply rule holds (R251), and stays OFF until it has cooled after R245. -/
def chApply (ch : Nat) (d : Dev) : Dev :=
  if cut 7 d then d else
  match chState ch d with
  | 0 =>
    if supplyHeld d then fset (F.LSW_CH_STAT_STATE ch) 5 d
    else if chWant ch d && !((chan ch d).hot && chHot ch d) then chTurnOn ch d else d
  | 1 | 2 => if chWant ch d then d else chTurnOff ch 0 d
  | 3 => if chWant ch d then d else fset (F.LSW_CH_STAT_RESTARTS ch) 0 (chTurnOff ch 0 d)
  | _ => d

/-- The latch of channel `ch` and its restart count clear; from OFF it turns on if it is still commanded on (R247). -/
def chUnlatch (ch : Nat) (d : Dev) : Dev :=
  chApply ch (fset (F.LSW_CH_STAT_RESTARTS ch) 0 (chTurnOff ch 0 d))

/-! ### Low-side outputs (R202, R225, R524) -/

/-- What low-side output `k` is commanded. -/
def lsoWant (k : Nat) (d : Dev) : Bool :=
  if isBound (32 + k) d then (zone d == 2 || zone d == 3 || zone d == 6) && coilOn (32 + k) d
  else match zone d with
    | 0 | 1 => false
    | 2 | 3 => fbit F.IOX_LSO_OUT_ON k d
    | 6 => fbit F.IOX_LSO_STAT_STATE k d
    | _ => fbit F.IOX_LSO_SAFE_SAFE k d

/-- Low-side output `k` follows its command; one shut down for over-current stays off until its command has been 0. -/
def lsoApply (k : Nat) (d : Dev) : Dev :=
  if cut 25 d then d else
  let want := lsoWant k d
  let d := if !want && !isBound (32 + k) d && zone d != 6
    then { d with prot := { d.prot with lsoShut := maskPut d.prot.lsoShut k false } } else d
  fbitPut F.IOX_LSO_STAT_STATE k (want && !maskBit d.prot.lsoShut k) d

/-! ### Outputs together -/

/-- The channel or output of code `c` follows its command. -/
def outApply (c : Nat) (d : Dev) : Dev :=
  if c < 32 then chApply c d else if c < 48 then lsoApply (c - 32) d else d

/-- Every channel and every low-side output follows its command: the output rule of a new zone state (R231). -/
def outputsApply (d : Dev) : Dev := each (List.range 48) outApply d

/-- PROT's command for channel code `c` changed, and the output with it. -/
def coilPut (c : Nat) (on : Bool) (d : Dev) : Dev :=
  if c < 48 then outApply c { d with prot := { d.prot with coils := maskPut d.prot.coils c on } } else d

/-- ENGINE_HOLD begins: the unbound channels are held as they stand, one in WAIT under its own protection (R230). -/
def holdOutputs (d : Dev) : Dev :=
  each (List.range 32) (fun ch d => chanPut ch { chan ch d with heldOn := chIsOn ch d || chState ch d == 3 } d) d

end Sys2Proof.Machine
end

