-- ==== Sys2Proof/Machine/Memory.lean ====
section
/-!
DEFINITION. Machine/Memory.lean: the bytes of the memories of the address map (R3), read and written little-endian (R6),
and the check codes of R11.
-/

namespace Sys2Proof.Machine

/-- First address and size of each memory of R3. -/
def romBase : Nat := 0x0000000000
def sramBase : Nat := 0x0008000000
def storeBase : Nat := 0x0010000000
def flashBase : Nat := 0x0060000000
def mramBase : Nat := 0x0070000000
def dramBase : Nat := 0x0080000000

/-- What a byte that nothing has written reads as: 0xFF in flash, 0 elsewhere (notes/assumptions/3.md). -/
def memRest (a : Nat) : Byte := if flashBase ≤ a ∧ a < flashBase + 0x4000000 then 0xFF else 0

/-- One byte of memory. -/
def memByte (m : List Host.Cell) (a : Nat) : Byte := tabGet memRest m a

/-- One byte of memory written. -/
def memPut (a : Nat) (b : Byte) (m : List Host.Cell) : List Host.Cell := tabSet memRest m a b

/-- `n` bytes from address `a`. -/
def memRead (m : List Host.Cell) (a n : Nat) : List Byte := (List.range n).map (fun i => memByte m (a + i))

/-- Bytes written from address `a` upward. -/
def memWrite : Nat → List Byte → List Host.Cell → List Host.Cell
  | _, [], m => m
  | a, b :: bs, m => memWrite (a + 1) bs (memPut a b m)

/-- The canonical form of the memories: addresses strictly rising, no byte listed that reads as it would unlisted. -/
def Memory.wf (m : List Host.Cell) : Bool := tabWf memRest m

/-- A little-endian number from its bytes (R6). -/
def leNat : List Byte → Nat
  | [] => 0
  | b :: bs => b.toNat + 256 * leNat bs

/-- The `n` little-endian bytes of a number. -/
def leBytes : Nat → Nat → List Byte
  | 0, _ => []
  | n + 1, v => BitVec.ofNat 8 v :: leBytes n (v / 256)

/-- A big-endian number from its bytes. -/
def beNat (bs : List Byte) : Nat := leNat bs.reverse

/-- The `n` big-endian bytes of a number. -/
def beBytes (n v : Nat) : List Byte := (leBytes n v).reverse

/-- The 32-bit word at address `a`. -/
def memWord (m : List Host.Cell) (a : Nat) : Nat := leNat (memRead m a 4)

/-- A 32-bit word written at address `a`. -/
def memWordPut (a v : Nat) (m : List Host.Cell) : List Host.Cell := memWrite a (leBytes 4 v) m

/-- Bytes `i` to `i + n - 1` of a byte list as a little-endian number; bytes past the end count as 0. -/
def field (bs : List Byte) (i n : Nat) : Nat := leNat ((bs.drop i).take n)

/-! ### Regions -/

/-- The cells below address `a`, and those from it on. -/
def memBelow (a : Nat) (m : List Host.Cell) : List Host.Cell := m.takeWhile (fun e => decide (e.1 < a))

def memFrom (a : Nat) (m : List Host.Cell) : List Host.Cell := m.dropWhile (fun e => decide (e.1 < a))

/-- The cells of bytes placed from address `a`; bytes that read so unlisted are left out. -/
def memCells : Nat → List Byte → List Host.Cell
  | _, [] => []
  | a, b :: bs => if b = memRest a then memCells (a + 1) bs else (a, b) :: memCells (a + 1) bs

/-- A whole region written at once: as `memWrite`, in one pass over the memory. -/
def memPlace (a : Nat) (bs : List Byte) (m : List Host.Cell) : List Host.Cell :=
  memBelow a m ++ memCells a bs ++ memFrom (a + bs.length) m

/-- `n` blocks of `size` bytes from block `i` of a region at `base`: the cells of each. -/
def memChunks (base size : Nat) : Nat → Nat → List Host.Cell → List (List Host.Cell)
  | 0, _, _ => []
  | n + 1, i, m =>
    memBelow (base + size * (i + 1)) m :: memChunks base size n (i + 1) (memFrom (base + size * (i + 1)) m)

/-- Blocks `i` to `i + n - 1` of a region each given the writes that `f` names for it, offset and byte; `m` holds the cells
from block `i` on. -/
def memSweepFrom (base size : Nat) (f : Nat → List Host.Cell → List (Nat × Byte)) :
    Nat → Nat → List Host.Cell → List Host.Cell
  | 0, _, m => m
  | n + 1, i, m =>
    let hi := base + size * (i + 1)
    let here := memBelow hi m
    (f i here).foldl (fun h w => memPut (base + size * i + w.1 % size) w.2 h) here
      ++ memSweepFrom base size f n (i + 1) (memFrom hi m)

/-- The same for the `n` blocks of the region at `base`. -/
def memSweep (base size n : Nat) (f : Nat → List Host.Cell → List (Nat × Byte)) (m : List Host.Cell) : List Host.Cell :=
  memBelow base m ++ memSweepFrom base size f n 0 (memFrom base m)

/-! ### Check codes (R11) -/

/-- One bit of CRC-32C, reflected. -/
def crc32cBit (c : Nat) : Nat := if c % 2 = 1 then (c / 2) ^^^ 0x82F63B78 else c / 2

/-- One byte of CRC-32C. -/
def crc32cByte (c : Nat) (b : Byte) : Nat :=
  crc32cBit (crc32cBit (crc32cBit (crc32cBit (crc32cBit (crc32cBit (crc32cBit (crc32cBit (c ^^^ b.toNat))))))))

/-- CRC-32C over bytes (R11). -/
def crc32c (bs : List Byte) : Nat := (bs.foldl crc32cByte 0xFFFFFFFF) ^^^ 0xFFFFFFFF

/-- One bit of CRC-16, most significant first. -/
def crc16Bit (c : Nat) : Nat := if 0x8000 ≤ c then (2 * c % 0x10000) ^^^ 0x1021 else 2 * c % 0x10000

/-- One byte of CRC-16. -/
def crc16Byte (c : Nat) (b : Byte) : Nat :=
  crc16Bit (crc16Bit (crc16Bit (crc16Bit (crc16Bit (crc16Bit (crc16Bit (crc16Bit (c ^^^ (b.toNat * 256)))))))))

/-- CRC-16 over bytes (R11). -/
def crc16 (bs : List Byte) : Nat := bs.foldl crc16Byte 0xFFFF

/-- The even-parity bit of a number of `n` bits (R11). -/
def parityOf (n v : Nat) : Bool := onesIn v n % 2 == 1

end Sys2Proof.Machine
end

