-- ==== Sys2Proof/Machine/CanOps.lean ====
section
/-!
DEFINITION. Machine/CanOps.lean: the CAN channels' queues, FIFOs and registers (13), the Ethernet destinations, the sleep
request to PWR (14), and the states of the network sleep manager.
-/

namespace Sys2Proof.Machine

/-! ### Channels -/

/-- Channel `n` beyond its registers. -/
def canOf (n : Nat) (d : Dev) : Can := tabGet (fun _ => {}) d.nsm.cans n

def canMode (n : Nat) (d : Dev) : Nat := fget (F.CAN_STATUS_EFF_MODE n) d

def canEstate (n : Nat) (d : Dev) : Nat := fget (F.CAN_STATUS_ESTATE n) d

/-- Page `p` of a channel. -/
def canPage (c : Can) (p : Nat) : CanPage := if p = 0 then c.page0 else c.page1

def canPagePut (p : Nat) (x : CanPage) (c : Can) : Can := if p = 0 then { c with page0 := x } else { c with page1 := x }

/-- The frames of a queue that count among the 16 (R418). -/
def canCounted (c : Can) : Nat := (c.queue.filter (fun x => x.page != 3)).length

/-- Frames that a page may still queue (R418, R443). -/
def canFree (p : Nat) (c : Can) : Nat :=
  let room := 16 - canCounted c
  if p = 1 then min room (8 - (c.queue.filter (fun x => x.page == 1)).length) else room

/-- What the registers of page `p` show of its FIFOs and of the queue (R443). -/
def canPageShow (n p : Nat) (c : Can) (d : Dev) : Dev :=
  let x := canPage c p
  let d := fset (F.CAN_TX_STAT_FREE n p) (canFree p c) d
  let d := regPut (R.CAN_TX_DONE n p) (match x.done with
    | [] => 0
    | e :: _ => BitVec.ofNat 32 (e.tag % 256 + e.outcome * 2 ^ 8 + b2n e.ovf * 2 ^ 30 + 2 ^ 31)) d
  match x.rx with
  | [] =>
    each (List.range 16) (fun w => regPut (R.CAN_RX_DATA n p w) 0)
      (regPut (R.CAN_RX_TS n p) 0 (regPut (R.CAN_RX_INFO n p) 0 (regPut (R.CAN_RX_HDR n p) 0 d)))
  | r :: _ =>
    let f := r.frame
    let hdr := f.id % 2 ^ 29 + b2n f.ide * 2 ^ 29 + b2n f.fdf * 2 ^ 30 + 2 ^ 31
    let info := f.data.length % 128 + b2n f.brs * 2 ^ 7 + b2n f.esi * 2 ^ 8 + b2n f.rtr * 2 ^ 9 + r.entry % 4096 * 2 ^ 10
      + x.rx.length * 2 ^ 24 + b2n r.ovf * 2 ^ 30
    let d := regPut (R.CAN_RX_TS n p) (BitVec.ofNat 32 r.ts)
      (regPut (R.CAN_RX_INFO n p) (BitVec.ofNat 32 info) (regPut (R.CAN_RX_HDR n p) (BitVec.ofNat 32 hdr) d))
    each (List.range 16) (fun w => fset (F.CAN_RX_DATA_DATA n p w) (field f.data (4 * w) 4)) d

/-- The controller holds its queue (R417). -/
def canHeld (n : Nat) (d : Dev) : Bool :=
  (canMode n d == 1 || canMode n d == 2)
    && (fget (F.CAN_XCVR_STATE n) d != 0 || (canOf n d).moving || decide (2 ≤ canEstate n d))

/-- Channel `n` changed, and its registers with it. -/
def canPut (n : Nat) (c : Can) (d : Dev) : Dev :=
  let d := { d with nsm := { d.nsm with cans := tabSet (fun _ => {}) d.nsm.cans n c } }
  let d := fset (F.CAN_STATUS_QUEUED n) (canCounted c) (canPageShow n 1 c (canPageShow n 0 c d))
  fput (F.CAN_STATUS_HELD n) (canHeld n d) d

/-! ### Transmission (R418 to R421) -/

/-- An FD length: 0 to 8, 12, 16, 20, 24, 32, 48, 64; a length between is padded to the next (R418). -/
def fdLength (n : Nat) : Nat :=
  if n ≤ 8 then n else ([12, 16, 20, 24, 32, 48].find? (fun k => decide (n ≤ k))).getD 64

/-- The data of a frame to be sent: an FD frame padded with 0x00. -/
def canPad (f : CanFrame) : CanFrame :=
  if f.fdf then { f with data := f.data ++ List.replicate (fdLength f.data.length - f.data.length) 0 } else f

/-- The order in which the bus decides arbitration: the base identifier, a base frame before an extended one, the extension. -/
def canRank (f : CanFrame) : Nat :=
  if f.ide then f.id / 2 ^ 18 % 2 ^ 11 * 2 ^ 20 + 2 ^ 19 + f.id % 2 ^ 18 else f.id % 2 ^ 11 * 2 ^ 20

/-- The place of the frame that would win arbitration; equal identifiers in the order queued. -/
def canFirst (q : List CanTx) : Option Nat :=
  (List.range q.length).foldl (fun b i =>
    match b, q[i]? with
    | none, some _ => some i
    | some j, some x =>
      match q[j]? with
      | some y => if canRank x.frame < canRank y.frame then some i else some j
      | none => some i
    | b, none => b) none

/-- The frame in an attempt that began before the last `since` frames were queued. -/
def canInTx (since : Nat) (c : Can) : Option Nat := canFirst (c.queue.take (c.queue.length - since))

/-- An outcome into the TX_DONE FIFO of a page (R421): when it is full the oldest entry is overwritten. -/
def canDone (x : CanTx) (outcome : Nat) (c : Can) : Can :=
  if 2 ≤ x.page then c
  else
    let p := canPage c x.page
    let full := decide (16 ≤ p.done.length)
    let l := if full then p.done.drop 1 else p.done
    canPagePut x.page { p with done := l ++ [{ tag := x.tag, outcome, ovf := full }] } c

/-- The frame at place `i` leaves the queue with an outcome. -/
def canLeave (n i outcome : Nat) (d : Dev) : Dev :=
  let c := canOf n d
  match c.queue[i]? with
  | none => d
  | some x => canPut n (canDone x outcome { c with queue := c.queue.eraseIdx i }) d

/-- A frame abandoned with outcome 1 or 3: counted and recorded (R419). -/
def canAbandon (n i outcome : Nat) (d : Dev) : Dev :=
  match (canOf n d).queue[i]? with
  | none => d
  | some x =>
    recordC 0x0B05 (n + outcome * 2 ^ 8 + x.attempts % 16 * 2 ^ 16) x.frame.id
      (canLeave n i outcome (fsat (F.CAN_CNT_ABN_ABANDON n) 1 d))

/-- A frame queued at the end of channel `n`'s queue. -/
def canEnter (n : Nat) (x : CanTx) (d : Dev) : Dev :=
  let c := canOf n d
  canPut n { c with queue := c.queue ++ [{ x with frame := canPad x.frame }] } d

/-! ### Routing entries and Ethernet destinations (R426, R429, R430) -/

def rtId (e : Nat) (d : Dev) : Nat := bitsOf (regGet d (R.NSM_RT_0 e)).toNat 0 29
def rtIde (e : Nat) (d : Dev) : Bool := (regGet d (R.NSM_RT_0 e)).toNat.testBit 29
def rtFdf (e : Nat) (d : Dev) : Bool := (regGet d (R.NSM_RT_0 e)).toNat.testBit 30
def rtBrs (e : Nat) (d : Dev) : Bool := (regGet d (R.NSM_RT_0 e)).toNat.testBit 31
def rtKind (e : Nat) (d : Dev) : Nat := bitsOf (regGet d (R.NSM_RT_1 e)).toNat 0 2
def rtCh (e : Nat) (d : Dev) : Nat := bitsOf (regGet d (R.NSM_RT_1 e)).toNat 2 3
def rtMbits (e : Nat) (d : Dev) : Nat := bitsOf (regGet d (R.NSM_RT_1 e)).toNat 5 5
def rtDest (e : Nat) (d : Dev) : Nat := bitsOf (regGet d (R.NSM_RT_1 e)).toNat 10 4
def rtGw (e : Nat) (d : Dev) : Nat := bitsOf (regGet d (R.NSM_RT_1 e)).toNat 14 3
def rtEd (e : Nat) (d : Dev) : Nat := bitsOf (regGet d (R.NSM_RT_1 e)).toNat 17 4
def rtOwner (e : Nat) (d : Dev) : Nat := bitsOf (regGet d (R.NSM_RT_1 e)).toNat 21 4

/-- The routing entries that hold something, in ascending order: an entry whose word 1 is 0 is empty. -/
def rtUsed (d : Dev) : List Nat :=
  d.regs.filterMap (fun e =>
    if R.NSM_RT_1 0 ≤ e.1 ∧ e.1 ≤ R.NSM_RT_1 4095 ∧ e.1 % 8 = 4 then some ((e.1 - R.NSM_RT_1 0) / 8) else none)

/-- The frame of a transmit entry with data (R429): BRS takes effect with FDF and FD_EN. -/
def rtFrame (e : Nat) (data : List Byte) (d : Dev) : CanFrame :=
  { id := rtId e d, ide := rtIde e d, fdf := rtFdf e d
    brs := rtBrs e d && rtFdf e d && flag (F.CAN_CTRL_FD_EN (rtCh e d)) d, data }

/-- A 16-byte address of AIX_ADDR as a number, its first byte most significant (R362). -/
def aixAddr (e : Nat) (d : Dev) : Nat :=
  beNat ((List.range 4).flatMap (fun w => leBytes 4 (fget (F.AIX_ADDR_ADDR e w) d)))

/-- A 16-byte address is that of an IPv4 host (R362). -/
def isV4 (a : Nat) : Bool := a / 2 ^ 32 == 0xFFFF

/-- Addresses of port `e` (R364), 0 where none is configured: bytes in network order from the lowest register on. -/
def ethV4 (f : Nat → Fld) (e : Nat) (d : Dev) : Nat := beNat (leBytes 4 (fget (f e) d))

def ethV6 (f : Nat → Nat → Fld) (e : Nat) (d : Dev) : Nat := beNat ((List.range 4).flatMap (fun w => leBytes 4 (fget (f e w) d)))

/-- The host that a packet for `dst` goes to next (R326): one outside the configured prefix to the gateway, where there is one. A
link-local host has no gateway. -/
def nextHop (e dst : Nat) (d : Dev) : Nat :=
  if isV4 dst then
    let gw := ethV4 F.ETH_IPV4_GW_ADDR e d
    let n := 32 - fget (F.ETH_IPV4_CFG_PREFIX e) d
    if gw = 0 ∨ dst % 2 ^ 32 / 2 ^ n = ethV4 F.ETH_IPV4_ADDR e d / 2 ^ n then dst else 0xFFFF * 2 ^ 32 + gw
  else
    let gw := ethV6 F.ETH_IPV6_GW_ADDR e d
    let n := 128 - fget (F.ETH_IPV6_CFG_PREFIX e) d
    if gw = 0 ∨ dst / 2 ^ 118 = 0x3FA ∨ dst / 2 ^ n = ethV6 F.ETH_IPV6_ADDR e d / 2 ^ n then dst else gw

/-- The tag of every frame that port `e` sends: VID and PCP of ETH_VLAN while EN is 1 (R326). -/
def ethTag (e : Nat) (d : Dev) : Option (Nat × Nat) :=
  if flag (F.ETH_VLAN_EN e) d then some (fget (F.ETH_VLAN_VID e) d, fget (F.ETH_VLAN_PCP e) d) else none

/-- A UDP datagram leaves an Ethernet port; it is counted. -/
def udpOut (port dst dport sport : Nat) (bytes : List Byte) (d : Dev) : Dev :=
  send (.udp port (ethTag port d) dst (nextHop port dst d) dport sport bytes) (fsat (F.ETH_CNT_TX_CNT port) 1 d)

/-- A datagram to Ethernet destination `k`, from the Aidex port (R428, R430). -/
def edOut (k : Nat) (bytes : List Byte) (d : Dev) : Dev :=
  let port := fget (F.NSM_EDST_PORT k) d
  udpOut port (aixAddr (fget (F.NSM_EDST_ADDR k) d) d) (fget (F.NSM_EDST_UDP k) d) (fget F.AIX_PORT_PORT d) bytes d

/-- A message through transmit entry `e` from page 0, without an entry in TX_DONE (R429); false when the queue is full. -/
def routeOut (e : Nat) (data : List Byte) (d : Dev) : Bool × Dev :=
  if rtCh e d = 7 then (true, edOut (rtEd e d) data d)
  else if canFree 0 (canOf (rtCh e d) d) = 0 then (false, d)
  else (true, canEnter (rtCh e d) { frame := rtFrame e data d, page := 2, qat := d.clk } d)

/-! ### The sleep request (R449, R450) -/

/-- Wake switch inputs at their wake level (R456). -/
def wakeInputs (d : Dev) : List Nat :=
  below 48 (fun i => flag (F.IOX_SW_CFG_WAKE i) d && mask48Bit F.IOX_SW_LO_LEVEL F.IOX_SW_HI_LEVEL i d)

def nsmState (d : Dev) : Nat := fget F.NSM_STATUS_STATE d

/-- The NSM enters a state; READY starts the idle count (R437). -/
def nsmTo (st : Nat) (d : Dev) : Dev :=
  let old := nsmState d
  if old = st then d
  else
    let d := fset F.NSM_STATUS_IDLE_LEFT (if st = 2 then fget F.NSM_TIME_IDLE_S d else 0) (fset F.NSM_STATUS_STATE st d)
    recordC 0x0B20 old st d

/-- The NSM's request is not carried out: the NSM does not stay in COMMITTED. -/
def nsmBack (nsm : Bool) (d : Dev) : Dev := if nsm then nsmTo 1 d else d

/-- A request reaches PWR: refused outside CONFIG_HOLD and DISARMED, kept during a level change, else entry begins. -/
def sleepRequest (st : Nat) (nsm : Bool) (d : Dev) : Dev :=
  if d.pwr.target ≠ 0 then nsmBack nsm d
  else if zone d ≠ 0 ∧ zone d ≠ 1 then nsmBack nsm (recordC 0x0C03 st 2 d)
  else if flag F.PWR_PL_BUSY d then
    nsmBack (!nsm && d.pwr.sleepNext.any (·.2)) { d with pwr := { d.pwr with sleepNext := some (st, nsm) } }
  else
    let d := recordC 0x0C02 st (b2n nsm) d
    let cfg := (below 48 (fun i => flag (F.IOX_SW_CFG_WAKE i) d)).foldl (fun m i => m + 2 ^ i) 0
    let d := { d with pwr := { d.pwr with target := st, nsm, sealed := false, cycle := cycleNow d
                                          level := fget F.PWR_PL_CUR d, wakes := cfg } }
    recEndRun (fset F.PWR_STATUS_PSTATE 1 d)

/-! ### The network sleep manager (R435 to R438) -/

/-- The cause of the own vote awake (R436, R438): 0 a vote or the zone state, 1 a wake source. -/
def ownVote (d : Dev) : Option (Nat × Nat) :=
  if zone d ≠ 0 ∧ zone d ≠ 1 then some (0, 0)
  else if (List.range 8).any (fun k => flag (F.NSM_VOTE_AWAKE k) d) then some (0, 0)
  else match wakeInputs d with
    | i :: _ => some (1, i + 0x100)
    | [] => if flag F.TWP_STATUS_BUSY d then some (1, 0x1FF) else none

/-- The nodes that vote awake and are not capped. -/
def nodesAwake (d : Dev) : List Nat :=
  below 64 (fun j => flag (F.NSM_NODE_AWAKE j) d && !flag (F.NSM_NODE_CAPPED j) d)

/-- A keep-alive with byte 0 on every channel of CHANNELS (R436); one that still waits there is replaced (R418). -/
def keepAlive (b : Nat) (d : Dev) : Dev :=
  each (below 6 (fun n => fbit F.NSM_CTRL_CHANNELS n d && canMode n d != 0)) (fun n d =>
    let c := canOf n d
    let f : CanFrame := { id := fget F.NSM_NM_BASE d + fget F.NSM_NM_SELF d, data := [BitVec.ofNat 8 b] }
    canPut n { c with queue := c.queue.filter (fun x => x.page != 3) ++ [{ frame := f, page := 3, qat := d.clk }] } d) d

/-- PREPARE ends in AWAKE (R438). -/
def nsmAbort (cause p2 : Nat) (d : Dev) : Dev :=
  let d := recordC 0x0B22 cause p2 (nsmTo 1 d)
  if cause ≤ 1 then keepAlive 3 d else d

/-- The NSM acts on its inputs as they stand (R436 to R438). -/
def nsmEval (d : Dev) : Dev :=
  let was := flag F.NSM_STATUS_OWN d
  let own := ownVote d
  let d := fput F.NSM_STATUS_OWN own.isSome d
  let d := if was && own.isNone && flag F.NSM_CTRL_EN d && nsmState d != 4 then keepAlive 0 d else d
  let awake := own.isSome || !(nodesAwake d).isEmpty
  match nsmState d with
  | 1 => if awake then d else nsmTo 2 d
  | 2 => if awake then nsmTo 1 d else d
  | 3 =>
    match own with
    | some (c, p) => nsmAbort c p d
    | none => d
  | _ => d

end Sys2Proof.Machine
end

