-- ==== Sys2Proof/Machine/Chains.lean ====
section
/-!
DEFINITION. Machine/Chains.lean: the hidden parts of chains, positions and strings, and the pair's standing, by name.
-/

namespace Sys2Proof.Machine

/-- The hidden part of chain `n`. -/
def chainOf (n : Nat) (d : Dev) : Chain := tabGet (fun _ => {}) d.kzc.chains n

def chainPut (n : Nat) (c : Chain) (d : Dev) : Dev :=
  { d with kzc := { d.kzc with chains := tabSet (fun _ => {}) d.kzc.chains n c } }

/-- The hidden part of position `p` of chain `n`. -/
def posOf (n p : Nat) (d : Dev) : Pos := tabGet (fun _ => {}) d.acq.pos (64 * n + p)

def posPut (n p : Nat) (x : Pos) (d : Dev) : Dev :=
  { d with acq := { d.acq with pos := tabSet (fun _ => {}) d.acq.pos (64 * n + p) x } }

/-- String `k` as acquisition keeps it. -/
def strOf (k : Nat) (d : Dev) : StringAcq := tabGet (fun _ => {}) d.acq.str k

def strPut (k : Nat) (x : StringAcq) (d : Dev) : Dev :=
  { d with acq := { d.acq with str := tabSet (fun _ => {}) d.acq.str k x } }

/-- The positions of chain `n` that the configuration holds: below COUNT and enabled. -/
def positionsOf (n : Nat) (d : Dev) : List Nat :=
  below (min 48 (fget (F.KZC_CH_CTRL_COUNT n) d)) (fun p => flag (F.ACQ_POS_EN n p) d)

/-- The chains enabled. -/
def chainsOn (d : Dev) : List Nat := below 16 (fun n => fbit F.KZC_CTRL_CH_EN n d)

/-- String `k` is measured (R145): it has been measured once and its bit in ACQ_UNMEAS is clear. -/
def measured (k : Nat) (d : Dev) : Bool :=
  (strOf k d).once && !mask48Bit F.ACQ_UNMEAS_LO_UNMEAS F.ACQ_UNMEAS_HI_UNMEAS k d

/-- The member holds the role PRIMARY or SECONDARY (R25). -/
def paired (d : Dev) : Bool := d.pair.role == 3 || d.pair.role == 4

/-- The peer link is up (R413). -/
def peerUp (d : Dev) : Bool := fget F.PEER_STATUS_LINK d == 2

/-- The member reports a trestle fault (R281): TL0, or a trestle of CRIT_MASK, is STOPPED or FAULTED. -/
def devFault (d : Dev) : Bool :=
  (List.range 5).any (fun t => (t == 0 || fbit F.CPX_CFG_CRIT_MASK t d)
    && (fget (F.TL_STAT_STATE t) d == 5 || fget (F.TL_STAT_STATE t) d == 6))

/-- TL0 executes: it is in RUN, or restores a checkpoint within it (R282). -/
def tl0Runs (d : Dev) : Bool := fget (F.TL_STAT_STATE 0) d == 3 || fget (F.TL_STAT_STATE 0) d == 4

/-- A message of the partner reaches this member: the link is up, and the device is not configured as single (R23). -/
def heard (d : Dev) : Bool := d.pair.mode != 0 && peerUp d

/-- A message of the partner acts when it is heard. -/
def heardThen (f : Dev → Dev) (d : Dev) : Dev := if heard d then f d else d

/-- The same for a message whose effect reaches the memories. -/
def heardBoth (f : List Host.Cell → Dev → List Host.Cell × Dev) (m : List Host.Cell) (d : Dev) : List Host.Cell × Dev :=
  if heard d then f m d else (m, d)

/-- An own frame published or skipped is kept for the partner's message; the last three are (R33: a message may come until the end of
frame N + 2). -/
def ownSetKeep (o : OwnSet) (d : Dev) : Dev := { d with pair := { d.pair with sets := (o :: d.pair.sets).take 3 } }

/-- ZONE_OK_B pulses in zone state `z` (R205). -/
def okPulses (z : Nat) : Bool := z == 2 || z == 3 || z == 6

/-- The zone state that a frame of the partner reports (R36). -/
def partnerZonePut (z : Nat) (d : Dev) : Dev :=
  if d.pair.partnerZone = z then d else { d with pair := { d.pair with partnerZone := z, partnerZoneAt := d.clk } }

/-- The partner monitor is expected to pulse at tick `t` (R36). -/
def monitorExpected (t : Nat) (d : Dev) : Bool :=
  okPulses d.pair.partnerZone && decide (d.pair.partnerZoneAt + 5 * tickMs ≤ t)

/-- The class of a frame to the partner: 0 link control, 1 message, 2 response, 3 request (R399). -/
def frameClass : Output → Nat
  | .peerControl => 0
  | .peerResponse _ _ | .peerRetry => 2
  | .peerRequest _ _ _ _ => 3
  | _ => 1

/-- A frame leaves for the partner: it carries the zone state (R36) and awaits an acknowledgement (R399). -/
def frameOut (o : Output) (d : Dev) : Dev :=
  send o { send (.frameZone (fget F.PROT_STATUS_ZSTATE d)) d with brg := { d.brg with unacked := d.brg.unacked + 1 } }

/-- A frame to the partner, while the link is up; it waits while 32 are unacknowledged (R399). -/
def toPartner (o : Output) (d : Dev) : Dev :=
  if !peerUp d then d
  else if 32 ≤ d.brg.unacked then { d with brg := { d.brg with waiting := d.brg.waiting ++ [o] } }
  else frameOut o d

/-- The frame that leaves next: of the first class that waits, the oldest (R400). -/
def frameNext (l : List Output) : Option Output := (List.range 4).findSome? (fun c => l.find? (fun o => frameClass o == c))

/-- Waiting frames leave while there is room among the 32 unacknowledged ones; `n` bounds them. -/
def framesDrain : Nat → Dev → Dev
  | 0, d => d
  | n + 1, d =>
    match if 32 ≤ d.brg.unacked then none else frameNext d.brg.waiting with
    | none => d
    | some o => framesDrain n (frameOut o { d with brg := { d.brg with waiting := d.brg.waiting.erase o } })

/-- The state of chain `n` (R115). -/
def chState3 (n : Nat) (d : Dev) : Nat := fget (F.KZC_CH_STAT_STATE n) d

/-- Position `p` of chain `n` is excluded (R125). -/
def excluded (n p : Nat) (d : Dev) : Bool :=
  mask48Bit (F.KZC_CH_EXCL_LO_EXCL n) (F.KZC_CH_EXCL_HI_EXCL n) p d

/-- Position `p` is reached from the B end. -/
def fromBEnd (n p : Nat) (d : Dev) : Bool :=
  chState3 n d == 7 || (chState3 n d == 4 && decide (fget (F.KZC_CH_STAT_FIRST_B n) d ≤ p))

end Sys2Proof.Machine
end

