-- ==== Sys2Proof/Machine/Region.lean ====
section
/-!
DEFINITION. Machine/Region.lean: the address map (R3, R4), the attribute byte (R303), the region controllers (R307 to R312), and
the queues of imprecise bus errors (R396, R397).
-/

namespace Sys2Proof.Machine

/-! ### The attribute byte (R303) -/

def attrOf (world : Bool) (tenant priv : Nat) (v io : Bool) : Nat :=
  b2n world + tenant % 8 * 2 + priv % 4 * 16 + b2n v * 64 + b2n io * 128

def attrWorld (a : Nat) : Bool := a.testBit 0
def attrTenant (a : Nat) : Nat := bitsOf a 1 3
def attrPriv (a : Nat) : Nat := bitsOf a 4 2
def attrV (a : Nat) : Bool := a.testBit 6

/-- The tag of a bus master that is not a trestle. -/
def attrMaster : Nat := attrOf true 0 3 false false

/-! ### The address map (R3) -/

/-- What stands at an address: the region controller in front of it (R307). -/
def targetOf (a : Nat) : Option Nat :=
  if a < 0x10000 then some 0
  else if sramBase ≤ a ∧ a < sramBase + 0x200000 then some 1
  else if storeBase ≤ a ∧ a < storeBase + 0x400000 then some 2
  else if 0x20000000 ≤ a ∧ a < 0x201D0000 ∧ a / 0x10000 ≠ 0x200F then some 3
  else if 0x40000000 ≤ a ∧ a < 0x50000000 then some 4
  else if 0x50000000 ≤ a ∧ a < 0x60000000 then some 5
  else if flashBase ≤ a ∧ a < flashBase + 0x4000000 then some 6
  else if mramBase ≤ a ∧ a < mramBase + 0x200000 then some 7
  else if dramBase ≤ a ∧ a < dramBase + 0x80000000 then some 8
  else none

/-- The I/O regions (R270). -/
def isIo (a : Nat) : Bool := targetOf a == some 3 || targetOf a == some 4 || targetOf a == some 5

/-- The register number of a peripheral address. -/
def regOf (a : Nat) : Nat := a - 0x20000000

/-! ### Decisions (R308, R310, R311, R313) -/

/-- Region `n` of controller `c` is enabled and contains every byte of an access. -/
def regionHolds (c n a size : Nat) (d : Dev) : Bool :=
  let least := if c = 3 then 8 else 12
  let sz := max least (min 40 (fget (F.RC_CFG_SIZE c n) d))
  let base := fget (F.RC_BASE_BASE c n) d * 256 / 2 ^ sz * 2 ^ sz
  flag (F.RC_CFG_EN c n) d && decide (base ≤ a ∧ a + size ≤ base + 2 ^ sz)

/-- The deciding region of an access. -/
def regionOf (c a size : Nat) (d : Dev) : Option Nat := (List.range 16).find? (fun n => regionHolds c n a size d)

/-- The tenant is blocked (R304). -/
def tenantBlocked (k : Nat) (d : Dev) : Bool := flag (F.WLD_TEN_STAT_BLOCKED k) d

/-- The blocks that are secure (R310, R313). -/
def blockSecure (a : Nat) (d : Dev) : Bool := fbit F.WLD_SECBLK_SEC (regOf a / 0x10000) d

/-- The owner entry in front of an address of a slot or of a load channel's page; 8 where there is none (R311). -/
def ownerOf (a : Nat) (d : Dev) : Nat :=
  let r := regOf a
  if R.SLOT_CTRL 0 ≤ r ∧ r < R.SLOT_CTRL 0 + 0x200 then
    let n := (r - R.SLOT_CTRL 0) / 0x10
    if n < 8 then 0 else fget (F.WLD_SLOT_OWN_OWN (n / 8) (n % 8)) d
  else if R.LSW_CH_CFG 0 ≤ r ∧ r < R.LSW_CH_CFG 0 + 32 * 0x100 then
    let ch := (r - R.LSW_CH_CFG 0) / 0x100
    fget (F.WLD_LSW_OWN_OWN (ch / 8) (ch % 8)) d
  else 16

/-- The owner entry permits a normal-world access (R311); 16 stands for an address without one. -/
def ownerPermits (own attr : Nat) : Bool :=
  if own = 16 then true
  else if own = 8 then !attrV attr
  else if 1 ≤ own ∧ own ≤ 7 then attrV attr && attrTenant attr == own
  else false

/-- The deciding region grants the access of type `ty` (0 read, 1 write, 2 fetch; R308). -/
def regionGrants (c n ty attr : Nat) (d : Dev) : Bool :=
  let perm := match attrWorld attr, attrV attr with
    | true, _ => [F.RC_CFG_S_R c n, F.RC_CFG_S_W c n, F.RC_CFG_S_X c n]
    | false, false => [F.RC_CFG_H_R c n, F.RC_CFG_H_W c n, F.RC_CFG_H_X c n]
    | false, true => [F.RC_CFG_G_R c n, F.RC_CFG_G_W c n, F.RC_CFG_G_X c n]
  (match perm[ty]? with
    | some f => flag f d
    | none => false)
    && (!attrV attr || (attrTenant attr != 0 && fbit (F.RC_CFG_TMASK c n) (attrTenant attr) d
      && !tenantBlocked (attrTenant attr) d))
    && (attrPriv attr != 0 || flag (F.RC_CFG_UPRIV c n) d)

/-- Controller `c` grants an access (R308, R310, R311, R313). -/
def granted (c a size ty attr : Nat) (d : Dev) : Bool :=
  let w := attrWorld attr
  (match regionOf c a size d with
    | none => w && flag (F.RC_CTRL_DEF_SEC c) d
    | some n => regionGrants c n ty attr d)
    && (w || c != 7)
    && (w || c != 3 || (!blockSecure a d && ownerPermits (ownerOf a d) attr))

/-- A refusal counted, captured and recorded (R309). -/
def refuse (c a ty size attr : Nat) (d : Dev) : Dev :=
  let region := (regionOf c a size d).getD 15
  let d := fsat (F.RC_FLT_CNT_COUNT c) 1 d
  let d := if flag (F.RC_FLT_HI_VALID c) d then d
    else
      let d := fset (F.RC_FLT_HI_ATTR c) attr (fset (F.RC_FLT_HI_ADDR_HI c) (a >>> 32) (fset (F.RC_FLT_LO_ADDR c) a d))
      fput (F.RC_FLT_HI_VALID c) true (fset (F.RC_FLT_HI_REGION c) region (fset (F.RC_FLT_HI_TYPE c) ty d))
  recordC 0x0802 a ((a >>> 32) % 256 + attr % 256 * 2 ^ 8 + ty * 2 ^ 16 + c * 2 ^ 20 + region * 2 ^ 24) d

/-! ### Bus errors (R396, R397) -/

/-- The queue of trestle `t` for a world. -/
def beQueue (secure : Bool) (t : Nat) (d : Dev) : List BeEntry :=
  tabGet (fun _ => []) (if secure then d.brg.beS else d.brg.beN) t

def beQueuePut (secure : Bool) (t : Nat) (l : List BeEntry) (d : Dev) : Dev :=
  if secure then { d with brg := { d.brg with beS := tabSet (fun _ => []) d.brg.beS t l } }
  else { d with brg := { d.brg with beN := tabSet (fun _ => []) d.brg.beN t l } }

/-- A failure of a store captured into the queue of its world, or lost to a full one; local interrupt 19 or 20 (R396). -/
def beCapture (t : Nat) (e : BeEntry) (d : Dev) : Dev :=
  let s := attrWorld e.attr
  let q := beQueue s t d
  let d := if q.length < 4 then beQueuePut s t (q ++ [e]) d
    else
      let d := beQueuePut s t (match q with
        | [] => []
        | h :: r => { h with ovf := true } :: r) d
      let n := min 7 (tabGet (fun _ => 0) (if s then d.brg.ovfS else d.brg.ovfN) t + 1)
      if s then { d with brg := { d.brg with ovfS := tabSet (fun _ => 0) d.brg.ovfS t n } }
      else { d with brg := { d.brg with ovfN := tabSet (fun _ => 0) d.brg.ovfN t n } }
  recordC 0x0A02 e.addr ((e.addr >>> 32) % 256 + e.attr % 256 * 2 ^ 8 + e.cause * 2 ^ 16 + t * 2 ^ 20)
    (send (.localIrq t (if s then 20 else 19)) d)

/-- BE_N_POP and BE_S_POP (R397): the oldest entry removed. -/
def bePop (secure : Bool) (t : Nat) (d : Dev) : Dev := beQueuePut secure t ((beQueue secure t d).drop 1) d

def execBeNPop (t : Fin 5) (s : State) : Host.Outcome State Fault Refusal := onDev (bePop false t.val) s

def execBeSPop (t : Fin 5) (s : State) : Host.Outcome State Fault Refusal := onDev (bePop true t.val) s

/-- The words of BE_x_LO and BE_x_HI (R413). -/
def beWords (secure : Bool) (t : Nat) (d : Dev) : Nat × Nat :=
  let n := tabGet (fun _ => 0) (if secure then d.brg.ovfS else d.brg.ovfN) t
  match beQueue secure t d with
  | [] => (0, n * 2 ^ 26)
  | e :: _ => (e.addr % 2 ^ 32, (e.addr >>> 32) % 256 + e.attr % 256 * 2 ^ 8 + e.cause * 2 ^ 16 + e.src * 2 ^ 20
      + e.detail * 2 ^ 22 + n * 2 ^ 26 + b2n e.ovf * 2 ^ 29 + 2 ^ 31)

/-- BRG_CLR (R411): the bridge counters cleared. -/
def brgClr (d : Dev) : Dev :=
  each [R.BRG_CNT_ERR, R.BRG_CNT_RETRY, R.BRG_CNT_PFHIT, R.BRG_CNT_MEM, R.BRG_CNT_PAR] (fun r => regPut r 0) d

def execBrgClr (s : State) : Host.Outcome State Fault Refusal := onDev brgClr s

/-- The block in a peripheral slot answers no access: its clock gated or its power off (R461). -/
def slotDead (i : Nat) (d : Dev) : Bool := fbit F.PWR_CG_CG i d || fbit F.PWR_PSW_PSW i d

/-- A width or alignment that a peripheral slot refuses, or a block that answers none (R7, R461). The spec gives no order of these two, nor
of either against a refusal by the region controller, which is judged before both (DESIGN CHOICE, notes/assumptions/57.md). -/
def periRefuses (a size : Nat) (d : Dev) : Option Nat :=
  if size ≠ 4 ∨ a % 4 ≠ 0 then some 11 else if slotDead (regOf a / 0x10000) d then some 1 else none

/-- What an access of `size` bytes reaches (R3): none where its first or its last byte lies outside the address map. -/
def accessTarget (a size : Nat) : Option Nat := if (targetOf (a + size - 1)).isSome || size == 0 then targetOf a else none

/-- A memory error of a read of target `c` (R405). -/
def readFails (c : Nat) (chk : MemCheck) : Bool :=
  match chk with
  | .sramParity _ => c == 1
  | .dramCrc => c == 8
  | .romParity => c == 0
  | _ => false

/-- Bytes of the checked word at an address: a DRAM burst, or an SRAM word of eight byte lanes (R405). DESIGN CHOICE
(notes/assumptions/82.md). -/
def badSpan (a : Nat) : Nat := if dramBase ≤ a then 64 else 8

/-- The bad word that an access of `n` bytes meets. -/
def badMeets (a n : Nat) (d : Dev) : Option (Nat × Byte) :=
  d.brg.bad.find? (fun x => decide (x.1 < a + n ∧ a < x.1 + badSpan x.1))

/-- The check that an access meets: the one that it comes with, or that of a word still bad (R407). -/
def checkNow (chk : MemCheck) (a n : Nat) (d : Dev) : MemCheck :=
  match chk, badMeets a n d with
  | .good, some (b, lanes) => if dramBase ≤ b then .dramCrc else .sramParity lanes
  | c, _ => c

/-- A word failed its check: it stays bad. -/
def badKeep (a : Nat) (lanes : Byte) (d : Dev) : Dev :=
  let b := a / badSpan a * badSpan a
  { d with brg := { d.brg with bad := d.brg.bad.filter (fun x => x.1 != b) ++ [(b, lanes)] } }

/-- A write of `n` bytes ends the badness of every word that it covers in full (R407). -/
def badCovered (a n : Nat) (d : Dev) : Dev :=
  { d with brg := { d.brg with bad := d.brg.bad.filter (fun x => !decide (a ≤ x.1 ∧ x.1 + badSpan x.1 ≤ a + n)) } }

/-- A memory error of R407: the word stays bad; counted, its address kept, recorded. -/
def memError (a : Nat) (k : MemCheck) (d : Dev) : Dev :=
  let keep (dram : Bool) (d : Dev) : Dev :=
    fput F.BRG_MEMERR_HI_DRAM dram (fset F.BRG_MEMERR_HI_ADDR (a >>> 32) (fset F.BRG_MEMERR_LO_ADDR a d))
  match k with
  | .sramParity lanes => recordC 0x0A12 a lanes.toNat (keep false (fsat F.BRG_CNT_MEM_SRAM 1 (badKeep a lanes d)))
  | .dramCrc => recordC 0x0A13 (a / 64 * 64) (a >>> 32) (keep true (fsat F.BRG_CNT_MEM_DRAM 1 (badKeep a 0 d)))
  | .romParity => recordC 0x0A14 a 0 d
  | .targetParity | .good => d

end Sys2Proof.Machine
end

