-- ==== Sys2Proof/Machine/AixOps.lean ====
section
/-!
DEFINITION. Machine/AixOps.lean: Aidex packets (R327, R328), the opcode table (R331, R348 to R359), sessions and reply caches (R330 to
R332, R341), and the drawers' rings (R335 to R337).
-/

namespace Sys2Proof.Machine

/-! ### Status codes (R345) -/

def stOk : Nat := 0x0000
def stBusy : Nat := 0x0010
def stAborted : Nat := 0x0011
def stComplete : Nat := 0x0012
def stOpcode : Nat := 0x0020
def stParam : Nat := 0x0021
def stState : Nat := 0x0022
def stPermit : Nat := 0x0023
def stSession : Nat := 0x0024
def stDown : Nat := 0x0025
def stTmo : Nat := 0x0026
def stNoResp : Nat := 0x0027
def stCfgBad : Nat := 0x0030
def stCfgPart : Nat := 0x0031
def stWake : Nat := 0x0040
def stVersion : Nat := 0x0050
def stRollback : Nat := 0x0051
def stSign : Nat := 0x0052
def stBlock : Nat := 0x0053
def stHeader : Nat := 0x0054
def stRecomputed : Nat := 0x0060
def stStale : Nat := 0x0061

/-! ### Opcodes -/

/-- An opcode of R348 to R359: From All, Set Rd, Set Ab, and the lowest version that has it (R331). -/
structure OpRow where
  code : Nat
  all : Bool
  rd : Bool
  ab : Bool
  ver : Nat

def opTable : List OpRow := [
  ⟨0x0001, true, false, false, 1⟩, ⟨0x0002, true, false, false, 1⟩, ⟨0x0003, true, true, false, 1⟩,
  ⟨0x0004, true, true, false, 1⟩, ⟨0x0005, true, false, false, 2⟩,
  ⟨0x0101, false, false, false, 1⟩, ⟨0x0102, false, false, true, 1⟩, ⟨0x0103, false, true, false, 1⟩,
  ⟨0x0104, false, false, false, 3⟩,
  ⟨0x0201, false, false, false, 1⟩, ⟨0x0202, false, false, false, 1⟩, ⟨0x0203, false, false, false, 1⟩,
  ⟨0x0204, false, false, false, 1⟩, ⟨0x0205, true, false, false, 1⟩, ⟨0x0206, true, true, false, 1⟩,
  ⟨0x0301, true, true, true, 1⟩, ⟨0x0302, true, true, false, 2⟩, ⟨0x0303, false, false, false, 2⟩,
  ⟨0x0304, false, false, false, 2⟩, ⟨0x0305, false, false, false, 2⟩,
  ⟨0x0401, false, true, true, 1⟩, ⟨0x0402, false, true, false, 1⟩,
  ⟨0x0501, false, false, true, 1⟩, ⟨0x0502, false, false, true, 1⟩, ⟨0x0503, false, false, true, 1⟩,
  ⟨0x0504, false, true, false, 1⟩, ⟨0x0505, false, false, false, 1⟩,
  ⟨0x0601, false, false, true, 1⟩, ⟨0x0602, false, false, false, 1⟩, ⟨0x0603, false, true, false, 1⟩,
  ⟨0x0701, false, true, false, 1⟩, ⟨0x0702, false, false, false, 1⟩, ⟨0x0703, false, true, false, 2⟩,
  ⟨0x0704, false, false, false, 2⟩, ⟨0x0705, false, false, false, 1⟩,
  ⟨0x0801, false, false, false, 3⟩, ⟨0x0802, false, true, false, 3⟩, ⟨0x0803, false, false, false, 3⟩]

def opRow (code : Nat) : Option OpRow := opTable.find? (fun r => r.code == code)

def opRd (code : Nat) : Bool := (opRow code).any (·.rd)
def opAb (code : Nat) : Bool := (opRow code).any (·.ab)

/-- HELLO, BYE, PING, STATUS and ABORT (R339). -/
def opFast (code : Nat) : Bool := decide (1 ≤ code ∧ code ≤ 5)

/-- A tenant-class opcode (R333). -/
def opTenant (code : Nat) : Bool := decide (0x8000 ≤ code)

/-- What the wake port accepts (R360). -/
def opTwp (code : Nat) : Bool := opFast code || [0x0401, 0x0402, 0x0601, 0x0602, 0x0603, 0x0701].contains code

/-! ### Packets (R327, R328) -/

/-- A reply packet; FLAGS as given. -/
def aixBytes (r : AixReq) (flags status : Nat) (payload : List Byte) : List Byte :=
  let h := BitVec.ofNat 8 r.ver :: BitVec.ofNat 8 r.drawer :: (leBytes 2 r.opcode ++ leBytes 2 r.seq
    ++ leBytes 2 payload.length ++ leBytes 2 flags ++ leBytes 2 status ++ leBytes 4 (if r.ver = 1 then 0 else r.session))
  let b := h ++ payload
  b ++ leBytes 4 (crc32c b)

/-- A packet leaves through the port its request came by (R325, R360). -/
def aixSend (r : AixReq) (bytes : List Byte) (d : Dev) : Dev :=
  if r.via = 2 then fput F.TWP_STATUS_TX_READY true { d with aix := { d.aix with twp := some bytes } }
  else udpOut r.via r.src r.sport (fget F.AIX_PORT_PORT d) bytes d

/-- A reply in fragments (R342): REPLY, with ACCEPTED and DUP as given. -/
def aixFrags (r : AixReq) (status extra : Nat) (frags : List (List Byte)) (d : Dev) : Dev :=
  let n := frags.length
  each (List.range (max 1 n)) (fun i d =>
    aixSend r (aixBytes r (1 + extra + (if i + 1 < n then 4 else 0) + i * 256) status ((frags[i]?).getD [])) d) d

/-- The drawer word of R361. -/
def drawerWord (r : AixReq) : Nat := r.drawer + r.slot % 32 % 4 * 8 + r.seq % 65536 * 65536

/-! ### Sessions -/

/-- The session in a slot: 4 × drawer + slot, or 32 for the wake port. -/
def sessOf (key : Nat) (d : Dev) : Option AixSession := tabGet (fun _ => none) d.aix.sessions key

/-- A session's slot changed, and AIX_STATUS.SESSIONS with it. -/
def sessPut (key : Nat) (x : Option AixSession) (d : Dev) : Dev :=
  let t := tabSet (fun _ => none) d.aix.sessions key x
  fset F.AIX_STATUS_SESSIONS (t.filter (fun e => decide (e.1 < 32))).length { d with aix := { d.aix with sessions := t } }

/-- A session closes (R332): its cache goes with it. -/
def sessClose (key seq cause : Nat) (d : Dev) : Dev :=
  match sessOf key d with
  | none => d
  | some _ => recordC 0x0902 (key % 32 / 4 + key % 4 * 8 + seq * 65536) cause (sessPut key none d)

/-- The session of a request is still the one in its slot. -/
def sessLive (r : AixReq) (d : Dev) : Bool := (sessOf r.slot d).any (fun x => x.id == r.session)

/-- A completed request's final reply into the cache of its session (R341, R336): at most 64 payload bytes, the last 32. -/
def cachePut (r : AixReq) (status : Nat) (frags : List (List Byte)) (d : Dev) : Dev :=
  match sessOf r.slot d with
  | none => d
  | some x =>
    if x.id ≠ r.session ∨ opRd r.opcode = true then d
    else
      let p := (frags[0]?).getD []
      if frags.length ≤ 1 ∧ p.length ≤ 64 then
        let c : AixCached := { seq := r.seq, opcode := r.opcode, status, payload := p }
        sessPut r.slot (some { x with cache := (c :: x.cache).take 32 }) d
      else if opTenant r.opcode then sessPut r.slot (some { x with long := (r.seq :: x.long).take 32 }) d
      else d

/-- A cached reply of the session with this SEQ. -/
def cached (r : AixReq) (d : Dev) : Option AixCached :=
  match sessOf r.slot d with
  | some x => if x.id = r.session then x.cache.find? (fun c => c.seq == r.seq) else none
  | none => none

/-- The final reply to a request; a standard opcode outside the read set is recorded (R361). -/
def aixFinal (r : AixReq) (status : Nat) (frags : List (List Byte)) (d : Dev) : Dev :=
  let st := if r.ver = 1 ∧ status = stRecomputed then stOk else status
  let d := aixFrags r st 0 frags (cachePut r st frags d)
  if opRd r.opcode || opTenant r.opcode then d else recordC 0x0903 (drawerWord r) (r.opcode + st * 65536) d

/-- A refusal under checks 1 to 5 of R346: answered, neither cached nor recorded. -/
def aixRefuse (r : AixReq) (status : Nat) (d : Dev) : Dev := aixFrags r status 0 [] d

/-! ### Rings (R335, R363) -/

/-- The attribute byte of tenant `k`'s ring accesses. -/
def ringAttr (k : Nat) : Nat := attrOf false k 1 true false

/-- The address of slot `i` of a ring. -/
def ringSlot (base i : Nat) : Nat := base * 256 + i % 16 * 2048

/-- A bit of DRW_INT set, and the drawer interrupt raised with it. -/
def drwInt (k : Nat) (f : Fld) (d : Dev) : Dev :=
  let tl := fget (F.AIX_DCFG_IRQ_TL k) d
  let d := fput f true d
  if tl < 5 then send (.drawerIrq tl k) d else d

/-- A ring access is refused. -/
def ringError (k : Nat) (d : Dev) : Dev := recordC 0x0907 k 0 (drwInt k (F.DRW_INT_RING_ERR k) d)

/-- Entries of a ring between two indices. -/
def ringHeld (prod cons : Nat) : Nat := (prod + 32 - cons % 32) % 32

/-- An access of AIX to a ring of drawer `k`: whether it is granted, a refusal counted at the controller (R309). -/
def ringMay (k a size ty : Nat) (d : Dev) : Bool × Dev :=
  match targetOf a with
  | some c => if granted c a size ty (ringAttr k) d then (true, d) else (false, refuse c a ty size (ringAttr k) d)
  | none => (false, d)

/-- A request placed in drawer `k`'s request ring; false when the ring access is refused. -/
def ringPlace (k : Nat) (packet : List Byte) (m : List Host.Cell) (d : Dev) : Bool × List Host.Cell × Dev :=
  let p := fget (F.DRW_REQ_PROD_IDX k) d
  let a := ringSlot (fget (F.DRW_REQ_BASE_BASE k) d) p
  let (ok, d) := ringMay k a packet.length 1 d
  if ok then
    (true, memWrite a packet m, drwInt k (F.DRW_INT_REQ k) (fset (F.DRW_REQ_PROD_IDX k) (p + 1) (badCovered a packet.length d)))
  else (false, m, ringError k d)

/-- A request as it stands on the wire. -/
def requestBytes (r : AixReq) (flags : Nat) : List Byte := aixBytes r flags 0 r.payload

/-- AIX answers a tenant request in the tenant's place: at once while TL0 runs; while it does not no command is answered, and the answer
is owed until it does (R280, R343). DESIGN CHOICE: no rule says what becomes of it (notes/assumptions/75.md). -/
def aixOwe (r : AixReq) (status : Nat) (d : Dev) : Dev :=
  if tl0Runs d then aixFinal r status [] d else { d with aix := { d.aix with owed := d.aix.owed ++ [(r, status)] } }

/-- Every request of drawer `k` without a final reply is answered. -/
def tenantAnswerAll (k status : Nat) (d : Dev) : Dev :=
  let mine := d.aix.tenants.filter (fun x => x.req.drawer == k)
  let d := { d with aix := { d.aix with tenants := d.aix.tenants.filter (fun x => x.req.drawer != k) } }
  each mine (fun x d => aixOwe x.req status d) d

/-- The drawer of a tenant that is reset (R337). -/
def drawerEmpty (k : Nat) (d : Dev) : Dev :=
  let d := tenantAnswerAll k stAborted d
  each [R.DRW_REQ_PROD k, R.DRW_REQ_CONS k, R.DRW_RSP_PROD k, R.DRW_RSP_CONS k] (fun r => regPut r 0)
    (fput (F.DRW_CTRL_EN k) false d)

/-- DRW_REQ_CONS and a write of RSP_PROD: an index that would make the ring hold more than 16 entries is refused. -/
def ringIndex (k : Nat) (f : Fld) (held v : Nat) (d : Dev) : Dev :=
  if 16 < held then drwInt k (F.DRW_INT_RING_ERR k) d else fset f v d

/-- DRW_REQ_CONS: tenant software advances the request consumer index. -/
def drwReqCons (k v : Nat) (d : Dev) : Dev :=
  let prod := fget (F.DRW_REQ_PROD_IDX k) d
  ringIndex k (F.DRW_REQ_CONS_IDX k) (ringHeld prod v) v d

def execDrwReqCons (k : Fin 7) (v : BitVec 5) (s : State) : Host.Outcome State Fault Refusal :=
  onBlk 10 (drwReqCons (k.val + 1) v.toNat) s

/-- A tenant's reply that R336 refuses: cause 1 for the CRC, 2 for anything else. -/
def replyBad (k cause : Nat) (d : Dev) : Dev :=
  recordC 0x0907 k cause (drwInt k (F.DRW_INT_RSP_BAD k) (fsat F.AIX_CNT_BADRSP_CNT 1 d))

/-- One reply of a tenant, as its bytes stand in the ring slot (R336); the CRC is checked last. DESIGN CHOICE
(notes/assumptions/80.md). -/
def replyTake (k : Nat) (bs : List Byte) (d : Dev) : Dev :=
  let len := field bs 6 2
  let flags := field bs 8 2
  let seq := field bs 4 2
  let session := field bs 12 4
  let hit := d.aix.tenants.find? (fun x => x.req.drawer == k && x.req.seq == seq && x.req.session == session)
  if 1432 < len ∨ !flags.testBit 0 ∨ field bs 1 1 ≠ k then replyBad k 2 d
  else match hit with
    | none => replyBad k 2 d
    | some x =>
      let body := bs.take (16 + len)
      if crc32c body ≠ field bs (16 + len) 4 then replyBad k 1 d
      else
        let d := aixSend x.req (bs.take (20 + len)) d
        let rest := d.aix.tenants.filter (fun y => y != x)
        if flags.testBit 1 then
          { d with aix := { d.aix with tenants := rest ++ [{ x with begun := true }] } }
        else if flags.testBit 2 then d
        else
          let d := { d with aix := { d.aix with tenants := rest } }
          cachePut x.req (field bs 10 2) (if flags / 256 = 0 then [body.drop 16] else [[], []]) d

/-- The replies between the consumer and the producer index are read, sent and released, `n` at most. -/
def replyDrain (k : Nat) (m : List Host.Cell) : Nat → Dev → Dev
  | 0, d => d
  | n + 1, d =>
    let c := fget (F.DRW_RSP_CONS_IDX k) d
    if c = fget (F.DRW_RSP_PROD_IDX k) d then d
    else
      let a := ringSlot (fget (F.DRW_RSP_BASE_BASE k) d) c
      let (ok, d) := ringMay k a 2048 0 d
      let d := if ok then replyTake k (memRead m a 2048) d else ringError k d
      replyDrain k m n (fset (F.DRW_RSP_CONS_IDX k) (c + 1) d)

/-- TENANT_REPLY: tenant software advances the reply producer index. -/
def tenantReply (k v : Nat) (m : List Host.Cell) (d : Dev) : Dev :=
  let cons := fget (F.DRW_RSP_CONS_IDX k) d
  let d := ringIndex k (F.DRW_RSP_PROD_IDX k) (ringHeld v cons) v d
  if flag (F.DRW_CTRL_EN k) d && tl0Runs d then replyDrain k m 16 d else d

/-- TL0 runs again: what AIX owes is answered, and the replies that tenants have placed since leave. -/
def repliesOwed (m : List Host.Cell) (d : Dev) : Dev :=
  let l := d.aix.owed
  let d := each l (fun e d => aixFinal e.1 e.2 [] d) { d with aix := { d.aix with owed := [] } }
  each (below 8 (fun k => k != 0 && flag (F.DRW_CTRL_EN k) d)) (fun k d => replyDrain k m 16 d) d

def execTenantReply (k : Fin 7) (v : BitVec 5) (s : State) : Host.Outcome State Fault Refusal :=
  onBlk 10 (tenantReply (k.val + 1) v.toNat s.mem) s

/-- TENANT_TIMEOUT (R336): the request at place `i` has had no final reply in time. -/
def tenantTimeout (i : Nat) (d : Dev) : Dev :=
  match d.aix.tenants[i]? with
  | none => d
  | some x =>
    let d := { d with aix := { d.aix with tenants := d.aix.tenants.eraseIdx i } }
    recordC 0x0906 (drawerWord x.req) x.req.opcode (aixOwe x.req stTmo (fsat F.AIX_CNT_TMO_CNT 1 d))

def execTenantTimeout (i : Nat) (s : State) : Host.Outcome State Fault Refusal := onBlk 10 (tenantTimeout i) s

/-- AIX_CLR_CNT: the AIX counters cleared. -/
def aixClr (d : Dev) : Dev :=
  each [R.AIX_CNT_CRC, R.AIX_CNT_FMT, R.AIX_CNT_ACL, R.AIX_CNT_DUP, R.AIX_CNT_BUSY, R.AIX_CNT_DROP, R.AIX_CNT_TMO,
    R.AIX_CNT_BADRSP] (fun r => regPut r 0) d

def execAixClrCnt (s : State) : Host.Outcome State Fault Refusal := onBlk 10 aixClr s

end Sys2Proof.Machine
end

