-- ==== Sys2Proof/Machine/F32.lean ====
section
/-!
DEFINITION. Machine/F32.lean: IEEE 754 binary32 with round-to-nearest-even, subnormals kept, no fused operations (R156).
A value is its bit pattern.
-/

namespace Sys2Proof.Machine

/-- A binary32 value taken apart: a finite one is its sign, an integer and a power of two. -/
inductive Real32 where
  | nan
  | inf (neg : Bool)
  | fin (neg : Bool) (m : Nat) (e : Int)
deriving DecidableEq, Repr

/-- The value of a bit pattern. -/
def f32Of (w : Nat) : Real32 :=
  let neg := w.testBit 31
  let ex := bitsOf w 23 8
  let m := bitsOf w 0 23
  if ex = 255 then (if m = 0 then .inf neg else .nan)
  else if ex = 0 then .fin neg m (-149)
  else .fin neg (m + 2 ^ 23) ((ex : Int) - 150)

/-- The quiet NaN that an invalid operation gives. -/
def f32Nan : Nat := 0x7FC00000

def f32Sign (neg : Bool) : Nat := if neg then 2 ^ 31 else 0

def f32Inf (neg : Bool) : Nat := f32Sign neg + 0x7F800000

/-- The integer nearest to a / b, ties to even. -/
def roundDiv (a b : Nat) : Nat :=
  let q := a / b
  let r := a % b
  if b < 2 * r ∨ (b = 2 * r ∧ q % 2 = 1) then q + 1 else q

/-- The binary32 nearest to ± num / den × 2^e, ties to even; `den` is not 0. -/
def f32Round (neg : Bool) (num den : Nat) (e : Int) : Nat :=
  if num = 0 then f32Sign neg
  else
    let l : Int := (num.log2 : Int) - den.log2
    let l := if num * 2 ^ (-l).toNat < den * 2 ^ l.toNat then l - 1 else l
    let q := max (e + l - 23) (-149)
    let m := roundDiv (num * 2 ^ (e - q).toNat) (den * 2 ^ (q - e).toNat)
    let bits := m + (q + 149).toNat * 2 ^ 23
    f32Sign neg + min bits 0x7F800000

/-- The binary32 nearest to the ratio of an integer and a positive number. -/
def f32Ratio (num : Int) (den : Nat) : Nat := f32Round (decide (num < 0)) num.natAbs den 0

def f32Neg (a : Nat) : Nat := a ^^^ 2 ^ 31

def f32Abs (a : Nat) : Nat := a % 2 ^ 31

/-- Addition: an exact sum of 0 is +0 but for two negative zeros. -/
def f32Add (a b : Nat) : Nat :=
  match f32Of a, f32Of b with
  | .nan, _ | _, .nan => f32Nan
  | .inf s, .inf t => if s = t then f32Inf s else f32Nan
  | .inf s, _ => f32Inf s
  | _, .inf t => f32Inf t
  | .fin s m e, .fin t n f =>
    let g := min e f
    let x : Int := (if s then -1 else 1) * (m * 2 ^ (e - g).toNat : Nat)
    let y : Int := (if t then -1 else 1) * (n * 2 ^ (f - g).toNat : Nat)
    if x + y = 0 then f32Sign (s && t) else f32Round (decide (x + y < 0)) (x + y).natAbs 1 g

def f32Sub (a b : Nat) : Nat := f32Add a (f32Neg b)

def f32Mul (a b : Nat) : Nat :=
  match f32Of a, f32Of b with
  | .nan, _ | _, .nan => f32Nan
  | .inf s, .inf t => f32Inf (s != t)
  | .inf s, .fin t n _ => if n = 0 then f32Nan else f32Inf (s != t)
  | .fin s m _, .inf t => if m = 0 then f32Nan else f32Inf (s != t)
  | .fin s m e, .fin t n f => f32Round (s != t) (m * n) 1 (e + f)

def f32Div (a b : Nat) : Nat :=
  match f32Of a, f32Of b with
  | .nan, _ | _, .nan => f32Nan
  | .inf _, .inf _ => f32Nan
  | .inf s, .fin t _ _ => f32Inf (s != t)
  | .fin s _ _, .inf t => f32Sign (s != t)
  | .fin s m e, .fin t n f =>
    if n = 0 then (if m = 0 then f32Nan else f32Inf (s != t)) else f32Round (s != t) m n (e - f)

/-- a < b; false when either is a NaN. -/
def f32Lt (a b : Nat) : Bool :=
  match f32Of a, f32Of b with
  | .nan, _ | _, .nan => false
  | .inf s, .inf t => s && !t
  | .inf s, _ => s
  | _, .inf t => !t
  | .fin s m e, .fin t n f =>
    let g := min e f
    let x : Int := (if s then -1 else 1) * (m * 2 ^ (e - g).toNat : Nat)
    let y : Int := (if t then -1 else 1) * (n * 2 ^ (f - g).toNat : Nat)
    decide (x < y)

/-- a ≤ b; false when either is a NaN. -/
def f32Le (a b : Nat) : Bool := f32Of a != .nan && f32Of b != .nan && !f32Lt b a

def f32Finite (a : Nat) : Bool := bitsOf a 23 8 != 255

/-- a held between two bounds. -/
def f32Clamp (lo hi a : Nat) : Nat := if f32Lt a lo then lo else if f32Lt hi a then hi else a

/-- The integer part of a value that is not negative, held below `top`. -/
def f32Floor (top a : Nat) : Nat :=
  match f32Of a with
  | .fin false m e => min top (if e < 0 then m / 2 ^ (-e).toNat else m * 2 ^ e.toNat)
  | .inf false => top
  | _ => 0

/-- The value times `scale`, rounded to the nearest integer, ties to even; none for a NaN or an infinity. -/
def f32Fixed (scale : Nat) (den : Nat) (a : Nat) : Option Int :=
  match f32Of a with
  | .fin s m e =>
    let q := roundDiv (m * scale * 2 ^ e.toNat) (den * 2 ^ (-e).toNat)
    some (if s then -(q : Int) else q)
  | _ => none

/-- A published field (R178): the value times scale / den, rounded, saturating at `lo` and `hi`; 0 for a NaN. -/
def f32Field (lo hi : Int) (scale den a : Nat) : Int :=
  match f32Of a with
  | .nan => 0
  | .inf s => if s then lo else hi
  | .fin _ _ _ => max lo (min hi ((f32Fixed scale den a).getD 0))

/-! ### Functions that are no single operation -/

/-- π/2 and ln 2 times 2^128, rounded down. -/
def halfPi128 : Nat := 534514292032483373929840186580935391650
def ln2At128 : Nat := 235865763225513294137944142764154484399

/-- Powers of x over factorials from x^i/i! on, `k` of them, each times 2^128. -/
def powerTerms (x : Nat) : Nat → Nat → Nat → List Nat
  | 0, _, _ => []
  | k + 1, i, t => t :: powerTerms x k (i + 1) (t * x / ((i + 1) * 2 ^ 128))

/-- exp of a binary32, to nearest (R154, R156): the argument as k ln 2 + r, and the series of exp r to an error of some 2^-120. -/
def f32Exp (a : Nat) : Nat :=
  match f32Of a with
  | .nan => f32Nan
  | .inf s => if s then 0 else f32Inf false
  | .fin s m e =>
    if 128 * 2 ^ (-e).toNat ≤ m * 2 ^ e.toNat then (if s then 0 else f32Inf false)
    else
      let u : Int := (m * 2 ^ (128 + e).toNat / 2 ^ (-(128 + e)).toNat : Nat)
      let x := if s then -u else u
      let k := x / (ln2At128 : Int)
      f32Round false (powerTerms (x - k * (ln2At128 : Int)).toNat 44 0 (2 ^ 128)).sum 1 (k - 128)

/-- The cosine and the sine, each times 2^128, of n/q of a turn. -/
def turnCosSin (n q : Nat) : Int × Int :=
  let x := 4 * (n % q)
  let ts := (List.range 44).zip (powerTerms (x % q * halfPi128 / q) 44 0 (2 ^ 128))
  let part (odd : Nat) : Int :=
    ts.foldl (fun (s : Int) e => if e.1 % 2 = odd then (if e.1 % 4 = odd then s + e.2 else s - e.2) else s) 0
  match x / q with
  | 0 => (part 0, part 1)
  | 1 => (-part 1, part 0)
  | 2 => (-part 0, -part 1)
  | _ => (part 1, -part 0)

/-- A fixed-point value over 2^128 and over `den` as binary32, to nearest. -/
def f32From128 (v : Int) (den : Nat) : Nat := f32Round (decide (v < 0)) v.natAbs den (-128)

/-- The integer square root, bit by bit from bit `k`. -/
def isqrtFrom (n : Nat) : Nat → Nat → Nat
  | 0, r => r
  | k + 1, r => isqrtFrom n k (if (r + 2 ^ k) * (r + 2 ^ k) ≤ n then r + 2 ^ k else r)

/-- The square root times 2^16, rounded to nearest, held below 65,536 (SOC_SD, R178). -/
def f32SqrtField (a : Nat) : Nat :=
  match f32Of a with
  | .nan => 0
  | .inf s => if s then 0 else 65535
  | .fin s m e =>
    if s then 0
    else
      -- (2 × √x × 2^16)² = x × 2^34, rounded down, gives the half
      let n := m * 2 ^ (e + 34).toNat / 2 ^ (-(e + 34)).toNat
      min 65535 ((isqrtFrom n 80 0 + 1) / 2)

end Sys2Proof.Machine
end

