-- ==== Sys2Proof/Machine/Records.lean ====
section
/-!
DEFINITION. Machine/Records.lean: the fields of a Kazilo data burst (R101 to R104), given as the bytes of its header and body.
-/

namespace Sys2Proof.Machine

/-- STATUS of a burst. -/
def burstStatus (bs : List Byte) : Nat := field bs 10 2

/-- FRAME of a burst. -/
def burstFrame (bs : List Byte) : Nat := field bs 4 4

/-- A burst with a current record (HEAD, R101). -/
def burstHead (bs : List Byte) : Bool := (field bs 1 1).testBit 4

/-- Cell record `i` as a 128-bit number (R102). -/
def cellRec (bs : List Byte) (i : Nat) : Nat := field bs (12 + 16 * i) 16

def cellV (r : Nat) : Nat := bitsOf r 0 20
def cellAbsent (r : Nat) : Bool := r.testBit 21
def cellOw (r : Nat) : Bool := r.testBit 23
def cellTemp (r : Nat) : Int := toSigned 12 (bitsOf r 24 12)
def cellTinv (r : Nat) : Bool := r.testBit 36
def cellVdip (r : Nat) : Nat := bitsOf r 112 8
def cellVrise (r : Nat) : Nat := bitsOf r 120 8

/-- Auxiliary channel entry `j` (R104). -/
def auxRec (bs : List Byte) (j : Nat) : Nat := field bs (524 + 3 * j) 3

def auxValue (r : Nat) : Nat := bitsOf r 0 16
def auxType (r : Nat) : Nat := bitsOf r 16 4
def auxInvalid (r : Nat) : Bool := r.testBit 20

/-- VMOD, 2.5 mV, and SAT_TEMP, 1/128 °C (R104). -/
def burstVmod (bs : List Byte) : Nat := field bs 536 2
def burstSatTemp (bs : List Byte) : Int := toSigned 16 (field bs 538 2)

/-- The current record as a 128-bit number (R103). -/
def currentRec (bs : List Byte) : Nat := field bs 540 16

def curMean (r : Nat) : Int := toSigned 24 (bitsOf r 0 24)
def curValid (r : Nat) : Bool := r.testBit 91
def curPeak (r : Nat) : Nat := bitsOf r 96 16

/-- A head record whose current fields hold (I_VALID). -/
def headValid (bs : List Byte) : Bool := burstHead bs && curValid (currentRec bs)

end Sys2Proof.Machine
end

