-- ==== Sys2Proof/Machine/Cell.lean ====
section
/-!
DEFINITION. Machine/Cell.lean: one update or reinitialisation of one cell (R154 to R166), on its state block, its input entry,
its chemistry set and its ledger. Expressions are evaluated in binary32 in the order in which the spec writes them, left to
right (notes/assumptions/18.md).
-/

namespace Sys2Proof.Machine

/-! ### State blocks (R170, R171) -/

/-- A state block taken apart; binary32 values are bit patterns. -/
structure CellBlock where
  soc : Nat := 0
  v1 : Nat := 0
  v2 : Nat := 0
  p11 : Nat := 0
  p12 : Nat := 0
  p13 : Nat := 0
  p22 : Nat := 0
  p23 : Nat := 0
  p33 : Nat := 0
  rgain : Nat := 0
  rgainVar : Nat := 0
  cap : Nat := 0
  zpRe : Nat := 0
  zpIm : Nat := 0
  zqRe : Nat := 0
  zqIm : Nat := 0
  tempF : Nat := 0
  innov : Nat := 0
  sInnov : Nat := 0
  iLast : Nat := 0
  lastFrame : Nat := 0
  ordP : Nat := 0
  ordQ : Nat := 0
  state : Nat := 0
  impP : Bool := false
  impQ : Bool := false
  unexcP : Bool := false
  unexcQ : Bool := false
  recomputed : Bool := false
  tempHeld : Bool := false
  socClamp : Bool := false
  outlier : Bool := false
  unaligned : Bool := false
  thold : Nat := 0
  frames : Nat := 0
  chem : Nat := 0
  cause : Nat := 0
  ahAbs : Nat := 0
  reinits : Nat := 0
  recomputes : Nat := 0
deriving DecidableEq, Repr

/-- STATUS (R171). -/
def statusWord (s : CellBlock) : Nat :=
  s.state % 8 + b2n s.impP * 2 ^ 3 + b2n s.impQ * 2 ^ 4 + b2n s.unexcP * 2 ^ 5 + b2n s.unexcQ * 2 ^ 6
    + b2n s.recomputed * 2 ^ 7 + b2n s.tempHeld * 2 ^ 8 + b2n s.socClamp * 2 ^ 9 + b2n s.outlier * 2 ^ 10
    + b2n s.unaligned * 2 ^ 11 + s.thold % 16 * 2 ^ 12 + s.frames % 16 * 2 ^ 16 + s.chem % 8 * 2 ^ 20
    + s.cause % 16 * 2 ^ 24

/-- The words 0 to 24 of a block, the rest 0. -/
def blockWords (s : CellBlock) : List Nat :=
  [s.soc, s.v1, s.v2, s.p11, s.p12, s.p13, s.p22, s.p23, s.p33, s.rgain, s.rgainVar, s.cap, s.zpRe, s.zpIm, s.zqRe, s.zqIm,
   s.tempF, s.innov, s.sInnov, s.iLast, s.lastFrame, s.ordP % 32 + s.ordQ % 32 * 256, statusWord s, s.ahAbs,
   s.reinits + s.recomputes * 65536, 0, 0, 0, 0, 0, 0, 0]

/-- A block from its words. -/
def blockOf (w : Nat → Nat) : CellBlock :=
  let st := w 22
  { soc := w 0, v1 := w 1, v2 := w 2, p11 := w 3, p12 := w 4, p13 := w 5, p22 := w 6, p23 := w 7, p33 := w 8,
    rgain := w 9, rgainVar := w 10, cap := w 11, zpRe := w 12, zpIm := w 13, zqRe := w 14, zqIm := w 15, tempF := w 16,
    innov := w 17, sInnov := w 18, iLast := w 19, lastFrame := w 20, ordP := bitsOf (w 21) 0 5, ordQ := bitsOf (w 21) 8 5,
    state := bitsOf st 0 3, impP := st.testBit 3, impQ := st.testBit 4, unexcP := st.testBit 5, unexcQ := st.testBit 6,
    recomputed := st.testBit 7, tempHeld := st.testBit 8, socClamp := st.testBit 9, outlier := st.testBit 10,
    unaligned := st.testBit 11, thold := bitsOf st 12 4, frames := bitsOf st 16 4, chem := bitsOf st 20 3,
    cause := bitsOf st 24 4, ahAbs := w 23, reinits := bitsOf (w 24) 0 16, recomputes := bitsOf (w 24) 16 16 }

/-- Address of the block of cell index `i`. -/
def blockAt (i : Nat) : Nat := storeBase + 128 * i

/-- The block of cell index `i` as the store holds it. -/
def blockLoad (m : List Host.Cell) (i : Nat) : CellBlock := blockOf (fun k => memWord m (blockAt i + 4 * k))

/-- The write-back of a block: words 0 to 31 in ascending order (R173). -/
def blockStore (i : Nat) (s : CellBlock) (m : List Host.Cell) : List Host.Cell :=
  memWrite (blockAt i) ((blockWords s).flatMap (leBytes 4)) m

/-- The binary32 values of a block. -/
def blockValues (s : CellBlock) : List Nat :=
  [s.soc, s.v1, s.v2, s.p11, s.p12, s.p13, s.p22, s.p23, s.p33, s.rgain, s.rgainVar, s.cap, s.zpRe, s.zpIm, s.zqRe, s.zqIm,
   s.tempF, s.innov, s.sInnov, s.iLast, s.ahAbs]

/-- A value of the block is not finite, or a diagonal entry of P is not positive (R160, R165 cause 2). -/
def blockBad (s : CellBlock) : Bool :=
  (blockValues s).any (fun v => !f32Finite v) || !f32Lt 0 s.p11 || !f32Lt 0 s.p22 || !f32Lt 0 s.p33

/-! ### Chemistry sets (R157, R158) -/

/-- First address of chemistry set `k`. -/
def chemAt (k : Nat) : Nat := storeBase + 0x300000 + 0x20000 * k

/-- A field of a chemistry set: its memory, the set's address. -/
structure Chem where
  mem : List Host.Cell
  base : Nat
deriving DecidableEq, Repr

def chemF (c : Chem) (off : Nat) : Nat := memWord c.mem (c.base + off)

/-- An integer as binary32. -/
def f32Int (i : Int) : Nat := f32Ratio i 1

/-- a + (b − a) × f. -/
def f32Mix (a b f : Nat) : Nat := f32Add a (f32Mul (f32Sub b a) f)

/-- Temperature row and fraction: the temperature clamped to T0 and T0 + 70, grid step 10. -/
def chemRow (c : Chem) (t : Nat) : Nat × Nat :=
  let t0 := chemF c 0
  let x := f32Div (f32Sub (f32Clamp t0 (f32Add t0 (f32Int 70)) t) t0) (f32Int 10)
  let i := f32Floor 6 x
  (i, f32Sub x (f32Int i))

/-- SoC column and fraction on a grid of `n` + 1 columns. -/
def chemCol (n soc : Nat) : Nat × Nat :=
  let x := f32Mul (f32Clamp 0 (f32Int 1) soc) (f32Int n)
  let j := f32Floor (n - 1) x
  (j, f32Sub x (f32Int j))

/-- A table of `n` + 1 columns at offset `off`, evaluated bilinearly in SoC and temperature. -/
def chemLook (c : Chem) (off n soc t : Nat) : Nat :=
  let (i, ft) := chemRow c t
  let (j, fs) := chemCol n soc
  let at' (r : Nat) : Nat :=
    f32Mix (chemF c (off + 4 * ((n + 1) * r + j))) (chemF c (off + 4 * ((n + 1) * r + j + 1))) fs
  f32Mix (at' i) (at' (i + 1)) ft

def chemOcv (c : Chem) (soc t : Nat) : Nat := chemLook c 0x0100 100 soc t
def chemRser (c : Chem) (soc t : Nat) : Nat := chemLook c 0x1000 20 soc t
def chemRp1 (c : Chem) (soc t : Nat) : Nat := chemLook c 0x1400 20 soc t
def chemTau1 (c : Chem) (soc t : Nat) : Nat := chemLook c 0x1800 20 soc t
def chemRp2 (c : Chem) (soc t : Nat) : Nat := chemLook c 0x1C00 20 soc t
def chemTau2 (c : Chem) (soc t : Nat) : Nat := chemLook c 0x2000 20 soc t

/-- dOCV/dSoC: the slope across the SoC interval, interpolated in temperature. -/
def chemSlope (c : Chem) (soc t : Nat) : Nat :=
  let (i, ft) := chemRow c t
  let (j, _) := chemCol 100 soc
  let at' (r : Nat) : Nat :=
    f32Mul (f32Sub (chemF c (0x0100 + 4 * (101 * r + j + 1))) (chemF c (0x0100 + 4 * (101 * r + j)))) (f32Int 100)
  f32Mix (at' i) (at' (i + 1)) ft

/-- OCV of the row interpolated at temperature `t`, at column `j`. -/
def ocvRow (c : Chem) (t j : Nat) : Nat :=
  let (i, ft) := chemRow c t
  f32Mix (chemF c (0x0100 + 4 * (101 * i + j))) (chemF c (0x0100 + 4 * (101 * (i + 1) + j))) ft

/-- The inverse of OCV at temperature `t` by search over the interpolated row. -/
def ocvInverse (c : Chem) (v t : Nat) : Nat :=
  if f32Lt v (ocvRow c t 0) then 0
  else if f32Lt (ocvRow c t 100) v then f32Int 1
  else
    let j := (List.range 100).foldl (fun b j => if f32Le (ocvRow c t j) v then j else b) 0
    let a := ocvRow c t j
    let f := f32Div (f32Sub v a) (f32Sub (ocvRow c t (j + 1)) a)
    f32Div (f32Add (f32Int j) f) (f32Int 100)

/-- FADE, interpolated in RGAIN from 1.00 in steps of 0.25 and clamped at its ends. -/
def chemFade (c : Chem) (g : Nat) : Nat :=
  let x := f32Mul (f32Sub (f32Clamp (f32Int 1) (f32Int 5) g) (f32Int 1)) (f32Int 4)
  let j := f32Floor 15 x
  f32Mix (chemF c (0x2400 + 4 * j)) (chemF c (0x2400 + 4 * (j + 1))) (f32Sub x (f32Int j))

/-! ### The update (R160) -/

/-- What one cell update is given: frame, the cell's record, its position's entry, its chemistry set, the string's ledger, and
the configuration of R187. -/
structure CellIn where
  frame : Nat
  record : Nat
  entry : EstEntry
  chem : Chem
  set : Nat
  ledger : List LedgerEntry
  gate : Nat
  thold : Nat
  imin : Nat
deriving DecidableEq, Repr

/-- The frame period of an increment (R155). -/
def dtOf (inc : Nat) : Nat := if inc = 0 then f32Inf false else f32Round false (2 ^ 48) (inc * 10 ^ 8) 0

/-- VCELL in V, TEMP in °C, and the current of the frame in A. -/
def inV (x : CellIn) : Nat := f32Ratio (cellV x.record) 100000
def inTemp (x : CellIn) : Nat := f32Ratio (cellTemp x.record) 16
def inI (x : CellIn) : Nat := f32Ratio (curMean x.entry.cur) 1000

/-- The cell's temperature is known (R164). -/
def tempKnown (x : CellIn) (s : CellBlock) : Bool := !cellTinv x.record || decide (s.thold < x.thold)

/-- VCELL of the frame is usable (R164). -/
def vUsable (x : CellIn) (s : CellBlock) : Bool :=
  !cellAbsent x.record && !x.record.testBit 20 && !cellOw x.record && tempKnown x s

/-- T_N. -/
def tempN (x : CellIn) (s : CellBlock) : Nat := if cellTinv x.record then s.tempF else inTemp x

/-- TEMP_F and THOLD_CNT after the frame (R164). -/
def tempKeep (x : CellIn) (s : CellBlock) : CellBlock :=
  if cellTinv x.record then { s with tempHeld := true, thold := min 15 (s.thold + 1) }
  else if vUsable x s then { s with tempF := inTemp x, thold := 0 }
  else s

/-- Prediction over one frame (R154, R160): current, period and temperature of that frame; MISS_VAR for a missing one. -/
def cellPredict (c : Chem) (i dt t : Nat) (miss : Bool) (s : CellBlock) : CellBlock :=
  let p11 := if miss then f32Add s.p11 (chemF c 0x0028) else s.p11
  let eta := if f32Lt 0 i then chemF c 0x0008 else chemF c 0x000C
  let one := f32Int 1
  let a1 := f32Exp (f32Div (f32Neg dt) (chemTau1 c s.soc t))
  let a2 := f32Exp (f32Div (f32Neg dt) (chemTau2 c s.soc t))
  let soc := f32Add s.soc (f32Div (f32Mul (f32Mul eta i) dt) (f32Mul (f32Int 3600) s.cap))
  let v1 := f32Add (f32Mul a1 s.v1) (f32Mul (f32Mul (chemRp1 c s.soc t) (f32Sub one a1)) i)
  let v2 := f32Add (f32Mul a2 s.v2) (f32Mul (f32Mul (chemRp2 c s.soc t) (f32Sub one a2)) i)
  let fpf (a p b : Nat) : Nat := f32Mul (f32Mul a p) b
  { s with
    soc, v1, v2
    p11 := f32Add (fpf one p11 one) (chemF c 0x0010)
    p12 := fpf one s.p12 a1
    p13 := fpf one s.p13 a2
    p22 := f32Add (fpf a1 s.p22 a1) (chemF c 0x0014)
    p23 := fpf a1 s.p23 a2
    p33 := f32Add (fpf a2 s.p33 a2) (chemF c 0x0018)
    rgainVar := f32Add s.rgainVar (chemF c 0x002C)
    iLast := i
    ahAbs := f32Add s.ahAbs (f32Div (f32Mul (f32Abs i) dt) (f32Int 3600)) }

/-- The steps from LAST_FRAME + 1 to N over the ledger (R160, R169): `k` frames still to integrate. -/
def cellSteps (x : CellIn) (tN tF : Nat) : Nat → CellBlock → CellBlock
  | 0, s => s
  | k + 1, s =>
    let j := (x.frame + 2 ^ 32 - k) % 2 ^ 32
    let e := (x.ledger.find? (fun e => e.frame == j)).getD { frame := j, inc := x.entry.inc }
    let s := match e.imean with
      | some i => cellPredict x.chem (f32Ratio i 1000) (dtOf e.inc) (if k = 0 then tN else tF) false s
      | none => cellPredict x.chem s.iLast (dtOf e.inc) (if k = 0 then tN else tF) true s
    cellSteps x tN tF k s

/-- The measurement (R160): innovation, gate, gain. -/
def cellMeasure (x : CellIn) (t : Nat) (s : CellBlock) : CellBlock :=
  let c := x.chem
  let h := chemSlope c s.soc t
  let vp := f32Add (f32Add (f32Add (chemOcv c s.soc t) s.v1) s.v2) (f32Mul (f32Mul s.rgain (chemRser c s.soc t)) (inI x))
  let e := f32Sub (inV x) vp
  let ph1 := f32Add (f32Add (f32Mul s.p11 h) s.p12) s.p13
  let ph2 := f32Add (f32Add (f32Mul s.p12 h) s.p22) s.p23
  let ph3 := f32Add (f32Add (f32Mul s.p13 h) s.p23) s.p33
  let sv := f32Add (f32Add (f32Add (f32Mul h ph1) ph2) ph3) (chemF c 0x001C)
  let g := f32Int x.gate
  let s := { s with innov := e, sInnov := sv }
  if x.gate = 0 ∨ f32Le (f32Mul e e) (f32Mul (f32Mul g g) sv) = true then
    let k1 := f32Div ph1 sv
    let k2 := f32Div ph2 sv
    let k3 := f32Div ph3 sv
    let down (p a b : Nat) : Nat := f32Sub p (f32Mul (f32Mul a sv) b)
    { s with
      state := 0
      soc := f32Add s.soc (f32Mul k1 e), v1 := f32Add s.v1 (f32Mul k2 e), v2 := f32Add s.v2 (f32Mul k3 e)
      p11 := down s.p11 k1 k1, p12 := down s.p12 k1 k2, p13 := down s.p13 k1 k3
      p22 := down s.p22 k2 k2, p23 := down s.p23 k2 k3, p33 := down s.p33 k3 k3 }
  else { s with state := 1, outlier := true }

/-- SoC clamped (R160). -/
def cellClamp (c : Chem) (s : CellBlock) : CellBlock :=
  let soc := f32Clamp (chemF c 0x003C) (chemF c 0x0040) s.soc
  if soc = s.soc then s else { s with soc, socClamp := true }

/-! ### Reinitialisation (R166) -/

/-- Reinitialisation under `cause` from a usable VCELL and a valid current of the frame. -/
def cellReinit (x : CellIn) (cause : Nat) (s : CellBlock) : CellBlock :=
  let c := x.chem
  let one := f32Int 1
  let t := tempN x s
  let fresh := cause == 0 || cause == 3
  let keep (ok : Bool) (v new : Nat) : Nat := if !fresh && f32Finite v && ok then v else new
  let rgain := keep (f32Le (chemF c 0x0044) s.rgain && f32Le s.rgain (chemF c 0x0048)) s.rgain one
  let s := tempKeep x { s with tempHeld := false }
  let s := if fresh then { s with reinits := 0, recomputes := 0 } else s
  { s with
    soc := ocvInverse c (f32Sub (inV x) (f32Mul (f32Mul rgain (chemRser c (f32Ratio 1 2) t)) (inI x))) t
    v1 := 0, v2 := 0
    p11 := chemF c 0x0020, p12 := 0, p13 := 0, p22 := chemF c 0x0024, p23 := 0, p33 := chemF c 0x0024
    rgain
    rgainVar := keep (f32Le 0 s.rgainVar) s.rgainVar (chemF c 0x0030)
    cap := keep (f32Lt 0 s.cap && f32Le s.cap (chemF c 0x0004)) s.cap (chemF c 0x0004)
    ahAbs := keep (f32Le 0 s.ahAbs) s.ahAbs 0
    innov := 0, sInnov := 0, socClamp := false, outlier := false
    state := 4, cause
    reinits := min 65535 (s.reinits + 1) }

/-! ### Impedance, series resistance and capacity (R161 to R163) -/

/-- The corrected phasor of the cell (0.5 µV per LSB) or of the head (10 mA per LSB) at order `h` (R139): the received one turned
back by h × d_cnt / 65536 of a turn, rounded once to binary32 (notes/assumptions/18.md). -/
def corrected (current : Bool) (h dly inc re im : Nat) : Nat × Nat :=
  let (c, s) := turnCosSin (h * dly * inc) (10 * 2 ^ 48)
  let a := toSigned 16 re
  let b := toSigned 16 im
  let den := if current then 100 else 2000000
  (f32From128 (a * c + b * s) den, f32From128 (b * c - a * s) den)

/-- A ratio Vc / Ic with the square of |Ic|; none when |Ic| is below EST_ZCFG.IMIN. -/
def ratioOf (imin : Nat) (v i : Nat × Nat) : Option (Nat × Nat × Nat) :=
  let sq := f32Add (f32Mul i.1 i.1) (f32Mul i.2 i.2)
  let lim := f32Ratio imin 100
  if f32Le (f32Mul lim lim) sq then
    some (f32Div (f32Add (f32Mul v.1 i.1) (f32Mul v.2 i.2)) sq,
      f32Div (f32Sub (f32Mul v.2 i.1) (f32Mul v.1 i.2)) sq, sq)
  else none

/-- One observation of RGAIN (R162) at order `h` from a ratio's real part and |Ic|². -/
def rgainStep (x : CellIn) (t h re sq : Nat) (s : CellBlock) : CellBlock :=
  let c := x.chem
  let one := f32Int 1
  let w := f32Div (f32Mul 0x40C90FDB (f32Int h)) (dtOf x.entry.inc)
  let branch (rp tau : Nat) : Nat :=
    let y := f32Mul w tau
    f32Div rp (f32Add one (f32Mul y y))
  let rser := chemRser c s.soc t
  let obs := f32Div (f32Sub (f32Sub re (branch (chemRp1 c s.soc t) (chemTau1 c s.soc t)))
    (branch (chemRp2 c s.soc t) (chemTau2 c s.soc t))) rser
  let var := f32Div (chemF c 0x0034) (f32Mul sq (f32Mul rser rser))
  let k := f32Div s.rgainVar (f32Add s.rgainVar var)
  { s with
    rgain := f32Clamp (chemF c 0x0044) (chemF c 0x0048) (f32Add s.rgain (f32Mul k (f32Sub obs s.rgain)))
    rgainVar := f32Mul (f32Sub one k) s.rgainVar }

/-- The model's last part: impedance, RGAIN and capacity (R161 to R163). -/
def cellModel (x : CellIn) (t : Nat) (s : CellBlock) : CellBlock :=
  let r := x.record
  let e := x.entry
  let ph (h : Nat) (ok : Bool) (lo ilo : Nat) : Option (Nat × Nat × Nat) :=
    if ok && !r.testBit 37 && !cellAbsent r then
      ratioOf x.imin (corrected false h e.dlyPos e.inc (bitsOf r lo 16) (bitsOf r (lo + 16) 16))
        (corrected true h e.dlyHead e.inc (bitsOf e.cur ilo 16) (bitsOf e.cur (ilo + 16) 16))
    else none
  let zp := ph e.ordP (e.phP && !r.testBit 104) 40 24
  let zq := ph e.ordQ (e.phQ && !r.testBit 105 && r.testBit 106) 72 56
  let re (z : Option (Nat × Nat × Nat)) : Nat := (z.map (·.1)).getD 0
  let im (z : Option (Nat × Nat × Nat)) : Nat := (z.map (·.2.1)).getD 0
  let s := { s with
    zpRe := re zp, zpIm := im zp, impP := zp.isSome, zqRe := re zq, zqIm := im zq, impQ := zq.isSome
    unexcP := e.unexcP, unexcQ := e.unexcQ, ordP := e.ordP, ordQ := e.ordQ }
  let useP := zp.isSome && !e.unexcP
  let useQ := zq.isSome && !e.unexcQ
  let s := match zp with
    | some z => if useP then rgainStep x t e.ordP z.1 z.2.2 s else s
    | none => s
  let s := match zq with
    | some z => if useQ then rgainStep x t e.ordQ z.1 z.2.2 s else s
    | none => s
  if useP || useQ then
    let c := x.chem
    { s with cap := f32Add s.cap (f32Div (f32Sub (f32Mul (chemF c 0x0004) (chemFade c s.rgain)) s.cap) (chemF c 0x0038)) }
  else s

/-! ### One run -/

/-- How a run ends: the block to write, whether an update or reinitialisation was made, the cause of a reinitialisation made or
tried, and the lane-cycles (R174). -/
structure CellOut where
  block : CellBlock
  made : Bool
  cause : Option Nat
  cost : Nat
deriving DecidableEq, Repr

/-- A block with its STATE and the flags of an update not made (R168, R171): no other word changes. -/
def blockIdle (state : Nat) (unaligned : Bool) (s : CellBlock) : CellBlock :=
  { s with state, unaligned, impP := false, impQ := false, unexcP := false, unexcQ := false, recomputed := false,
           tempHeld := false, socClamp := false, outlier := false }

/-- The run of R160 for a cell whose reinitialisation is due under `due`, or not due. The block comes with the flags of the
update cleared. -/
def cellRun (x : CellIn) (due : Option Nat) (s0 : CellBlock) : CellOut :=
  let s := blockIdle s0.state s0.unaligned s0
  let finish (made : CellBlock) : CellBlock := { made with lastFrame := x.frame, chem := x.set }
  let reinit (cause cost : Nat) (from' : CellBlock) : CellOut :=
    if vUsable x s then
      { block := finish (cellModel x (tempN x s) (cellReinit x cause from')), made := true, cause := some cause, cost }
    else { block := { s with state := 3 }, made := false, cause := some cause, cost := 40 }
  match due with
  | some c => reinit c 210 s
  | none =>
    if !tempKnown x s then { block := { s with state := 2 }, made := false, cause := none, cost := 40 }
    else
      -- R41: no frame is integrated when LAST_FRAME is not before N
      let n := (sdiff32 x.frame s.lastFrame).toNat
      let t := tempN x s
      let p := cellSteps x t s.tempF n { s with innov := 0, sInnov := 0, state := 1, frames := min 15 n }
      let p := if vUsable x s then cellMeasure x t p else p
      let p := cellClamp x.chem p
      let cost := 420 + 100 * (n - 1)
      if blockBad p then
        let r := reinit 2 cost { p with tempF := s.tempF, thold := s.thold }
        if r.made then r else { r with cost }
      else { block := finish (cellModel x t (tempKeep x p)), made := true, cause := none, cost }

end Sys2Proof.Machine
end

