-- ==== Sys2Proof/Machine/Prot.lean ====
section
/-!
DEFINITION. Machine/Prot.lean: the protection engine (06): limits, trips and latches, the zone state, the string sequencers and
the handshake of a pair.
-/

namespace Sys2Proof.Machine

/-! ### Strings -/

/-- The hidden part of string `n`'s sequencer. -/
def seqOf (n : Nat) (d : Dev) : Seq := tabGet (fun _ => {}) d.prot.seqs n

def seqPut (n : Nat) (x : Seq) (d : Dev) : Dev :=
  { d with prot := { d.prot with seqs := tabSet (fun _ => {}) d.prot.seqs n x } }

/-- The state of string `n` (R208). -/
def seqState (n : Nat) (d : Dev) : Nat := fget (F.PROT_SEQ_STATE n) d

/-- String `n` is in NEG, PRECHARGE or POS. -/
def closing (n : Nat) (d : Dev) : Bool := 1 ≤ seqState n d && seqState n d ≤ 3

/-- String `n` enters state `st`. -/
def seqTo (n st : Nat) (d : Dev) : Dev :=
  let d := seqPut n { seqOf n d with enterAt := d.clk, edgeAt := d.clk, gapAt := none, preOff := false, preFrames := 0,
                                     preLast := none, openFrames := 0 } d
  let d := mask48BitPut F.PROT_CLOSED_LO_CLOSED F.PROT_CLOSED_HI_CLOSED n (st == 4) (fset (F.PROT_SEQ_STATE n) st d)
  -- a string counts as starved only while its set is CLOSED (R148)
  let d := mask48BitPut F.ACQ_STARVED_LO_STARVED F.ACQ_STARVED_HI_STARVED n
    (st == 4 && decide (fget F.ACQ_EXC_CTRL_FRAMES d ≤ (strOf n d).starve)) d
  if 1 ≤ st ∧ st ≤ 3 then fset F.PROT_STATUS_CLOSING n d
  else if fget F.PROT_STATUS_CLOSING d = n then fset F.PROT_STATUS_CLOSING 63 d else d

/-- String `n`'s trip latch. -/
def tripLatch (n : Nat) (d : Dev) : Bool := mask48Bit F.PROT_TRIP_LO_TRIP F.PROT_TRIP_HI_TRIP n d

def tripLatchPut (n : Nat) (b : Bool) (d : Dev) : Dev := mask48BitPut F.PROT_TRIP_LO_TRIP F.PROT_TRIP_HI_TRIP n b d

/-- Every coil of the set of string `n` off (R212). -/
def coilsOff (n : Nat) (d : Dev) : Dev := each roles (fun r => coilPut (roleCh n r d) false) d

/-- A coil of string `n` is on. -/
def anyCoil (n : Nat) (d : Dev) : Bool := roles.any (fun r => coilOn (roleCh n r d) d)

/-- The level of switch input `i` after INV (R225). -/
def swLevel (i : Nat) (d : Dev) : Bool := mask48Bit F.IOX_SW_LO_LEVEL F.IOX_SW_HI_LEVEL i d

/-- The feedback of a role shows closed; a role without an input shows what its coil is (R208). -/
def fbClosed (n : Nat) (r : Role) (d : Dev) : Bool :=
  if roleFb n r d < 48 then swLevel (roleFb n r d) d else coilOn (roleCh n r d) d

/-- Every bound feedback input of string `n` shows open. -/
def fbAllOpen (n : Nat) (d : Dev) : Bool := roles.all (fun r => !fbClosed n r d)

/-- String `n` leaves the close queue. -/
def queueDrop (n : Nat) (d : Dev) : Dev :=
  fput (F.PROT_SEQ_QUEUED n) false { d with prot := { d.prot with queue := d.prot.queue.filter (fun k => k != n) } }

/-- The handshake outstanding (R214), and its bit in PROT_STATUS. -/
def hsPut (h : Option Handshake) (d : Dev) : Dev :=
  fput F.PROT_STATUS_HS h.isSome { d with prot := { d.prot with hs := h } }

/-- A step that turns a coil of string `n` on is agreed or asked for and not yet driven. -/
def onAgreed (n : Nat) (d : Dev) : Bool :=
  match d.prot.hs with
  | some h => h.string == n && h.on
  | none => false

/-- A handshake about string `n` is dropped. -/
def hsDrop (n : Nat) (d : Dev) : Dev :=
  match d.prot.hs with
  | some h => if h.string = n then hsPut none d else d
  | none => d

/-! ### Zone state (R202) -/

/-- The zone enters state `z`: ZONE_OK, the outputs by the new rule, ZONE_STATE, the NSM's vote (R436), and
ARMED ends a boundary scan (R316). -/
def zoneTo (z : Nat) (d : Dev) : Dev :=
  let old := zone d
  if old = z then d
  else
    let d := fput F.PROT_STATUS_OK_RUN (z == 2 || z == 3 || z == 6) (fset F.PROT_STATUS_ZSTATE z d)
    let d := whenB (z == 2) (fput F.DBG_STAT_SCAN_ACT false) d
    nsmEval (recordC 0x050B old z (outputsApply d))

/-- DISARMING ends when every string is OPEN, TRIPPED or FAULT (R204). -/
def zoneSettle (d : Dev) : Dev :=
  if zone d = 3 ∧ (stringsOn d).all (fun n => seqState n d == 0 || seqState n d ≥ 6) then zoneTo 1 d else d

/-! ### Trips (R199, R212) -/

/-- A source word (R220). -/
def srcWord (type num chain pos : Nat) : Nat := type + (num % 256) * 2 ^ 8 + chain * 2 ^ 16 + pos * 2 ^ 20

/-- Trip open of string `n` (R208, R212): every coil of the set off, and TRIPPED. A queued string stays in the queue until its
conditions are checked again (R210). -/
def tripOpen (n src : Nat) (d : Dev) : Dev :=
  let had := anyCoil n d
  let d := coilsOff n (hsDrop n d)
  let d := fset (F.PROT_SEQ_CAUSE n) (src % 256) (if flag (F.PROT_STR_A_EN n) d then seqTo n 6 d else d)
  if had then recordC 0x0506 n (if src % 256 = 6 then 2 else 1) d else d

/-- A trip of string `n` with its latch (R199). -/
def tripCore (n src : Nat) (d : Dev) : Dev := tripOpen n src (recordC 0x0501 n src (tripLatchPut n true d))

/-- OPEN_STRING (R199): the trip open of string `n`, and a trip notice to the partner unless it came from there (R216). -/
def tripString (n src : Nat) (d : Dev) : Dev :=
  let d := tripCore n src d
  zoneSettle (if paired d && src % 256 != 6 then toPartner (.tripNotice false n) d else d)

/-- OPEN_ZONE (R199): the trip open of every string, the zone latch, and TRIPPED where R202 has that move. -/
def tripZone (src : Nat) (d : Dev) : Dev :=
  let d := fset F.PROT_ZCAUSE_SOURCE src { d with prot := { d.prot with zoneLatch := true } }
  let d := recordC 0x0502 src 0 d
  let d := each (stringsOn d) (fun n => tripOpen n src) d
  let d := if paired d && src % 256 != 6 then toPartner (.tripNotice true 63) d else d
  if zone d = 2 ∨ zone d = 3 ∨ zone d = 6 then zoneTo 4 d else d

/-- The action of a limit, an alert or an input on string `n`, 63 for none (R199). -/
def takeAction (n act src : Nat) (d : Dev) : Dev :=
  match act with
  | 0 => recordC 0x0503 n src d
  | 1 => recordC 0x0503 n (src + 2 ^ 31) d
  | 2 => if n < 48 then tripString n src d else recordC 0x0503 n (src + 2 ^ 31) d
  | _ => tripZone src d

/-! ### Limits (R194 to R196) -/

/-- The key of entry `k` for a source: chain and position, or 16 and the string; and a cell or channel. -/
def limitKey (chain pos idx k : Nat) : Nat := ((chain * 64 + pos) * 64 + idx) * 16 + k

/-- The string that a key's source belongs to; 63 none. -/
def keyString (key : Nat) (d : Dev) : Nat :=
  if key / 65536 = 16 then key / 1024 % 64 else fget (F.ACQ_POS_STRING (key / 65536) (key / 1024 % 64)) d

/-- The limit set of string `n`: set 0 for a position of no string (R194). -/
def lsetOf (n : Nat) (d : Dev) : Nat := if n < 48 then fget (F.PROT_STR_A_LSET n) d else 0

/-- The action of entry `k` for string `n`: OPEN_STRING acts as WARN for a position of no string (R194). -/
def entryAct (n k : Nat) (d : Dev) : Nat :=
  let a := fget (F.PROT_LIM_ACT (lsetOf n d) k) d
  if 48 ≤ n ∧ a = 2 then 1 else a

/-- The action of a trip input: ACT 2 without a string acts as 3 (R225). -/
def inputAct (act string : Nat) : Nat := if act = 2 ∧ 48 ≤ string then 3 else act

/-- What is active now, as actions on strings: limit entries, trip inputs and analog limits (R200). -/
def activeSources (d : Dev) : List (Nat × Nat) :=
  d.prot.limits.filterMap (fun e =>
      let n := keyString e.1 d
      if e.2.active && flag (F.PROT_LIM_EN (lsetOf n d) (e.1 % 16)) d then some (entryAct n (e.1 % 16) d, n) else none)
    ++ (below 48 (fun i => fget (F.IOX_SW_CFG_ROLE i) d == 3 && swLevel i d)).map (fun i =>
        (inputAct (fget (F.IOX_SW_CFG_ACT i) d) (fget (F.IOX_SW_CFG_STRING i) d), fget (F.IOX_SW_CFG_STRING i) d))
    ++ d.prot.ains.filterMap (fun e =>
        if e.2.active && flag (F.IOX_AIN_CFG_EN e.1) d then
          some (inputAct (fget (F.IOX_AIN_CFG_ACT e.1) d) (fget (F.IOX_AIN_CFG_STRING e.1) d),
                fget (F.IOX_AIN_CFG_STRING e.1) d)
        else none)

/-- Something acts on the zone (R200). -/
def actsOnZone (d : Dev) : Bool := (activeSources d).any (fun a => a.1 == 3)

/-- Something acts on string `n` (R200). -/
def actsOn (n : Nat) (d : Dev) : Bool := (activeSources d).any (fun a => a.1 == 3 || (a.1 == 2 && a.2 == n))

/-- The WARN bit of string `n` (R199). -/
def warnUpdate (n : Nat) (d : Dev) : Dev :=
  if n < 48 then
    mask48BitPut F.PROT_WARN_LO_WARN F.PROT_WARN_HI_WARN n ((activeSources d).any (fun a => a.1 == 1 && a.2 == n)) d
  else d

/-- One evaluation of a limit (R196): the counts, and whether it becomes active. -/
def limitStep (persist : Nat) (bad safe : Bool) (l : Limit) : Limit × Bool :=
  let p := max 1 persist
  let up := if bad then min p (l.up + 1) else 0
  let down := if safe then min p (l.down + 1) else 0
  if l.active then ({ up, down, active := !(safe && p ≤ down) }, false)
  else ({ up, down, active := bad && p ≤ up }, bad && p ≤ up)

/-- One evaluation of entry `k` for a source of string `n` at position `p` of chain `c`. -/
def evalEntry (c p n key : Nat) (bad safe : Bool) (d : Dev) : Dev :=
  let k := key % 16
  let s := lsetOf n d
  if !flag (F.PROT_LIM_EN s k) d then d
  else
    let l := tabGet (fun _ => {}) d.prot.limits key
    let (l', on) := limitStep (fget (F.PROT_LIM_PERSIST s k) d) bad safe l
    let d := { d with prot := { d.prot with limits := tabSet (fun _ => {}) d.prot.limits key l' } }
    let d := if l'.active != l.active then warnUpdate n d else d
    if on then takeAction n (entryAct n k d) (srcWord 0 k c p) d else d

/-- A quantity against THR from above, `scale` steps of it to one of THR. -/
def evalAbove (c p n key : Nat) (q : Int) (scale : Nat) (signed : Bool) (d : Dev) : Dev :=
  let s := lsetOf n d
  let raw := fget (F.PROT_LIM_THR s (key % 16)) d
  let thr : Int := if signed then toSigned 16 raw else raw
  let hyst : Int := fget (F.PROT_LIM_HYST s (key % 16)) d
  evalEntry c p n key (decide (thr * scale < q)) (decide (q ≤ (thr - hyst) * scale)) d

/-- A quantity against THR from below; `gate` is a further condition of the entry. -/
def evalBelow (c p n key : Nat) (q : Int) (scale : Nat) (signed gate : Bool) (d : Dev) : Dev :=
  let s := lsetOf n d
  let raw := fget (F.PROT_LIM_THR s (key % 16)) d
  let thr : Int := if signed then toSigned 16 raw else raw
  let hyst : Int := fget (F.PROT_LIM_HYST s (key % 16)) d
  evalEntry c p n key (gate && decide (q < thr * scale)) (decide ((thr + hyst) * scale ≤ q)) d

/-- The string is charging beyond the dead band (R195, entry 3). -/
def charging (n : Nat) (d : Dev) : Bool :=
  match (seqOf n d).imean with
  | some i => decide ((fget F.PROT_CFG_IDEAD d * 100 : Int) < i)
  | none => false

/-- The entries of one cell (R195): 0 to 4. -/
def evalCell (c p n i r : Nat) (d : Dev) : Dev :=
  if cellAbsent r then d
  else
    let d := evalAbove c p n (limitKey c p i 0) (cellV r + 10 * cellVrise r) 100 false d
    let d := evalBelow c p n (limitKey c p i 1) ((cellV r : Int) - 10 * cellVdip r) 100 false true d
    if cellTinv r then d
    else
      let d := evalAbove c p n (limitKey c p i 2) (cellTemp r) 1 true d
      let d := evalBelow c p n (limitKey c p i 3) (cellTemp r) 1 true (charging n d) d
      evalBelow c p n (limitKey c p i 4) (cellTemp r) 1 true true d

/-- The entries of one auxiliary channel: 8 to 10 by its TYPE. -/
def evalAux (c p n j r : Nat) (d : Dev) : Dev :=
  if auxInvalid r then d
  else match auxType r with
    | 1 => evalAbove c p n (limitKey c p j 8) (toSigned 16 (auxValue r)) 4 true d
    | 2 => evalAbove c p n (limitKey c p j 9) (auxValue r) 1 false d
    | 3 => evalAbove c p n (limitKey c p j 10) (auxValue r) 1 false d
    | _ => d

/-- The entries of the string's head: 5 to 7. -/
def evalHead (c p n r : Nat) (d : Dev) : Dev :=
  let d := evalAbove c p n (limitKey 16 n 0 5) (curMean r) 100 false d
  let d := evalAbove c p n (limitKey 16 n 0 6) (-curMean r) 100 false d
  evalAbove c p n (limitKey 16 n 0 7) (curPeak r) 1 false d

/-- The sum of a burst's cell voltages, 10 µV. -/
def sumCells (bs : List Byte) : Nat := ((List.range 32).map (fun i => cellV (cellRec bs i))).foldl (· + ·) 0

/-- The entries of the satellite: 11 to 15. -/
def evalSat (c p n : Nat) (bs : List Byte) (d : Dev) : Dev :=
  let cells := ((List.range 32).map (cellRec bs)).filter (fun r => !cellAbsent r)
  let dev : Int := (burstVmod bs * 250 : Int) - sumCells bs
  let d := evalAbove c p n (limitKey c p 0 11) dev.natAbs 100 false d
  let d := evalAbove c p n (limitKey c p 0 12) (burstSatTemp bs) 8 true d
  let set (k : Nat) (b : Bool) (d : Dev) : Dev := evalEntry c p n (limitKey c p 0 k) b (!b) d
  set 15 (cells.any cellTinv) (set 14 ((burstStatus bs).testBit 5) (set 13 (cells.any cellOw) d))

/-- The string's latest IMEAN, and its frames at or below PRE_IEND in PRECHARGE (R208). -/
def headFrame (n frame r : Nat) (d : Dev) : Dev :=
  let x := { seqOf n d with imean := some (curMean r) }
  if seqState n d = 2 then
    let low := decide ((curMean r).natAbs ≤ fget F.PROT_TIM_D_PRE_IEND d * 100)
    let next := x.preLast == some ((frame + 2 ^ 32 - 1) % 2 ^ 32)
    seqPut n { x with preFrames := if low then (if next then x.preFrames + 1 else 1) else 0, preLast := some frame } d
  else seqPut n x d

/-- Protection evaluates an accepted burst (R192, R195). -/
def protBurst (c p : Nat) (bs : List Byte) (d : Dev) : Dev :=
  if !d.prot.runs then d
  else
    let n := fget (F.ACQ_POS_STRING c p) d
    let head := headValid bs && flag (F.ACQ_POS_HEAD c p) d
    let d := if head then headFrame n (burstFrame bs) (currentRec bs) d else d
    let d := each (List.range 32) (fun i => evalCell c p n i (cellRec bs i)) d
    let d := each (List.range 4) (fun j => evalAux c p n j (auxRec bs j)) d
    let d := if head then evalHead c p n (currentRec bs) d else d
    evalSat c p n bs d

/-- OPENING counts a frame that acquisition closes with a valid head record (R211). -/
def protHeadClosed (n r : Nat) (d : Dev) : Dev :=
  if seqState n d = 5 then
    let x := seqOf n d
    let low := decide ((curMean r).natAbs ≤ fget F.PROT_CFG_OPEN_IMAX d * 100)
    seqPut n { x with openFrames := if low then x.openFrames + 1 else 0 } d
  else d

/-- A string that becomes unmeasured takes OPEN_STRING with source 2 (R199). -/
def protUnmeasured (n cause c p : Nat) (d : Dev) : Dev :=
  if d.prot.runs then tripString n (srcWord 2 cause c p) d else d

/-! ### Alerts (R197) -/

/-- The entry that an alert code maps to, by the channel's TYPE in the latest auxiliary record for AUX_LIMIT. -/
def alertEntry (c p code arg : Nat) (d : Dev) : Option Nat :=
  match code with
  | 0x01 => some 0
  | 0x02 => some 1
  | 0x03 => some 2
  | 0x04 =>
    match auxType (auxRec (posOf c p d).burst arg), decide (arg < 4) with
    | 1, true => some 8
    | 2, true => some 9
    | 3, true => some 10
    | _, _ => none
  | 0x05 => some 13
  | 0x06 => if arg = 0 then some 5 else if arg = 1 then some 6 else none
  | 0x09 => some 14
  | _ => none

/-- The action of an alert of severity `sev` on string `n`; none when it is only recorded. -/
def alertAction (c p n code arg sev : Nat) (d : Dev) : Option Nat :=
  if sev = 0 ∨ code = 0x07 ∨ code = 0x0A then none
  else if sev = 1 then some 1
  else
    let all := fget F.PROT_CFG_ALERT_ACT d
    match alertEntry c p code arg d with
    | none => some all
    | some k =>
      let own := if flag (F.PROT_LIM_EN (lsetOf n d) k) d then fget (F.PROT_LIM_ACT (lsetOf n d) k) d else 0
      some (max own all)

/-- Protection takes an alert handed over (R192, R197). -/
def protAlert (c p code arg sev : Nat) (d : Dev) : Dev :=
  if !d.prot.runs then d
  else
    let n := fget (F.ACQ_POS_STRING c p) d
    let d := recordC 0x050C (c + p * 16) (code + arg * 2 ^ 8 + sev * 2 ^ 16) d
    match alertAction c p n code arg sev d with
    | some a => takeAction n a (srcWord 1 code c p) d
    | none => d

/-! ### Inputs (R192, R225) -/

/-- POS, with PRE off: the string is CLOSED once PRE shows open (R208). -/
def closeCheck (n : Nat) (d : Dev) : Dev :=
  if seqState n d = 3 ∧ (seqOf n d).preOff = true ∧ fbClosed n .pre d = false then
    let ms := (d.clk - (seqOf n d).acceptAt) / tickMs
    recordC 0x0505 n ms (seqTo n 4 d)
  else d

/-- A feedback input of string `n` shows a new level: opening while its coil is on trips the string (R213). -/
def feedbackEdge (i n : Nat) (d : Dev) : Dev :=
  let mine := roles.filter (fun r => roleFb n r d == i)
  let d := if !swLevel i d && mine.any (fun r => coilOn (roleCh n r d) d) then tripString n (srcWord 8 i 0 0) d else d
  if mine.isEmpty then d else closeCheck n d

/-- The role of switch input `i` acts on its level. -/
def inputActs (i : Nat) (d : Dev) : Dev :=
  let n := fget (F.IOX_SW_CFG_STRING i) d
  match fget (F.IOX_SW_CFG_ROLE i) d with
  | 2 => if d.prot.runs then each (stringsOn d) (feedbackEdge i) d else d
  | 3 =>
    if !d.prot.runs then d
    else
      let d := warnUpdate n d
      if swLevel i d then takeAction n (inputAct (fget (F.IOX_SW_CFG_ACT i) d) n) (srcWord 3 i 0 0) d else d
  | _ => d

/-- The level that switch input `i` shows: after INV, which a partner monitor ignores (R225, R226). -/
def swShown (i : Nat) (d : Dev) : Bool :=
  maskBit d.prot.swRaw i != (fget (F.IOX_SW_CFG_ROLE i) d != 1 && flag (F.IOX_SW_CFG_INV i) d)

/-- The level of input `i` formed again from what the input has held. -/
def swForm (i : Nat) (d : Dev) : Dev := mask48BitPut F.IOX_SW_LO_LEVEL F.IOX_SW_HI_LEVEL i (swShown i d) d

/-- SWITCH_INPUT_EDGE (R192): the debounced level of input `i` before INV, or whether a partner monitor is pulsing (R226). -/
def switchEdge (i : Nat) (level : Bool) (d : Dev) : Dev :=
  let d := { d with prot := { d.prot with swRaw := maskPut d.prot.swRaw i level } }
  if swLevel i d = swShown i d then d
  else
    let d := swForm i d
    nsmEval (inputActs i (mask48BitPut F.IOX_SW_CHG_LO_CHG F.IOX_SW_CHG_HI_CHG i true d))

def execSwitchInputEdge (i : Fin 48) (level : Bool) (s : State) : Host.Outcome State Fault Refusal :=
  onBlk 25 (switchEdge i.val level) s

/-- The limit of analog input `k` evaluated (R225). -/
def ainLimit (k : Nat) (d : Dev) : Dev :=
  if !flag (F.IOX_AIN_CFG_EN k) d || !d.prot.runs then d
  else
    let v := fget (F.IOX_AIN_VAL_VALUE k) d
    let lim := fget (F.IOX_AIN_CFG_LIM k) d
    let bad := flag (F.IOX_AIN_VAL_WIRE k) d
      || (if flag (F.IOX_AIN_CFG_DIR k) d then decide (v < lim) else decide (lim < v))
    let l := tabGet (fun _ => {}) d.prot.ains k
    let (l', on) := limitStep (fget (F.IOX_AIN_CFG_PERSIST k) d) bad (!bad) l
    let d := { d with prot := { d.prot with ains := tabSet (fun _ => {}) d.prot.ains k l' } }
    let n := fget (F.IOX_AIN_CFG_STRING k) d
    let d := if l'.active != l.active then warnUpdate n d else d
    if on then takeAction n (inputAct (fget (F.IOX_AIN_CFG_ACT k) d) n) (srcWord 4 k 0 0) d else d

/-- ANALOG_SAMPLE (R192): WIRE below 3.6 mA, OVR above 11.0 V or 22.0 mA (R523), and the limit. -/
def analogSample (k value : Nat) (d : Dev) : Dev :=
  let wire := flag (F.IOX_AIN_CFG_MODE k) d && decide (value < 7200)
  let was := flag (F.IOX_AIN_VAL_WIRE k) d
  let d := fput (F.IOX_AIN_VAL_OVR k) (decide (44000 < value))
    (fput (F.IOX_AIN_VAL_WIRE k) wire (fset (F.IOX_AIN_VAL_VALUE k) value d))
  ainLimit k (if wire && !was then recordC 0x0521 k value d else d)

def execAnalogSample (k : Fin 8) (value : BitVec 16) (s : State) : Host.Outcome State Fault Refusal :=
  onBlk 25 (analogSample k.val value.toNat) s

/-- PROT starts when the configuration is first committed: trip inputs and analog limits act on what they show (R377). -/
def protStart (d : Dev) : Dev :=
  if d.prot.runs then d
  else
    let d := each (List.range 48) swForm { d with prot := { d.prot with runs := true } }
    let d := each (below 48 (fun i => fget (F.IOX_SW_CFG_ROLE i) d == 3)) inputActs d
    each (List.range 8) ainLimit d

/-! ### SAFE_N (R202, R206) -/

/-- The zone enters SAFE. -/
def zoneSafe (d : Dev) : Dev :=
  if !d.prot.runs || zone d == 5 then d
  else
    let d := each d.prot.queue queueDrop (hsPut none d)
    let d := each (below 48 (fun n => 1 ≤ seqState n d && seqState n d ≤ 5)) (fun n => tripCore n (srcWord 5 0 0 0)) d
    zoneTo 5 d

/-- SAFE_N_FALL. -/
def execSafeNFall (s : State) : Host.Outcome State Fault Refusal :=
  onDev (fun d => zoneSafe (fput F.PROT_STATUS_SAFE_N false d)) s

/-- SAFE_EXIT (R202): SAFE_N has been high for 10 ms. No command stands for the rise of its filtered level 20 µs after the edge (R206), so
PROT_STATUS.SAFE_N turns 1 here. DESIGN CHOICE (notes/assumptions/78.md). -/
def safeExit (d : Dev) : Dev :=
  let d := fput F.PROT_STATUS_SAFE_N true d
  if zone d = 5 then zoneTo (if d.prot.zoneLatch then 4 else 1) d else d

def execSafeExit (s : State) : Host.Outcome State Fault Refusal := onDev safeExit s

/-! ### Closing and opening (R208 to R215) -/

/-- A close request of string `n` meets its conditions (R210); in a pair the peer link is up (R32). -/
def closeOk (n : Nat) (d : Dev) : Bool :=
  zone d == 2 && flag (F.PROT_STR_A_EN n) d && seqState n d == 0 && !tripLatch n d && measured n d && !actsOn n d
    && fbAllOpen n d && (!paired d || peerUp d)

/-- A close request accepted. -/
def closeEnter (n : Nat) (d : Dev) : Dev :=
  if d.prot.queue.contains n then d
  else
    let d := seqPut n { seqOf n d with acceptAt := d.clk } d
    fput (F.PROT_SEQ_QUEUED n) true { d with prot := { d.prot with queue := d.prot.queue ++ [n] } }

/-- PROT_STR_CMD_CLOSE (R210). -/
def strClose (n : Nat) (d : Dev) : Dev := if closeOk n d then closeEnter n d else d

def execProtStrCmdClose (n : Fin 48) (s : State) : Host.Outcome State Fault Refusal := onDev (strClose n.val) s

/-- A close sequence of string `n` ends with every coil off, and the partner is told (R211, R214). -/
def closeEnds (n : Nat) (d : Dev) : Dev :=
  let d := seqTo n 0 (coilsOff n (hsDrop n (queueDrop n d)))
  if paired d then toPartner (.closeEnd n) d else d

/-- A close is abandoned with a cause (R210, R214 to R217). -/
def abandon (n cause : Nat) (d : Dev) : Dev := recordC 0x050A n cause (closeEnds n d)

/-- The partner is told that the sequence of string `n` ends, when a coil of it is agreed or asked for and not yet driven: an open
request overrides the close on both members (R31, R211). -/
def closeRevoked (n : Nat) (d : Dev) : Dev :=
  if onAgreed n d then
    let d := hsDrop n d
    if paired d then toPartner (.closeEnd n) d else d
  else d

/-- PROT_STR_CMD_OPEN (R211). -/
def strOpen (n : Nat) (d : Dev) : Dev :=
  if seqState n d = 4 then seqTo n 5 d
  else if closing n d then zoneSettle (recordC 0x0506 n 0 (closeEnds n d))
  else closeRevoked n (queueDrop n d)

def execProtStrCmdOpen (n : Fin 48) (s : State) : Host.Outcome State Fault Refusal := onDev (strOpen n.val) s

/-- The edge of a step is driven (R208, R209, R211). -/
def driveEdge (n : Nat) (r : Role) (on : Bool) (d : Dev) : Dev :=
  if on then
    let d := coilPut (roleCh n r d) true (queueDrop n d)
    seqTo n (roleCode r + 1) d
  else match r with
    | .pre =>
      let d := coilPut (roleCh n .pre d) false d
      closeCheck n (seqPut n { seqOf n d with preOff := true } d)
    | .pos =>
      let d := if seqState n d = 5 then d else seqTo n 5 d
      let d := coilPut (roleCh n .pre d) false (coilPut (roleCh n .pos d) false d)
      seqPut n { seqOf n d with gapAt := some d.clk } d
    | .neg =>
      let normal := seqState n d == 5
      let d := seqTo n 0 (coilsOff n d)
      zoneSettle (if normal then recordC 0x0506 n 0 d else d)

/-- A step's edge is due: driven at once by a single member, agreed with the partner two cycles ahead in a pair (R214). The primary
leads a close; a secondary asks only for the edges of its own normal open. -/
def propose (n : Nat) (r : Role) (on : Bool) (d : Dev) : Dev :=
  if !paired d then driveEdge n r on d
  else if d.prot.hs.isSome || !peerUp d || (d.pair.role == 4 && seqState n d != 5) then d
  else
    let c := (cycleNow d + 2) % 2 ^ 32
    toPartner (.stepReq n (roleCode r) on c)
      (hsPut (some { string := n, role := roleCode r, on, cycle := c, phase := if on then 0 else 1 }) d)

/-- The role of a code. -/
def roleOf : Nat → Role
  | 0 => .neg
  | 1 => .pre
  | _ => .pos

/-- The first coil of a close (R208). -/
def firstRole (n : Nat) (d : Dev) : Role :=
  if roleCh n .neg d < 48 then .neg else if roleCh n .pre d < 48 then .pre else .pos

/-- `ms` milliseconds have passed since tick `t`. -/
def elapsed (t ms : Nat) (d : Dev) : Bool := decide (ms * tickMs ≤ d.clk - t)

/-- IMEAN as events carry it, 0.1 A. -/
def imeanWord (n : Nat) (d : Dev) : Nat :=
  match (seqOf n d).imean with
  | some i => ofSigned 32 (i.tdiv 100)
  | none => 0

/-- OPENING at a step firing (R211). -/
def stepOpening (n : Nat) (d : Dev) : Dev :=
  let x := seqOf n d
  match x.gapAt with
  | none =>
    if 2 ≤ x.openFrames ∨ elapsed x.enterAt (fget F.PROT_TIM_D_OPEN_WAIT_MS d) d = true then
      let beyond := match x.imean with
        | some i => decide (fget F.PROT_CFG_OPEN_IMAX d * 100 < i.natAbs)
        | none => false
      let d := if x.openFrames < 2 ∧ beyond = true ∧ d.prot.hs = none then recordC 0x0509 n (imeanWord n d) d else d
      propose n .pos false d
    else d
  | some t => if elapsed t (fget F.PROT_TIM_C_OPEN_GAP_MS d) d then propose n .neg false d else d

/-- PRECHARGE_FAIL (R208): the coils go off, in a pair by a step of the cycle agreed (R214); at once where no step can be agreed. -/
def prechargeFail (n : Nat) (d : Dev) : Dev :=
  if !paired d || !peerUp d then closeEnds n (recordC 0x0507 n (imeanWord n d) d)
  else if d.prot.hs.isSome then d
  else propose n .neg false (recordC 0x0507 n (imeanWord n d) d)

/-- One string at a step firing (R208). -/
def stepString (n : Nat) (d : Dev) : Dev :=
  let x := seqOf n d
  if d.pair.role = 4 ∧ closing n d = true then d
  else match seqState n d with
  | 1 =>
    if elapsed x.edgeAt (fget F.PROT_TIM_A_NEG_MS d) d && fbClosed n .neg d then
      propose n (if roleCh n .pre d < 48 then .pre else .pos) true d else d
  | 2 =>
    if elapsed x.edgeAt (fget F.PROT_TIM_B_PRE_MIN_MS d) d && decide (2 ≤ x.preFrames) then propose n .pos true d
    else if elapsed x.edgeAt (fget F.PROT_TIM_B_PRE_MAX_MS d) d then prechargeFail n d
    else d
  | 3 =>
    if !x.preOff && elapsed x.edgeAt (fget F.PROT_TIM_C_OVERLAP_MS d) d && fbClosed n .pos d then
      if roleCh n .pre d < 48 then propose n .pre false d
      else closeCheck n (seqPut n { x with preOff := true } d)
    else d
  | 5 => stepOpening n d
  | _ => d

/-- The next queued string starts, or leaves the queue when it fails its conditions (R210). -/
def startNext : List Nat → Dev → Dev
  | [], d => d
  | n :: rest, d =>
    if closeOk n d then propose n (firstRole n d) true d
    else startNext rest (recordC 0x050A n 4 (queueDrop n d))

/-- The edges agreed for this cycle (R214, R215). -/
def stepAgreed (d : Dev) : Dev :=
  match d.prot.hs with
  | none => d
  | some h =>
    if h.cycle ≠ cycleNow d then d
    else
      let d := hsPut none d
      match h.phase with
      | 0 => abandon h.string 0 d
      | 2 =>
        let d := toPartner (.tripNotice false h.string) d
        recordC 0x050A h.string 2 (seqTo h.string 0 (coilsOff h.string (queueDrop h.string d)))
      | _ => if h.on && zone d != 2 then d else driveEdge h.string (roleOf h.role) h.on d

/-- A string of the zone is in its close sequence, or its first coil is agreed or asked for. -/
def closeUnderWay (d : Dev) : Bool := (stringsOn d).any (fun n => closing n d || onAgreed n d)

/-- The firing of the step slot at PROT (R209). A queued string starts at a firing that finds no other in its sequence (R210). -/
def protStep (d : Dev) : Dev :=
  let free := !closeUnderWay d
  let d := each (stringsOn d) stepString (stepAgreed d)
  if !free || closeUnderWay d || d.prot.hs.isSome || d.pair.role == 4 then d else startNext d.prot.queue d

/-- Slot `n` is the step slot: one of SLOT_0 to SLOT_7, in EVERY mode, at STEP_CNT (R209). -/
def stepSlot (n : Nat) (d : Dev) : Bool :=
  decide (n < 8) && fget (F.SLOT_CTRL_MODE n) d == 1 && fget (F.SLOT_CNT_CNT n) d == fget F.PROT_HOLD_STEP_CNT d

/-! ### The handshake's messages (R211, R214, R216) -/

/-- The member that follows refuses a step: a condition of R210 fails by its own records and inputs. -/
def followRefuses (n : Nat) (d : Dev) : Bool :=
  zone d != 2 || !flag (F.PROT_STR_A_EN n) d || tripLatch n d || decide (3 ≤ seqState n d) || !measured n d || actsOn n d
    || (seqState n d == 0 && !fbAllOpen n d)

/-- STEP_REQ at the member that follows. The code of a refusal's cause is a free value. -/
def stepReq (n : Nat) (r : Role) (on : Bool) (cycle : Nat) (d : Dev) : Dev :=
  let h (phase : Nat) : Handshake := { string := n, role := roleCode r, on, cycle, phase }
  if !heard d then d
  else if !on then hsPut (some (h 3)) d
  else if followRefuses n d then
    let (k, d) := draw d
    toPartner (.stepRefuse n (Config.freeWord k).toNat) d
  else toPartner (.stepConf n (roleCode r) cycle) (hsPut (some (h 2)) d)

def execStepReq (n : Fin 48) (r : Role) (on : Bool) (cycle : Word) (s : State) : Host.Outcome State Fault Refusal :=
  onDev (stepReq n.val r on cycle.toNat) s

/-- STEP_CONF at the primary: the commit point of R31. -/
def stepConf (n : Nat) (r : Role) (cycle : Nat) (d : Dev) : Dev :=
  match d.prot.hs with
  | some h =>
    if heard d = true ∧ h.string = n ∧ h.role = roleCode r ∧ h.cycle = cycle ∧ h.phase = 0 then
      toPartner (.stepGo n (roleCode r) cycle) (hsPut (some { h with phase := 1 }) d)
    else d
  | none => d

def execStepConf (n : Fin 48) (r : Role) (cycle : Word) (s : State) : Host.Outcome State Fault Refusal :=
  onDev (stepConf n.val r cycle.toNat) s

/-- STEP_REFUSE at the primary. -/
def stepRefuse (n : Nat) (d : Dev) : Dev :=
  match d.prot.hs with
  | some h => if heard d = true ∧ h.string = n ∧ h.phase = 0 then abandon n 1 d else d
  | none => d

def execStepRefuse (n : Fin 48) (s : State) : Host.Outcome State Fault Refusal := onDev (stepRefuse n.val) s

/-- STEP_GO at the secondary. -/
def stepGo (n : Nat) (r : Role) (cycle : Nat) (d : Dev) : Dev :=
  match d.prot.hs with
  | some h =>
    if heard d = true ∧ h.string = n ∧ h.role = roleCode r ∧ h.cycle = cycle ∧ h.phase = 2 then hsPut (some { h with phase := 3 }) d
    else d
  | none => d

def execStepGo (n : Fin 48) (r : Role) (cycle : Word) (s : State) : Host.Outcome State Fault Refusal :=
  onDev (stepGo n.val r cycle.toNat) s

/-- CLOSE_ABANDONED (R214): count 0 of the target cycle without STEP_CONF. -/
def closeAbandoned (d : Dev) : Dev :=
  match d.prot.hs with
  | some h => if h.phase = 0 then abandon h.string 0 d else d
  | none => d

def execCloseAbandoned (s : State) : Host.Outcome State Fault Refusal := onDev closeAbandoned s

/-- PARTNER_TRIP_NOTICE (R216): the same trip open, with source 6. -/
def partnerTrip (zone : Bool) (n : Nat) (d : Dev) : Dev :=
  if !d.prot.runs || !heard d then d
  else if zone then tripZone (srcWord 6 0 0 0) d else tripString n (srcWord 6 0 0 0) d

def execPartnerTripNotice (zone : Bool) (n : Fin 48) (s : State) : Host.Outcome State Fault Refusal :=
  onDev (partnerTrip zone n.val) s

/-- CLOSE_END_NOTICE (R211): this member's coils of the set go off. -/
def closeEndNotice (n : Nat) (d : Dev) : Dev :=
  if !heard d then d
  else if closing n d then
    zoneSettle (recordC 0x0506 n 2 (seqTo n 0 (coilsOff n (hsDrop n (queueDrop n d)))))
  else if onAgreed n d then hsDrop n (queueDrop n d)
  else queueDrop n d

def execCloseEndNotice (n : Fin 48) (s : State) : Host.Outcome State Fault Refusal := onDev (closeEndNotice n.val) s

/-! ### Commands of the zone (R200, R203 to R205, R217) -/

/-- The pair rule for ARM (R23, R203): a role is held, and in a pair the partner's configuration CRC is the own. -/
def pairMayArm (d : Dev) : Bool :=
  d.pair.role == 0
    || (3 ≤ d.pair.role && (match d.pair.partnerCrc with
      | some c => c == fget F.CFG_CRC_CRC d
      | none => true))

/-- The conditions of ARM (R203). -/
def armOk (d : Dev) : Bool :=
  zone d == 1 && d.prot.runs && flag F.PROT_STATUS_SAFE_N d && !d.prot.zoneLatch && !devFault d
    && !flag F.PROT_STATUS_KICK_LATE d && pairMayArm d

/-- PROT_CMD_ARM. -/
def protArm (d : Dev) : Dev :=
  if !armOk d then d
  else
    let d := zoneTo 2 (fset F.PROT_ARM_CRC_CRC (fget F.CFG_CRC_CRC d) d)
    each (below 48 (fun n => flag (F.PROT_STR_A_AUTO_CLOSE n) d)) strClose d

def execProtCmdArm (s : State) : Host.Outcome State Fault Refusal := onDev protArm s

/-- PROT_CMD_DISARM (R204). -/
def protDisarm (d : Dev) : Dev :=
  if zone d ≠ 2 then d
  else
    let d := zoneTo 3 (each d.prot.queue queueDrop d)
    zoneSettle (each (stringsOn d) strOpen d)

def execProtCmdDisarm (s : State) : Host.Outcome State Fault Refusal := onDev protDisarm s

/-- A zone latch clear is accepted (R200). -/
def zclrOk (d : Dev) : Bool := d.prot.runs && !actsOnZone d

/-- ZCLR. -/
def zclr (d : Dev) : Dev :=
  if !zclrOk d then recordC 0x0504 0xFF 1 d
  else
    let d := recordC 0x0504 0xFF 0 { d with prot := { d.prot with zoneLatch := false } }
    if zone d = 4 then zoneTo 1 d else d

def execZclr (s : State) : Host.Outcome State Fault Refusal := onDev zclr s

/-- A string latch clear is accepted (R200). -/
def clrOk (n : Nat) (d : Dev) : Bool := measured n d && !actsOn n d

/-- The latches of the channels bound to string `n` clear with the string's (R247, R524). -/
def clearBound (n : Nat) (d : Dev) : Dev :=
  each roles (fun r d =>
    let c := roleCh n r d
    if c < 32 then
      if chState c d = 4 then recordC 0x0605 c 0 (chUnlatch c d) else d
    else if c < 48 then
      lsoApply (c - 32) { d with prot := { d.prot with lsoShut := maskPut d.prot.lsoShut (c - 32) false } }
    else d) d

/-- PROT_STR_CMD_CLR. -/
def strClr (n : Nat) (d : Dev) : Dev :=
  if !clrOk n d then recordC 0x0504 n 1 d
  else
    let d := clearBound n (recordC 0x0504 n 0 (tripLatchPut n false d))
    if seqState n d = 6 ∨ (seqState n d = 7 ∧ fbAllOpen n d = true) then seqTo n 0 d else d

def execProtStrCmdClr (n : Fin 48) (s : State) : Host.Outcome State Fault Refusal := onDev (strClr n.val) s

/-- PROT_KICK (R205): other values than 0xA5 are ignored. -/
def kick (key : Nat) (d : Dev) : Dev := if key = 0xA5 then fput F.PROT_STATUS_KICK_LATE false d else d

def execProtKick (key : BitVec 8) (s : State) : Host.Outcome State Fault Refusal := onDev (kick key.toNat) s

/-- The zone enters ENGINE_HOLD (R217): cause 0 reset of TL0, 1 missed kick, 2 trestle fault of TL0. -/
def engineHold (cause : Nat) (d : Dev) : Dev :=
  if zone d ≠ 2 ∧ zone d ≠ 3 then d
  else
    let d := recordC 0x050D cause 0 (holdOutputs d)
    let d := { d with prot := { d.prot with holdPrev := zone d, holdAt := d.clk } }
    let d := each d.prot.queue (fun n d => recordC 0x050A n 3 (queueDrop n d)) d
    let d := each (below 48 (fun n => closing n d)) (fun n => abandon n 3) d
    zoneTo 6 (each (List.range 48) closeRevoked d)

/-- KICK_MISSED (R205). -/
def kickMissed (d : Dev) : Dev :=
  match zone d with
  | 2 | 3 => engineHold 1 d
  | 6 => d
  | _ => fput F.PROT_STATUS_KICK_LATE true d

def execKickMissed (s : State) : Host.Outcome State Fault Refusal := onDev kickMissed s

/-- ENGINE_HOLD ends with a trip: 1 expiry, 2 CRC mismatch (R217). -/
def holdTrip (cause : Nat) (d : Dev) : Dev :=
  tripZone (srcWord 7 cause 0 0) (recordC 0x050E cause (msSince d.prot.holdAt d) d)

/-- PROT_CMD_RECONF. -/
def reconf (d : Dev) : Dev :=
  if zone d ≠ 6 then d
  else if fget F.PROT_RECONF_CRC_CRC d = fget F.PROT_ARM_CRC_CRC d then
    zoneSettle (zoneTo d.prot.holdPrev (recordC 0x050E 0 (msSince d.prot.holdAt d) d))
  else holdTrip 2 d

def execProtCmdReconf (s : State) : Host.Outcome State Fault Refusal := onDev reconf s

/-- ENGINE_HOLD_EXPIRY. -/
def execEngineHoldExpiry (s : State) : Host.Outcome State Fault Refusal :=
  onDev (fun d => if zone d = 6 then holdTrip 1 d else d) s

/-! ### Contactors and low-side outputs (R213, R524) -/

/-- CONTACTOR_FB_FAULT (R213): cause 0 not closed, 1 welded. -/
def fbFault (n : Nat) (r : Role) (d : Dev) : Dev :=
  let on := coilOn (roleCh n r d) d
  if fbClosed n r d = on then d
  else
    let d := seqTo n 7 (coilsOff n (hsDrop n d))
    zoneSettle (recordC 0x0508 n (roleCode r + (if on then 0 else 256)) d)

def execContactorFbFault (n : Fin 48) (r : Role) (s : State) : Host.Outcome State Fault Refusal :=
  onDev (fbFault n.val r) s

/-- A turn-off of a bound channel or output counts as its feedback opening while its coil is on (R248, R524). -/
def boundOff (c : Nat) (d : Dev) : Dev :=
  match boundTo c d with
  | some (n, r) => if d.prot.runs then tripString n (srcWord 8 (roleFb n r d) 0 0) d else d
  | none => d

/-- LSO_FAULT (R524): over-current. -/
def lsoFault (k : Nat) (d : Dev) : Dev :=
  if !fbit F.IOX_LSO_STAT_STATE k d then d
  else
    let was := coilOn (32 + k) d
    let d := { d with prot := { d.prot with lsoShut := maskPut d.prot.lsoShut k true } }
    let d := fbitPut F.IOX_LSO_STAT_FAULT k true (fbitPut F.IOX_LSO_STAT_STATE k false d)
    let d := recordC 0x0520 k 0 d
    if was then boundOff (32 + k) d else d

def execLsoFault (k : Fin 16) (s : State) : Host.Outcome State Fault Refusal := onBlk 25 (lsoFault k.val) s

/-- LSO_OPEN_LOAD (R524): an output that is off below 4.0 V for 10 ms. -/
def lsoOpenLoad (k : Nat) (d : Dev) : Dev :=
  if fbit F.IOX_LSO_STAT_STATE k d then d else recordC 0x0520 k 1 (fbitPut F.IOX_LSO_STAT_FAULT k true d)

def execLsoOpenLoad (k : Fin 16) (s : State) : Host.Outcome State Fault Refusal := onBlk 25 (lsoOpenLoad k.val) s

end Sys2Proof.Machine
end

