-- ==== Sys2Proof/Machine/EstReady.lean ====
section
/-!
DEFINITION. Machine/EstReady.lean: the delays and pass flags of positions (R140, R141), the ledgers of strings (R169), and which
positions are ready for the bench (R167).
-/

namespace Sys2Proof.Machine

/-! ### Delays and pass flags (R140, R141) -/

/-- What delay a position has: one measured, one derived, or none. -/
inductive DelayKind where
  | known (ns : Nat)
  | derived (ns : Nat)
  | missing
deriving DecidableEq, Repr

/-- The delay of position `p` (R140). -/
def delayOf (n p : Nat) (d : Dev) : DelayKind :=
  let dly := fget (F.KZC_DLY_DLY n p) d
  let valid := flag (F.KZC_DLY_VALID n p) d
  let fromB := flag (F.KZC_DLY_FROM_B n p) d
  let c := chainOf n d
  if chState3 n d = 6 then
    match tabGet (fun _ => 0) c.dlyPrimary p with
    | 0 => .missing
    | k + 1 => .known k
  else if fromBEnd n p d then
    if valid && fromB then .known dly
    else if chState3 n d = 4 then (if valid && c.rtLast != 0 then .derived (c.rtLast - dly) else .missing)
    else match tabGet (fun _ => 0) c.dlyPrimary p with
      | 0 => .missing
      | k + 1 => if c.rtLast != 0 then .derived (c.rtLast - k) else .missing
  else if valid && !fromB then .known dly
  else .missing

/-- The head of string `k` on chain `n`. -/
def headOf (n k : Nat) (d : Dev) : Option Nat :=
  if 48 ≤ k then none
  else (positionsOf n d).find? (fun p => flag (F.ACQ_POS_HEAD n p) d && fget (F.ACQ_POS_STRING n p) d == k)

/-- A position is FRESH in frame `f`. -/
def freshIn (n p f : Nat) (d : Dev) : Bool := (posOf n p d).entered == some f && !excluded n p d

/-- The causes of R141 for one position of frame `f`: those of both orders, and of P and Q alone. -/
def passCauses (n p f : Nat) (d : Dev) : Option Nat × Option Nat × Option Nat :=
  let status := burstStatus (posOf n p d).burst
  let head := headOf n (fget (F.ACQ_POS_STRING n p) d) d
  let cur := match head with
    | some h => if freshIn n h f d && headValid (posOf n h d).burst then some (currentRec (posOf n h d).burst) else none
    | none => none
  let missing (q : Nat) : Bool := delayOf n q d == .missing
  let both :=
    if d.ang.disturbedPrev then some 1
    else if d.acq.poorPrev then some 2
    else if !freshIn n p f d then some 3
    else if !status.testBit 0 || status.testBit 1 then some 4
    else if missing p || (match head with
      | some h => missing h
      | none => false) then some 5
    else if cur.isNone then some 6
    else none
  let r := cur.getD 0
  (both, if r.testBit 89 then some 7 else none,
    if r.testBit 90 || !r.testBit 92 || ((chainOf n d).ordPrev.getD (0, 0)).2 == 0 then some 8 else none)

/-! ### Ledgers (R169) -/

def ledgerOf (k : Nat) (d : Dev) : List LedgerEntry := tabGet (fun _ => []) d.est.ledgers k

def ledgerPut (k : Nat) (l : List LedgerEntry) (d : Dev) : Dev :=
  { d with est := { d.est with ledgers := tabSet (fun _ => []) d.est.ledgers k l } }

/-- A frame opens in the ledger of string `k` with its increment and a missing mark; 16 frames are kept. -/
def ledgerOpen (k f inc : Nat) (d : Dev) : Dev :=
  ledgerPut k ((⟨f, inc, none⟩ :: (ledgerOf k d).filter (fun e => e.frame != f)).take 16) d

/-- The mean current of frame `f` filled in. -/
def ledgerFill (k f : Nat) (i : Int) (d : Dev) : Dev :=
  ledgerPut k ((ledgerOf k d).map (fun e => if e.frame = f then { e with imean := some i } else e)) d

/-! ### Readiness (R167) -/

/-- The delay that serves a correction, in ns. -/
def delayNs (k : DelayKind) : Nat :=
  match k with
  | .known ns | .derived ns => ns
  | .missing => 0

/-- The entry of a ready position in the estimator input FIFO. -/
def entryOf (n p h f : Nat) (d : Dev) : EstEntry :=
  let k := fget (F.ACQ_POS_STRING n p) d
  let (both, cp, cq) := passCauses n p f d
  let x := strOf k d
  let c := chainOf n d
  let ord := c.ordPrev.getD (0, 0)
  { frame := f, chain := n, pos := p, string := k, burst := (posOf n p d).burst, cur := currentRec (posOf n h d).burst,
    phP := both.isNone && cp.isNone, phQ := both.isNone && cq.isNone
    unexcP := x.evalFrame == some f && x.unexcP, unexcQ := x.evalFrame == some f && x.unexcQ
    ordP := ord.1, ordQ := ord.2
    inc := (((ledgerOf k d).find? (fun e => e.frame == f)).map (·.inc)).getD c.incPrev
    dlyPos := delayNs (delayOf n p d), dlyHead := delayNs (delayOf n h d) }

/-- The cut-off of frame `f` has passed. -/
def cutPassed (f : Nat) (d : Dev) : Bool :=
  match d.est.cut with
  | some c => decide (0 ≤ sdiff32 c f)
  | none => false

/-- A position is queued for the frame in work. -/
def estQueue (e : EstEntry) (d : Dev) : Dev :=
  { d with est := { d.est with
      queue := d.est.queue ++ [e]
      queued := tabSet (fun _ => 0) d.est.queued e.chain (maskPut (tabGet (fun _ => 0) d.est.queued e.chain) e.pos true) } }

/-- Position `p` becomes ready for frame `f` with head `h`: queued when the frame is in work, else kept until its work
starts. -/
def estReady (n h f p : Nat) (d : Dev) : Dev :=
  if d.est.fifo.any (fun e => e.frame == f && e.chain == n && e.pos == p) || cutPassed f d
      || (d.est.work == some f && maskBit (tabGet (fun _ => 0) d.est.queued n) p) then d
  else if d.est.work = some f ∧ flag F.EST_CTRL_EN d = true then fput F.EST_STATUS_BUSY true (estQueue (entryOf n p h f d) d)
  else { d with est := { d.est with fifo := d.est.fifo ++ [entryOf n p h f d] } }

/-- What the bench takes from a burst of position `p` that entered frame `f`: the ledger from a head (R169), and the positions
that are ready now, a head's own burst releasing those that wait for it, in ascending order. -/
def estBurst (n p f : Nat) (d : Dev) : Dev :=
  let k := fget (F.ACQ_POS_STRING n p) d
  match headOf n k d with
  | none => d
  | some h =>
    let cur := currentRec (posOf n h d).burst
    if !(freshIn n h f d && headValid (posOf n h d).burst) then d
    else if h = p then
      each ((positionsOf n d).filter (fun q => fget (F.ACQ_POS_STRING n q) d == k && freshIn n q f d))
        (estReady n h f) (ledgerFill k f (curMean cur) d)
    else estReady n h f p d

end Sys2Proof.Machine
end

