-- ==== Sys2Proof/Machine/Digest.lean ====
section
/-!
DEFINITION. Machine/Digest.lean: the cells of the zone (R168), unaligned positions (R182), and the comparison of an own frame with the
partner's digest message (R34, R35).
-/

namespace Sys2Proof.Machine

/-! ### Cells of the zone (R168, R170) -/

/-- Cell index of cell `c` of position `p` of chain `n`. -/
def cellIndex (n p c : Nat) : Nat := 1536 * n + 32 * p + c

def cellChain (i : Nat) : Nat := i / 1536
def cellPos (i : Nat) : Nat := i % 1536 / 32

/-- A cell that is not NOT_CONFIGURED under R168. -/
def cellConfigured (i : Nat) (d : Dev) : Bool :=
  let n := cellChain i
  let p := cellPos i
  let b := (posOf n p d).burst
  flag (F.ACQ_POS_EN n p) d && decide (i % 32 < fget (F.ACQ_POS_NCELL n p) d)
    && !(!b.isEmpty && cellAbsent (cellRec b (i % 32)))

/-- The position is unaligned (R182). -/
def isUnaligned (n p : Nat) (d : Dev) : Bool := maskBit (tabGet (fun _ => 0) d.est.unaligned n) p

/-- STATE of a cell that is not updated in frame `f` (R168). -/
def idleState (f i : Nat) (s : CellBlock) (d : Dev) : Nat :=
  if !cellConfigured i d then 5
  else if s.state = 3 || !maskBit d.est.inited i then 3
  else if sdiff32 f s.lastFrame ≤ fget F.EST_CFG_MAXGAP d then 2
  else 3

/-- The block of a cell that is not updated in frame `f`. -/
def idleBlock (f i : Nat) (s : CellBlock) (d : Dev) : CellBlock :=
  blockIdle (idleState f i s d) (isUnaligned (cellChain i) (cellPos i) d) s

/-- STATE and the flags written for every cell of the zone that `skip` does not name (R168, R171). -/
def idleSweep (f : Nat) (skip : Nat → Bool) (d : Dev) (m : List Host.Cell) : List Host.Cell :=
  memSweep storeBase 128 24576 (fun i here =>
    if skip i then []
    else
      let s := blockLoad here i
      let w := statusWord (idleBlock f i s d)
      if w = memWord here (blockAt i + 88) then [] else (List.range 4).zip ((leBytes 4 w)) |>.map (fun e => (88 + e.1, e.2)))
    m

/-- UNALIGNED set in the cells of the positions marked (R182). -/
def unalignedSweep (d : Dev) (m : List Host.Cell) : List Host.Cell :=
  memSweep storeBase 128 24576 (fun i here =>
    let w := memWord here (blockAt i + 88)
    if isUnaligned (cellChain i) (cellPos i) d && !w.testBit 11 then
      [(89, BitVec.ofNat 8 (w / 256 % 256 + 8))]
    else []) m

/-- The initialisation of the store (R172): every word of every block, STATE INVALID for configured cells and NOT_CONFIGURED
otherwise. -/
def storeInit (d : Dev) (m : List Host.Cell) : List Host.Cell :=
  memPlace storeBase ((List.range 24576).flatMap (fun i =>
    List.replicate 88 0 ++ BitVec.ofNat 8 (if cellConfigured i d then 3 else 5) :: List.replicate 39 0)) m

/-! ### Unaligned positions (R182) -/

def unalignedCount (d : Dev) : Dev :=
  fset F.EST_ALIGN_UNALIGNED (((List.range 16).map (fun n => onesIn (tabGet (fun _ => 0) d.est.unaligned n) 48)).sum) d

/-- Positions of chain `n` marked unaligned. -/
def markUnaligned (n mask : Nat) (d : Dev) : Dev :=
  unalignedCount { d with est := { d.est with
    unaligned := tabSet (fun _ => 0) d.est.unaligned n (tabGet (fun _ => 0) d.est.unaligned n ||| mask) } }

/-- Every position marked, when this member is the secondary. -/
def markAll (d : Dev) : Dev :=
  each (chainsOn d) (fun n d => markUnaligned n ((positionsOf n d).foldl (fun m p => m + 2 ^ p) 0) d) d

/-- No alignment request is out (R188). -/
def alignEnd (d : Dev) : Dev := fput F.EST_ALIGN_REQ false (fput F.EST_STATUS_ALIGNING false d)

/-! ### Comparison (R34, R35) -/

/-- One comparison of chain `n` for frame `f`: own digest and the partner's. A run of 8 mismatches is a disagreement, which
lasts until a frame compares equal. Key 16 stands for the zone digest of a link version 1. -/
def digestOne (n f own other : Nat) (d : Dev) : Dev :=
  let marks := if n = 16 then 65535 else 2 ^ n
  let putRun (k : Nat) (d : Dev) : Dev := { d with pair := { d.pair with digestRun := tabSet (fun _ => 0) d.pair.digestRun n k } }
  if own = other then
    let left := below 16 (fun k => maskBit d.pair.disagree k && !maskBit marks k)
    let d := putRun 0 d
    { d with pair := { d.pair with disagree := left.foldl (fun m k => m + 2 ^ k) 0 } }
  else
    let k := tabGet (fun _ => 0) d.pair.digestRun n + 1
    let d := record 0x0A43 n f own (putRun (min k 8) d)
    if k = 8 then
      record 0x0A44 n f 0 { d with pair := { d.pair with disagree := d.pair.disagree ||| marks } }
    else d

/-- A chain that is not compared is counted and is no mismatch (R34). -/
def digestPass (d : Dev) : Dev := { d with pair := { d.pair with notCompared := d.pair.notCompared + 1 } }

/-- The partner's message against the own set of the same frame (R34): chains with equal coverage maps; with a link of version 1 the zone
digest, in frames in which both members received every configured satellite. No comparison of a skipped frame, or while the UCODE versions
differ (R499). -/
def digestCompare (msg : DigestMsg) (o : OwnSet) (d : Dev) : Dev :=
  if !o.published || msg.skip || fget F.EST_UCODE_VERSION d != fget F.UPD_PARTNER_UCODE_VER d then d
  else if fget F.PEER_STATUS_VER d = 1 then
    if o.whole && msg.complete then digestOne 16 o.frame o.zone msg.zone.toNat d else digestPass d
  else
    each ((List.range 16).zip msg.chains) (fun e d =>
      if e.2.2.toNat = o.coverage.getD e.1 0 then digestOne e.1 o.frame (o.digests.getD e.1 0) e.2.1.toNat d else digestPass d) d

/-- What the secondary marks unaligned on the primary's message (R182): every position after a skip, and every position whose
bit differs from its own test of the same frame. -/
def digestMark (msg : DigestMsg) (o : OwnSet) (m : List Host.Cell) (d : Dev) : List Host.Cell × Dev :=
  if d.pair.role ≠ 4 ∨ fget F.PEER_STATUS_VER d = 1 then (m, d)
  else
    let d := if msg.skip then markAll d
      else each ((List.range 16).zip msg.chains) (fun e d =>
        let diff := (positionsOf e.1 d).filter (fun p => maskBit e.2.2.toNat p != maskBit (o.test.getD e.1 0) p)
        if diff.isEmpty then d else markUnaligned e.1 (diff.foldl (fun m p => m + 2 ^ p) 0) d) d
    if fget F.EST_ALIGN_UNALIGNED d = 0 then (m, d) else (unalignedSweep d m, d)

/-- Comparison and marks for a message whose own frame `o` stands. -/
def digestJudge (msg : DigestMsg) (o : OwnSet) (m : List Host.Cell) (d : Dev) : List Host.Cell × Dev :=
  digestMark msg o m (digestCompare msg o d)

/-- Own frame `o` is complete: it is kept, and a message of the partner that came early for it is judged. -/
def ownDone (o : OwnSet) (m : List Host.Cell) (d : Dev) : List Host.Cell × Dev :=
  let d := ownSetKeep o d
  match d.pair.digests.find? (fun x => x.frame.toNat == o.frame) with
  | none => (m, d)
  | some msg => digestJudge msg o m
      { d with pair := { d.pair with digests := d.pair.digests.filter (fun x => x.frame.toNat != o.frame) } }

end Sys2Proof.Machine
end

