-- ==== Sys2Proof/Machine/Can.lean ====
section
/-!
DEFINITION. Machine/Can.lean: the commands of the CAN channels and of the network sleep manager (13). The error counters follow
ISO 11898-1, which R422 names (notes/assumptions/23.md).
-/

namespace Sys2Proof.Machine

/-! ### Error states (R422, R423) -/

/-- The channel between error active and error passive. -/
def canErrors (n : Nat) (d : Dev) : Dev :=
  let tec := fget (F.CAN_ERRCNT_TEC n) d
  let rec' := fget (F.CAN_ERRCNT_REC n) d
  let word := tec + rec' * 2 ^ 16
  if canEstate n d = 0 ∧ (128 ≤ tec ∨ 128 ≤ rec') then recordC 0x0B01 n word (fset (F.CAN_STATUS_ESTATE n) 1 d)
  else if canEstate n d = 1 ∧ tec < 128 ∧ rec' < 128 then recordC 0x0B02 n word (fset (F.CAN_STATUS_ESTATE n) 0 d)
  else d

/-- Bus-off is entered with the frame in transmission; with AUTO_RECOV recovery starts at once. -/
def canBusOff (n : Nat) (id : Nat) (d : Dev) : Dev :=
  let d := fset (F.CAN_STATUS_ESTATE n) (if flag (F.CAN_CTRL_AUTO_RECOV n) d then 3 else 2) d
  recordC 0x0B03 n id (canPut n { canOf n d with offAt := d.clk } d)

/-- RECOVER: a write outside bus-off has no effect. -/
def canRecover (n : Nat) (d : Dev) : Dev :=
  if canEstate n d = 2 then fset (F.CAN_STATUS_ESTATE n) 3 d else d

def execRecover (n : Fin 6) (s : State) : Host.Outcome State Fault Refusal := onBlk (16 + n.val) (canRecover n.val) s

/-- CAN_BUS_ON: recovery ends; both counters are 0 and the channel is error active. -/
def canBusOn (n : Nat) (d : Dev) : Dev :=
  if canEstate n d ≠ 3 then d
  else
    let d := fset (F.CAN_STATUS_ESTATE n) 0 (regPut (R.CAN_ERRCNT n) 0 d)
    let d := recordC 0x0B02 n 0 (recordC 0x0B04 n (msSince (canOf n d).offAt d) d)
    canPut n (canOf n d) d

def execCanBusOn (n : Fin 6) (s : State) : Host.Outcome State Fault Refusal := onBlk (16 + n.val) (canBusOn n.val) s

/-- CAN_RECEIVE_ERROR: REC rises by 1, or by 8 where ISO 11898-1 says so, saturating at 255. -/
def canReceiveError (n : Nat) (heavy : Bool) (d : Dev) : Dev :=
  if canMode n d = 0 ∨ 2 ≤ canEstate n d then d
  else canErrors n (fsat (F.CAN_ERRCNT_REC n) (if heavy then 8 else 1) (fsat (F.CAN_CNT_ERR_ERR n) 1 d))

def execCanReceiveError (n : Fin 6) (heavy : Bool) (s : State) : Host.Outcome State Fault Refusal :=
  onBlk (16 + n.val) (canReceiveError n.val heavy) s

/-! ### Transmission (R418 to R424) -/

/-- The channel sends: NORMAL, and its queue is not held (R417). -/
def canSends (n : Nat) (d : Dev) : Bool := canMode n d == 1 && !canHeld n d

/-- A frame of the queue replaced. -/
def canQueuePut (n i : Nat) (x : CanTx) (d : Dev) : Dev :=
  let c := canOf n d
  canPut n { c with queue := listPut c.queue i x } d

/-- CAN_TX_SUCCESS: the attempt that began before the last `since` frames were queued. A transmission of its own ends a TXD
timeout, since it carries recessive bits (R433). -/
def canTxSuccess (n since : Nat) (d : Dev) : Dev :=
  match canInTx since (canOf n d), canSends n d with
  | some i, true =>
    match (canOf n d).queue[i]? with
    | none => d
    | some x =>
      let d := send (.canFrame n x.frame) (fsat (F.CAN_CNT_TX_CNT n) 1 (canLeave n i 0 d))
      let d := fset (F.CAN_ERRCNT_TEC n) (fget (F.CAN_ERRCNT_TEC n) d - 1) d
      canErrors n (fput (F.CAN_STATUS_TXD_TO n) false d)
  | _, _ => d

def execCanTxSuccess (n : Fin 6) (since : Nat) (s : State) : Host.Outcome State Fault Refusal :=
  onBlk (16 + n.val) (canTxSuccess n.val since) s

/-- CAN_TX_ERROR (R419, R422 to R424). -/
def canTxError (n since : Nat) (f : CanFail) (d : Dev) : Dev :=
  match canInTx since (canOf n d), canSends n d with
  | some i, true =>
    match (canOf n d).queue[i]? with
    | none => d
    | some x =>
      let x := { x with attempts := x.attempts + 1, collides := if f = .collision then x.collides + 1 else 0 }
      let d := canQueuePut n i x (fsat (F.CAN_CNT_ERR_ERR n) 1 d)
      let d := if f = .collision then fsat (F.CAN_CNT_ABN_COLLIDE n) 1 d else d
      let d := if f = .exempt then d else fsat (F.CAN_ERRCNT_TEC n) 8 d
      let most := fget (F.CAN_CFG_COLLIDE_MAX n) d
      let d := if f = .collision ∧ most ≠ 0 ∧ most ≤ x.collides then
          canLeave n i 4 (recordC 0x0B06 n x.frame.id (fsat (F.CAN_CNT_ABN_ABANDON n) 1 d))
        else if x.cancelled then canLeave n i 2 d
        else if fget (F.CAN_CFG_RETRY n) d < x.attempts then canAbandon n i 1 d
        else d
      if 255 < fget (F.CAN_ERRCNT_TEC n) d then canBusOff n x.frame.id d else canErrors n d
  | _, _ => d

def execCanTxError (n : Fin 6) (since : Nat) (f : CanFail) (s : State) : Host.Outcome State Fault Refusal :=
  onBlk (16 + n.val) (canTxError n.val since f) s

/-- CAN_ARBITRATION_LOST (R419): no attempt is counted; with RETRY 0 the frame is abandoned. -/
def canArbLost (n since : Nat) (d : Dev) : Dev :=
  match canInTx since (canOf n d), canSends n d with
  | some i, true =>
    let d := fsat (F.CAN_CNT_ERR_ARB n) 1 d
    match (canOf n d).queue[i]? with
    | none => d
    | some x =>
      if x.cancelled then canLeave n i 2 d
      else if fget (F.CAN_CFG_RETRY n) d = 0 then canAbandon n i 1 d else d
  | _, _ => d

def execCanArbitrationLost (n : Fin 6) (since : Nat) (s : State) : Host.Outcome State Fault Refusal :=
  onBlk (16 + n.val) (canArbLost n.val since) s

/-- The place of the frame whose attempt is under way: `under` frames were queued since it began. -/
def canUnder (under : Option Nat) (n : Nat) (d : Dev) : Option Nat :=
  match under, canSends n d with
  | some k, true => canInTx k (canOf n d)
  | _, _ => none

/-- The places of the frames queued TTL_MS ms ago or longer, but the one in transmission. -/
def ttlDue (n : Nat) (under : Option Nat) (d : Dev) : List Nat :=
  (List.range (canOf n d).queue.length).filter (fun i =>
    canUnder under n d != some i && (match (canOf n d).queue[i]? with
      | some x => decide (fget (F.CAN_CFG_TTL_MS n) d * tickMs ≤ d.clk - x.qat)
      | none => false))

/-- CAN_TTL_EXPIRY: every frame that is due is abandoned, the last queued first. -/
def canTtl (n : Nat) (under : Option Nat) (d : Dev) : Dev :=
  if fget (F.CAN_CFG_TTL_MS n) d = 0 then d else each (ttlDue n under d).reverse (fun i => canAbandon n i 3) d

def execCanTtlExpiry (n : Fin 6) (under : Option Nat) (s : State) : Host.Outcome State Fault Refusal :=
  onBlk (16 + n.val) (canTtl n.val under) s

/-- The place of the frame of page `p` with a TAG. -/
def txPlace (n p tag : Nat) (d : Dev) : Option Nat :=
  (List.range (canOf n d).queue.length).find? (fun i =>
    match (canOf n d).queue[i]? with
    | some x => x.page == p && x.tag == tag
    | none => false)

/-- TX_CANCEL (R420): the frame with that TAG leaves, or its attempt under way is its last. -/
def canCancel (n p tag : Nat) (go : Bool) (under : Option Nat) (d : Dev) : Dev :=
  match go, txPlace n p tag d with
  | true, some i =>
    if canUnder under n d = some i then
      match (canOf n d).queue[i]? with
      | some x => canQueuePut n i { x with cancelled := true } d
      | none => d
    else canLeave n i 2 d
  | _, _ => d

def execTxCancel (n : Fin 6) (p : Fin 2) (tag : Byte) (go : Bool) (under : Option Nat) (s : State) :
    Host.Outcome State Fault Refusal := onBlk (16 + n.val) (canCancel n.val p.val tag.toNat go under) s

/-- The data a page holds for its next frame. -/
def txData (n p len : Nat) (d : Dev) : List Byte :=
  ((List.range 16).flatMap (fun w => leBytes 4 (fget (F.CAN_TX_DATA_DATA n p w) d))).take len

/-- The RESULT of a TX_CMD (R443). -/
def txResult (n p e len : Nat) (d : Dev) : Nat :=
  let own := fget (F.CAN_CFG_OWNER n) d
  if p = 1 ∧ (own = 0 ∨ 8 ≤ own) then 3
  else if canMode n d = 0 then 5
  else if rtKind e d ≠ 2 ∨ rtCh e d ≠ n then 2
  else if p = 1 ∧ rtOwner e d ≠ own then 3
  else if (if rtFdf e d then 64 else 8) < len then 4
  else if canFree p (canOf n d) = 0 then 1
  else 0

/-- TX_CMD (R418): with GO a frame is queued, or the reason stands in TX_STAT. -/
def txCmd (n p e len : Nat) (go : Bool) (d : Dev) : Dev :=
  if !go then d
  else
    let r := txResult n p e len d
    let d := fset (F.CAN_TX_STAT_RESULT n p) r d
    if r ≠ 0 then d
    else
      let tag := (fget (F.CAN_TX_STAT_TAG n p) d + 1) % 256
      let d := fset (F.CAN_TX_STAT_TAG n p) tag d
      canEnter n { frame := rtFrame e (txData n p len d) d, page := p, tag, qat := d.clk } d

def execTxCmd (n : Fin 6) (p : Fin 2) (route : BitVec 12) (len : BitVec 7) (go : Bool) (s : State) :
    Host.Outcome State Fault Refusal := onBlk (16 + n.val) (txCmd n.val p.val route.toNat len.toNat go) s

/-- TX_DONE_READ (R421): the oldest entry leaves. -/
def txDonePop (n p : Nat) (d : Dev) : Dev :=
  let c := canOf n d
  let x := canPage c p
  canPut n (canPagePut p { x with done := x.done.drop 1 } c) d

def execTxDoneRead (n : Fin 6) (p : Fin 2) (s : State) : Host.Outcome State Fault Refusal :=
  onBlk (16 + n.val) (txDonePop n.val p.val) s

/-- RX_POP (R443): the head frame leaves. -/
def rxPop (n p : Nat) (d : Dev) : Dev :=
  let c := canOf n d
  let x := canPage c p
  canPut n (canPagePut p { x with rx := x.rx.drop 1 } c) d

def execRxPop (n : Fin 6) (p : Fin 2) (s : State) : Host.Outcome State Fault Refusal := onBlk (16 + n.val) (rxPop n.val p.val) s

/-! ### Modes and transceivers (R417, R433, R434) -/

/-- CAN_MODE: the mode of CAN_CTRL takes effect; OFF empties the queue with outcome 5. -/
def canModeSet (n : Nat) (d : Dev) : Dev :=
  let d := fset (F.CAN_STATUS_EFF_MODE n) (fget (F.CAN_CTRL_MODE n) d) d
  if canMode n d = 0 then
    each (canOf n d).queue (fun _ d => canLeave n 0 5 d) (canPut n (canOf n d) d)
  else canPut n (canOf n d) d

def execCanMode (n : Fin 6) (s : State) : Host.Outcome State Fault Refusal := onBlk (16 + n.val) (canModeSet n.val) s

/-- A transceiver state selected; a move from STANDBY or SLEEP to NORMAL or LISTEN takes up to 50 µs. -/
def xcvrTo (n st : Nat) (d : Dev) : Dev :=
  let old := fget (F.CAN_XCVR_STATE n) d
  let d := fset (F.CAN_XCVR_STATE n) st d
  let c := canOf n d
  canPut n { c with moving := if 2 ≤ old then decide (st < 2) else c.moving && decide (st < 2) } d

def execCanXcvrState (n : Fin 6) (st : BitVec 2) (s : State) : Host.Outcome State Fault Refusal :=
  onBlk (16 + n.val) (xcvrTo n.val st.toNat) s

/-- CAN_XCVR_MOVE_COMPLETE. -/
def execCanXcvrMoveComplete (n : Fin 6) (s : State) : Host.Outcome State Fault Refusal :=
  onBlk (16 + n.val) (fun d => canPut n.val { canOf n.val d with moving := false } d) s

/-- CAN_TXD_TIMEOUT (R433). -/
def txdTimeout (n : Nat) (d : Dev) : Dev := recordC 0x0B09 n 0 (fput (F.CAN_STATUS_TXD_TO n) true d)

def execCanTxdTimeout (n : Fin 6) (s : State) : Host.Outcome State Fault Refusal := onBlk (16 + n.val) (txdTimeout n.val) s

/-- CAN_BUS_WAKE (R434): in STANDBY or SLEEP with WAKE_EN. -/
def busWake (n : Nat) (d : Dev) : Dev :=
  if fget (F.CAN_XCVR_STATE n) d < 2 ∨ flag (F.CAN_XCVR_WAKE_EN n) d = false then d
  else
    let d := fbitPut F.NSM_XWAKE_CH n true d
    if !flag F.NSM_REG_LEVEL d && flag F.NSM_REG_XWAKE_REG d then send (.regEn true) (fput F.NSM_REG_LEVEL true d) else d

def execCanBusWake (n : Fin 6) (s : State) : Host.Outcome State Fault Refusal := onBlk (16 + n.val) (busWake n.val) s

/-- CAN_CNT_CLR (R442). -/
def canCntClr (n : Nat) (d : Dev) : Dev :=
  each [R.CAN_CNT_RX n, R.CAN_CNT_TX n, R.CAN_CNT_ERR n, R.CAN_CNT_DROP n, R.CAN_CNT_ABN n] (fun r => regPut r 0) d

def execCanCntClr (n : Fin 6) (s : State) : Host.Outcome State Fault Refusal := onBlk (16 + n.val) (canCntClr n.val) s

/-! ### Reception (R425, R427, R428) -/

/-- An accept entry matches a frame of channel `n` (R427). -/
def rtMatches (n e : Nat) (f : CanFrame) (d : Dev) : Bool :=
  rtKind e d == 1 && rtCh e d == n && rtIde e d == f.ide && (rtId e d) >>> (rtMbits e d) == f.id >>> (rtMbits e d)

/-- A frame into the receive FIFO of a page; the frame that ends an overflow run carries OVF and records it. -/
def rxEnter (n p e : Nat) (f : CanFrame) (ts : Nat) (d : Dev) : Dev :=
  let c := canOf n d
  let x := canPage c p
  if 32 ≤ x.rx.length then
    fsat (F.CAN_CNT_DROP_OVF n) 1 (canPut n (canPagePut p { x with lost := x.lost + 1 } c) d)
  else
    let ovf := decide (0 < x.lost)
    let d := canPut n (canPagePut p { x with rx := x.rx ++ [{ frame := f, entry := e, ts, ovf }], lost := 0 } c) d
    if ovf then recordC 0x0B08 (n + p * 2 ^ 8) x.lost d else d

/-- A gateway frame dropped: counted and recorded. -/
def gwDrop (n e cause : Nat) (d : Dev) : Dev :=
  recordC 0x0B0A (n + e * 2 ^ 16) cause (fsat (F.CAN_CNT_DROP_OVF n) 1 d)

/-- The gateway to CAN channel GW (R428). -/
def gwCan (n e : Nat) (f : CanFrame) (d : Dev) : Dev :=
  let g := rtGw e d
  if 6 ≤ g ∨ canMode g d = 0 then gwDrop n e 0 d
  else if f.rtr ∨ (f.fdf ∧ flag (F.CAN_CTRL_FD_EN g) d = false) then gwDrop n e 1 d
  else if canFree 0 (canOf g d) = 0 then gwDrop n e 2 d
  else canEnter g { frame := f, page := 2, qat := d.clk } d

/-- The datagram of a gateway frame (R428). -/
def gwBytes (n : Nat) (f : CanFrame) (ts : Nat) : List Byte :=
  let b := leBytes 4 ts ++ leBytes 1 n
    ++ leBytes 1 (b2n f.ide + 2 * b2n f.fdf + 4 * b2n f.brs + 8 * b2n f.esi + 16 * b2n f.rtr)
    ++ leBytes 1 f.data.length ++ [0] ++ leBytes 4 f.id ++ f.data
  b ++ leBytes 4 (crc32c b)

/-- The gateway to Ethernet destination ED. -/
def gwEth (n e : Nat) (f : CanFrame) (ts : Nat) (d : Dev) : Dev :=
  let k := rtEd e d
  if !flag (F.ETH_STATUS_LINK (fget (F.NSM_EDST_PORT k) d)) d then gwDrop n e 3 d else edOut k (gwBytes n f ts) d

/-- The decision of the accept entries of channel `n` (R427). -/
def canAccept (n : Nat) (f : CanFrame) (ts : Nat) (d : Dev) : Dev :=
  match (rtUsed d).find? (fun e => rtMatches n e f d) with
  | none => fsat (F.CAN_CNT_DROP_NOMATCH n) 1 d
  | some e =>
    match rtDest e d with
    | 0 => rxEnter n 0 e f ts d
    | 1 => rxEnter n 1 e f ts d
    | 2 => gwCan n e f d
    | 3 => gwEth n e f ts d
    | _ => d

/-- A frame with an identifier of one of the channel's own transmit entries (R425): at most once per second per entry. -/
def canForeign (n : Nat) (f : CanFrame) (d : Dev) : Dev :=
  each ((rtUsed d).filter (fun e => rtKind e d == 2 && rtCh e d == n && rtIde e d == f.ide && rtId e d == f.id)) (fun e d =>
    let c := canOf n d
    let last := tabGet (fun _ => 0) c.foreign e
    if last ≠ 0 ∧ d.clk + 1 - last < 1000 * tickMs then d
    else recordC 0x0B07 (n + e * 2 ^ 16) f.id (canPut n { c with foreign := tabSet (fun _ => 0) c.foreign e (d.clk + 1) } d)) d

/-- A received frame lowers REC (ISO 11898-1): from above 127 to a value from 119 to 127 that the standard leaves free. -/
def canReceived (n : Nat) (d : Dev) : Dev :=
  let r := fget (F.CAN_ERRCNT_REC n) d
  let d := fsat (F.CAN_CNT_RX_CNT n) 1 d
  if r < 128 then canErrors n (fset (F.CAN_ERRCNT_REC n) (r - 1) d)
  else
    let (k, d) := draw d
    canErrors n (fset (F.CAN_ERRCNT_REC n) (119 + (Config.freeWord k).toNat % 9) d)

/-- The node number of a keep-alive (R435). -/
def keepNode (f : CanFrame) (d : Dev) : Option Nat :=
  let b := fget F.NSM_NM_BASE d
  if f.ide ∨ f.fdf ∨ f.rtr ∨ f.data = [] ∨ f.id < b ∨ b + 63 < f.id then none else some (f.id - b)

/-- A frame that would be a keep-alive but for having no data, which the NSM ignores (R435). -/
def keepEmpty (f : CanFrame) (d : Dev) : Bool := decide (f.data = []) && (keepNode { f with data := [0] } d).isSome

/-- A keep-alive of node `j` taken by the NSM (R435, R436, R438). -/
def nsmKeep (n j byte0 : Nat) (d : Dev) : Dev :=
  let awake := byte0.testBit 0
  let req := byte0.testBit 1
  let d := fset (F.NSM_NODE_CH j) n (fput (F.NSM_NODE_AWAKE j) awake (fput (F.NSM_NODE_SEEN j) true d))
  let d := { d with nsm := { d.nsm with seenAt := tabSet (fun _ => 0) d.nsm.seenAt (64 * n + j) (d.clk + 1) } }
  if flag (F.NSM_NODE_CAPPED j) d then nsmEval d
  else
    let d := if nsmState d = 3 ∧ (awake ∨ req) then nsmAbort 2 j d else d
    let d := nsmEval d
    if req && flag F.NSM_CTRL_EN d && nsmState d != 4 then keepAlive (b2n (flag F.NSM_STATUS_OWN d)) d else d

/-- A frame the NSM sees on a channel of CHANNELS: a keep-alive, or another frame, which aborts PREPARE (R438). -/
def nsmFrame (n : Nat) (f : CanFrame) (d : Dev) : Dev :=
  if !fbit F.NSM_CTRL_CHANNELS n d then d
  else match keepNode f d with
    | some j => nsmKeep n j (field f.data 0 1) d
    | none => if nsmState d = 3 ∧ keepEmpty f d = false then nsmEval (nsmAbort 3 0 d) else d

/-- A valid frame received on channel `n`, its SOF stamped `ts`. -/
def canRx (n : Nat) (f : CanFrame) (ts : Nat) (d : Dev) : Dev :=
  if canMode n d = 0 ∨ 2 ≤ canEstate n d ∨ 2 ≤ fget (F.CAN_XCVR_STATE n) d ∨ (canOf n d).moving = true then d
  else canAccept n f ts (nsmFrame n f (canForeign n f (canReceived n d)))

/-- CAN_FRAME_RECEIVED. -/
def execCanFrameReceived (n : Fin 6) (f : CanFrame) (sof : Word) (s : State) : Host.Outcome State Fault Refusal :=
  onBlk (16 + n.val) (canRx n.val f sof.toNat) s

/-- KEEP_ALIVE: a classical base frame with an identifier of the keep-alive range. -/
def keepAliveRx (n node : Nat) (data : List Byte) (ts : Nat) (d : Dev) : Dev :=
  canRx n { id := fget F.NSM_NM_BASE d + node, data } ts d

def execKeepAlive (n : Fin 6) (node : Fin 64) (data : List Byte) (sof : Word) (s : State) :
    Host.Outcome State Fault Refusal := onBlk (16 + n.val) (keepAliveRx n.val node.val data sof.toNat) s

/-! ### The sleep agreement (R437 to R440) -/

/-- NSM_EN: EN set from OFF leads to AWAKE, cleared to OFF; in COMMITTED it has no effect. -/
def nsmEnable (on : Bool) (d : Dev) : Dev :=
  if nsmState d = 4 then d
  else
    let d := fput F.NSM_CTRL_EN on d
    if on then (if nsmState d = 0 then nsmEval (nsmTo 1 d) else d) else nsmTo 0 d

def execNsmEn (on : Bool) (s : State) : Host.Outcome State Fault Refusal := onBlk 22 (nsmEnable on) s

/-- KEEP_ALIVE_SEND: every PERIOD while the own vote is awake. -/
def keepAliveSend (d : Dev) : Dev :=
  if flag F.NSM_CTRL_EN d && (ownVote d).isSome then keepAlive 1 d else d

def execKeepAliveSend (s : State) : Host.Outcome State Fault Refusal := onBlk 22 keepAliveSend s

/-- NODE_VOTE_EXPIRY (R435). -/
def nodeExpiry (j : Nat) (d : Dev) : Dev := nsmEval (fput (F.NSM_NODE_AWAKE j) false d)

def execNodeVoteExpiry (j : Fin 64) (s : State) : Host.Outcome State Fault Refusal := onBlk 22 (nodeExpiry j.val) s

/-- IDLE_EXPIRY: READY leads to PREPARE. -/
def idleExpiry (d : Dev) : Dev := if nsmState d = 2 then nsmTo 3 d else d

def execIdleExpiry (s : State) : Host.Outcome State Fault Refusal := onBlk 22 idleExpiry s

/-- The only uncapped node that votes awake, while the own vote is sleep (R440). -/
def soleNode (d : Dev) : Option Nat :=
  match nodesAwake d with
  | [j] => if (ownVote d).isSome then none else some j
  | _ => none

/-- NM_NODE_CAPPED: SOLE_S has reached CAP_S. -/
def nodeCap (j : Nat) (d : Dev) : Dev :=
  let cap := fget F.NSM_CAP_CAP_S d
  if cap = 0 ∨ soleNode d ≠ some j then d
  else
    let s := max cap (fget (F.NSM_NODE_SOLE_S j) d)
    let d := fput (F.NSM_NODE_CAPPED j) true (fset (F.NSM_NODE_SOLE_S j) s d)
    nsmEval (recordC 0x0B21 (fget (F.NSM_NODE_CH j) d + j * 2 ^ 8) s d)

def execNmNodeCapped (j : Fin 64) (s : State) : Host.Outcome State Fault Refusal := onBlk 22 (nodeCap j.val) s

/-- NSM_NODE_CAPPED_CLEAR. -/
def nodeUncap (j : Nat) (d : Dev) : Dev := nsmEval (fput (F.NSM_NODE_CAPPED j) false d)

def execNsmNodeCappedClear (j : Fin 64) (s : State) : Host.Outcome State Fault Refusal := onBlk 22 (nodeUncap j.val) s

/-- The channels of CHANNELS on which a capped node sent a keep-alive within the last IDLE_S seconds (R439). -/
def cappedChannels (d : Dev) : List Nat :=
  below 6 (fun n => fbit F.NSM_CTRL_CHANNELS n d && (List.range 64).any (fun j =>
    flag (F.NSM_NODE_CAPPED j) d && decide (tabGet (fun _ => 0) d.nsm.seenAt (64 * n + j) ≠ 0)
      && decide (d.clk + 1 - tabGet (fun _ => 0) d.nsm.seenAt (64 * n + j) ≤ fget F.NSM_TIME_IDLE_S d * 1000 * tickMs)))

/-- NM_SLEEP_COMMIT (R438, R439): an abort condition of this cycle wins; else the request goes to PWR. -/
def nmCommit (d : Dev) : Dev :=
  let d := nsmEval d
  if nsmState d ≠ 3 then d
  else
    let deaf := cappedChannels d
    let st := if flag F.NSM_CTRL_TARGET d then 4 else 3
    let d := each deaf (fun n => fput (F.CAN_XCVR_WAKE_EN n) false) d
    let d := each (List.range 6) (fun n => xcvrTo n (if st = 4 then 3 else 2)) d
    let mask := deaf.foldl (fun m n => m + 2 ^ n) 0
    let d := recordC 0x0B23 st (fget F.NSM_CTRL_CHANNELS d + mask * 2 ^ 8) d
    sleepRequest st true (nsmTo 4 d)

def execNmSleepCommit (s : State) : Host.Outcome State Fault Refusal := onBlk 22 nmCommit s

end Sys2Proof.Machine
end

