-- ==== Sys2Proof/Machine/Time.lean ====
section
/-!
DEFINITION. Machine/Time.lean: the passing of angle-clock ticks (R40): the clock, the fabric cycles (R446), the accumulator, and
what counts whole seconds.
-/

namespace Sys2Proof.Machine

/-- One whole second: operating time (R475), the idle count of READY (R437), and SOLE_S of the only node awake (R440). -/
def secondTick (d : Dev) : Dev :=
  let d := finc F.PWR_OPSEC_SEC d
  if cut 22 d || d.pwr.sealed then d else
  let d := match soleNode d with
    | some j => fsat (F.NSM_NODE_SOLE_S j) 1 d
    | none => d
  if nsmState d = 2 then fset F.NSM_STATUS_IDLE_LEFT (fget F.NSM_STATUS_IDLE_LEFT d - 1) d else d

/-- Fabric clock cycles in one angle-clock tick: 400, 300, 200 and 100 MHz at PL0 to PL3 (R445); the sleep states gate the system
clock (R448). -/
def fabricRate (d : Dev) : Nat := if d.pwr.sealed then 0 else 4 - fget F.PWR_PL_CUR d

/-- The mcycle of every trestle that runs in normal world counts fabric cycles (R299); mcountinhibit stops it. -/
def countCycles (k : Nat) (d : Dev) : Dev :=
  let runs (t : Nat) : Bool :=
    let a := (tabGet (fun _ => {}) d.trestles t).arch
    let st := fget (F.TL_STAT_STATE t) d
    (st == 3 || st == 4) && !a.w && !(tabGet (fun _ => (0 : DWord)) a.csr 0x320).getLsbD 0
  each (below 5 runs) (fun t d =>
    let x := tabGet (fun _ => {}) d.trestles t
    let old := tabGet (fun _ => (0 : DWord)) x.arch.csr 0xB00
    let csr := tabSet (fun _ => (0 : DWord)) x.arch.csr 0xB00 (old + BitVec.ofNat 64 k)
    { d with trestles := tabSet (fun _ => {}) d.trestles t { x with arch := { x.arch with csr } } }) d

/-- The last accumulator value of the present cycle. -/
def accLast (d : Dev) : Nat := (d.ang.acc / 2 ^ 48 + 1) * 2 ^ 48 - 1

/-- `n` angle-clock ticks. The accumulator stays in its cycle, which only a cycle boundary ends, and stands while HELD is 1. -/
def advance (n : Nat) (d : Dev) : Dev :=
  let inc := fget F.ANG_INC_INC d
  let ang := if flag F.ANG_STATUS_HELD d then { d.ang with hold := d.ang.hold - n * inc }
    else { d.ang with acc := min (d.ang.acc + n * inc) (accLast d) }
  let secs := (d.clk + n) / 100000000 - d.clk / 100000000
  each (List.range secs) (fun _ => secondTick)
    (countCycles (n * fabricRate d) { d with clk := d.clk + n, fcyc := d.fcyc + n * fabricRate d, ang })

/-- Ticks until the accumulator, at its present increment, has gained `units` of 2^-32 counts. -/
def ticksFor (units : Nat) (d : Dev) : Nat :=
  let inc := max 1 (fget F.ANG_INC_INC d)
  (units + inc - 1) / inc

/-- Time passes until the count reaches `c` in the present cycle; none when it has passed it or a hold is on. -/
def advanceTo (c : Nat) (d : Dev) : Dev :=
  let goal := (d.ang.acc / 2 ^ 48) * 2 ^ 48 + c * 2 ^ 32
  if flag F.ANG_STATUS_HELD d ∨ goal ≤ d.ang.acc then d else advance (ticksFor (goal - d.ang.acc) d) d

/-- The clocks of the angle and of the seconds run: not in S2, S3 and S4 (R43). -/
def clocksRun (d : Dev) : Bool := !(d.pwr.sealed && decide (2 ≤ d.pwr.target))

/-- One angle-clock tick with nothing commanded. -/
def tick (d : Dev) : Dev := if clocksRun d then advance 1 d else d

/-- A CAN channel's 40 MHz counter (R432). -/
def canTs (d : Dev) : Nat := (d.clk - d.nsm.tsBase) * 2 / 5 % 2 ^ 32

end Sys2Proof.Machine
end

