-- ==== Sys2Proof/Machine/Bench.lean ====
section
/-!
DEFINITION. Machine/Bench.lean: the estimator bench (05): the work of a frame, its cells and lanes, detected errors, late work
and decimation (R70 to R75), requests, and the alignment of a pair.
-/

namespace Sys2Proof.Machine

/-! ### Frames -/

/-- The frame that cycle-bound work refers to: that in work, else that of the present cycle. -/
def frameNow (d : Dev) : Nat := d.est.work.getD ((cycleNow d + 2 ^ 32 - 1) % 2 ^ 32)

/-- a − b of 48-bit timestamps. -/
def tsDiff (a b : Nat) : Int := toSigned 48 ((a + 2 ^ 48 - b % 2 ^ 48) % 2 ^ 48)

/-- The timestamp of count `c` in the processing cycle of frame `f` (R67). -/
def frameTs (f c : Nat) : Nat := ((f + 1) % 2 ^ 32) * 65536 + c

/-- RUNNING: EN is 1 and the microcode is loaded (R188). -/
def estRunning (d : Dev) : Dev := fput F.EST_STATUS_RUNNING (flag F.EST_CTRL_EN d && !flag F.EST_STATUS_UCODE_RELOAD d) d

/-- The bench can process no frame. -/
def estBarred (d : Dev) : Bool := !flag F.EST_STATUS_RUNNING d || flag F.EST_STATUS_DOWN d || cut 5 d

/-- The frame that starts its processing cycle now will be skipped (R73, R184). -/
def estWillSkip (d : Dev) : Bool := estBarred d || (flag F.ANG_SCHED_DECIM d && flag F.ANG_SCHED_SKIP_NEXT d)

/-- Chemistry sets that await a reload count the frame (R185). -/
def badCount (d : Dev) : Dev :=
  each (below 8 (fun k => fbit F.EST_CHEM_BAD k d)) (fun k d =>
    { d with est := { d.est with
        badFrames := tabSet (fun _ => 0) d.est.badFrames k (tabGet (fun _ => 0) d.est.badFrames k + 1) } }) d

/-- Frame `f` is skipped: no cell is updated, nothing is published, and the partner is told (R73, R168, R182). -/
def estSkip (f : Nat) (m : List Host.Cell) (d : Dev) : List Host.Cell × Dev :=
  let m := idleSweep f (fun _ => false) d m
  let d := badCount d
  let d := { d with est := { d.est with
    work := none, queue := [], cell := 0, tries := 0, failLane := none, queued := [], foreign := [], done := 0, considered := some f
    fifo := d.est.fifo.filter (fun e => decide (0 < sdiff32 e.frame f)), stale := true, reqDue := none
    ucodeFrames := d.est.ucodeFrames + b2n (flag F.EST_STATUS_UCODE_RELOAD d) } }
  ownDone { frame := f, test := List.replicate 16 0 } m (let d := fput F.EST_STATUS_BUSY false d
    if paired d then toPartner (.digest { frame := BitVec.ofNat 32 f, skip := true }) d else d)

/-! ### Alignment (R183) -/

/-- The secondary's request for the frame: unaligned positions in ascending cell index, up to ALIGN_MAX (R183). -/
def alignAsk (d : Dev) : Dev :=
  let ps := (List.range 16).foldl (fun l n => l ++ (below 48 (fun p => isUnaligned n p d)).map (fun p => (n, p))) []
  if d.pair.role = 4 ∧ flag F.EST_CTRL_ALIGN_EN d ∧ ps ≠ [] ∧ peerUp d ∧ 2 ≤ fget F.PEER_STATUS_VER d then
    send (.alignRequest (ps.take (max 1 (fget F.EST_CTRL_ALIGN_MAX d))))
      (fput F.EST_ALIGN_REQ true (fput F.EST_STATUS_ALIGNING true d))
  else d

/-- A transfer installed: the blocks replaced, UNALIGNED cleared, ALIGN_DONE when the last position is installed. -/
def alignInstall (f : Nat) (bs : List PosBlocks) (m : List Host.Cell) (d : Dev) : List Host.Cell × Dev :=
  let put (e : List Host.Cell × Dev) (b : PosBlocks) : List Host.Cell × Dev :=
    let (m, d) := e
    if !isUnaligned b.chain b.pos d || b.bytes.length ≠ 4096 then (m, d)
    else
      let i0 := cellIndex b.chain b.pos 0
      let m := memWrite (blockAt i0) b.bytes m
      let m := (List.range 32).foldl (fun m c =>
        blockStore (i0 + c) { blockLoad m (i0 + c) with unaligned := false } m) m
      let inited := (List.range 32).foldl (fun k c =>
        let st := (blockLoad m (i0 + c)).state
        maskPut k (i0 + c) ((st != 3 && st != 5) || (blockLoad m (i0 + c)).reinits != 0)) d.est.inited
      let retry := (List.range 32).foldl (fun t c => tabSet (fun _ => 0) t (i0 + c) 0) d.est.retry
      let woken := (List.range 32).foldl (fun k c => maskPut k (i0 + c) false) d.est.woken
      let old := tabGet (fun _ => 0) d.est.unaligned b.chain
      (m, { d with est := { d.est with
        unaligned := tabSet (fun _ => 0) d.est.unaligned b.chain (maskPut old b.pos false)
        inited, woken, retry, installed := d.est.installed + 1 } })
  let (m, d) := bs.foldl put (m, d)
  let d := unalignedCount (alignEnd d)
  let d := { d with est := { d.est with xfer := none } }
  if fget F.EST_ALIGN_UNALIGNED d = 0 ∧ 0 < d.est.installed then
    (m, record 0x040C d.est.installed f (frameNow d) { d with est := { d.est with installed := 0 } })
  else (m, d)

/-- ALIGN_REQUEST (R183): the primary keeps the request for its publish window. -/
def alignRequest (ps : List (Nat × Nat)) (d : Dev) : Dev :=
  if d.pair.role = 3 ∧ flag F.EST_CTRL_ALIGN_EN d then { d with est := { d.est with alignReq := ps } } else d

def execAlignRequest (ps : List (Fin 16 × Fin 48)) (s : State) : Host.Outcome State Fault Refusal :=
  onBlk 5 (heardThen (alignRequest (ps.map (fun e => (e.1.val, e.2.val))))) s

/-- ALIGN_TRANSFER (R183): a transfer of the blocks after frame `f`; `good` when it is complete and passed the link's check. It
is installed at once when the own work for `f` is done and published, else before the work of the next frame. -/
def alignTransfer (f : Nat) (bs : List PosBlocks) (good : Bool) (m : List Host.Cell) (d : Dev) : List Host.Cell × Dev :=
  if d.pair.role ≠ 4 ∨ !good then (m, alignEnd d)
  else if d.est.work = none ∧ d.est.pub = none ∧ d.est.considered = some f then alignInstall f bs m d
  else (m, { d with est := { d.est with xfer := some (f, bs) } })

def execAlignTransfer (f : Word) (bs : List PosBlocks) (good : Bool) (s : State) : Host.Outcome State Fault Refusal :=
  onBlkBoth 5 (heardBoth (alignTransfer f.toNat bs good)) s

/-! ### Start, cut-off and end of a frame's work (R167, R70 to R75) -/

/-- The frame whose work starts next: the one after the last considered, when its cycle is the present one or the one before. -/
def nextFrame (d : Dev) : Nat :=
  let n := (cycleNow d + 2 ^ 32 - 1) % 2 ^ 32
  match d.est.considered with
  | some c => if (c + 1) % 2 ^ 32 = (n + 2 ^ 32 - 1) % 2 ^ 32 then (c + 1) % 2 ^ 32 else n
  | none => n

/-- The lane results of frame `f` begin: positions ready earlier are queued in the order in which they became ready. -/
def workBegin (f : Nat) (d : Dev) : Dev :=
  let mine := d.est.fifo.filter (fun e => e.frame == f)
  let d := { d with est := { d.est with
    work := some f, queue := [], cell := 0, tries := 0, failLane := none, queued := [], foreign := [], done := 0, cycles := 0
    fifo := d.est.fifo.filter (fun e => decide (0 < sdiff32 e.frame f)) } }
  let d := each mine estQueue d
  let d := fput F.EST_STATUS_BUSY (!mine.isEmpty) d
  alignAsk (if flag F.ANG_SCHED_DECIM d then fput F.ANG_SCHED_SKIP_NEXT true d else d)

/-- A frame that counts among the four after the first late one (R72). -/
def shortStep (d : Dev) : Dev := fset F.ANG_SCHED_SHORT_LEFT (fget F.ANG_SCHED_SHORT_LEFT d - 1) d

/-- ESTIMATE_WORK_START (R71): a transfer of the frame before is installed; the frame is skipped (R73, R75) or its work starts. -/
def workStart (m : List Host.Cell) (d : Dev) : List Host.Cell × Dev :=
  if d.est.work.isSome then (m, d)
  else
    let f := nextFrame d
    let (m, d) := match d.est.xfer with
      | some (g, bs) =>
        if (g + 1) % 2 ^ 32 = f ∧ d.pair.role = 4 then alignInstall g bs m d
        else (m, alignEnd { d with est := { d.est with xfer := none } })
      | none => (m, d)
    let carried := (tsDiff d.est.pubEnd (frameTs f d.ang.win.start)).toNat
    let d := fset F.ANG_SCHED_DELAY (min carried 65535) d
    if estBarred d then estSkip f m (shortStep d)
    else if flag F.ANG_SCHED_DECIM d && flag F.ANG_SCHED_SKIP_NEXT d then
      estSkip f m (shortStep (fput F.ANG_SCHED_SKIP_NEXT false d))
    else if 65536 ≤ carried then
      let d := if flag F.ANG_SCHED_DECIM d then d
        else
          let first := if d.ang.lateRun = 0 then f else d.ang.lateFirst
          record 0x0211 first f 1 { fput F.ANG_SCHED_DECIM true d with ang := { d.ang with decimGood := 0 } }
      estSkip f m (shortStep (fput F.ANG_SCHED_SKIP_NEXT false d))
    else (m, workBegin f d)

def execEstimateWorkStart (s : State) : Host.Outcome State Fault Refusal := onBoth workStart s

/-- ESTIMATE_CUTOFF (R167): START + LEN of the present cycle passes, the cut-off of the frame it processes; in decimation that
of the frame before (R73). -/
def cutoff (d : Dev) : Dev :=
  let back := if flag F.ANG_SCHED_DECIM d then 2 else 1
  { d with est := { d.est with cut := some ((cycleNow d + 2 ^ 32 - back) % 2 ^ 32) } }

def execEstimateCutoff (s : State) : Host.Outcome State Fault Refusal := onBlk 5 cutoff s

/-- Time passes until every lane is idle. -/
def lanesWait (d : Dev) : Dev :=
  let busy := ((List.range 8).map (fun l => tabGet (fun _ => 0) d.est.laneAt l - d.fcyc)).foldl max 0
  if busy = 0 ∨ fabricRate d = 0 then d else advance ((busy + fabricRate d - 1) / fabricRate d) d

/-- The positions expected for the work of a frame (R167). -/
def estExpected (d : Dev) : List (Nat × Nat) :=
  (chainsOn d).foldl (fun l n => l ++ ((below 48 (fun p => flag (F.ACQ_POS_EN n p) d)).filter (fun p =>
    !excluded n p d && (match headOf n (fget (F.ACQ_POS_STRING n p) d) d with
      | some h => !excluded n h d
      | none => false))).map (fun p => (n, p))) []

/-- The estimate work of frame `f` has ended (R167): every lane is idle, and every expected position has been queued,
acquisition has closed the frame, or the cut-off has passed. -/
def workDone (f : Nat) (d : Dev) : Bool :=
  (d.est.queue.isEmpty || flag F.EST_STATUS_DOWN d)
    && ((estExpected d).all (fun e => maskBit (tabGet (fun _ => 0) d.est.queued e.1) e.2)
      || (match d.acq.closed with
        | some c => decide (0 ≤ sdiff32 c f)
        | none => false)
      || cutPassed f d)

/-- The length of a publish window (R67). -/
def pubLen (w : WinSet) : Nat := 65536 - w.slack - w.start - w.len

/-- Late runs, cut publish windows and decimation at the end of the work of frame `f` (R70, R72 to R74): `spent` counts past
START + LEN of its processing cycle when positive. Answers the length of the publish window too. -/
def schedEnd (f : Nat) (spent : Int) (d : Dev) : Dev × Nat :=
  let full := pubLen d.ang.win
  let run := fget F.ANG_SCHED_LATE_RUN d
  let decim := flag F.ANG_SCHED_DECIM d
  if 0 < spent then
    let n := if run = 0 then 1 else d.ang.lateRun + 1
    let d := fset F.ANG_SCHED_LATE_RUN (min n 255) { d with ang := { d.ang with lateRun := n, decimGood := 0 } }
    let short := run ≠ 0 ∧ fget F.ANG_SCHED_SHORT_LEFT d ≠ 0
    let d := if run = 0 then
        record 0x0210 f spent.toNat 0 (fset F.ANG_SCHED_SHORT_LEFT 4 { d with ang := { d.ang with lateFirst := f } })
      else shortStep d
    let d := if n = 8 ∧ !decim then
        record 0x0211 d.ang.lateFirst ((f + 1) % 2 ^ 32) 0
          (fput F.ANG_SCHED_SKIP_NEXT false (fput F.ANG_SCHED_DECIM true d))
      else d
    (d, if short then d.ang.win.pubMin else full)
  else
    let d := fset F.ANG_SCHED_SHORT_LEFT 0 (fset F.ANG_SCHED_LATE_RUN 0 d)
    if decim then
      if 1 ≤ d.ang.decimGood then
        (record 0x0212 f d.ang.lateRun 1 { fput F.ANG_SCHED_SKIP_NEXT false (fput F.ANG_SCHED_DECIM false d) with
          ang := { d.ang with lateRun := 0, decimGood := 0 } }, full)
      else ({ d with ang := { d.ang with decimGood := d.ang.decimGood + 1 } }, full)
    else if run ≠ 0 then
      (record 0x0212 f d.ang.lateRun 0 { d with ang := { d.ang with lateRun := 0 } }, full)
    else (d, full)

/-- The work of frame `f` ends and its publish window starts. -/
def workClose (f : Nat) (d : Dev) : Dev :=
  let spent := tsDiff (tsNow d) (frameTs f (d.ang.win.start + d.ang.win.len))
  let (d, len) := schedEnd f spent (badCount d)
  let d := { d with est := { d.est with
    work := none, queue := [], cell := 0, tries := 0, failLane := none, considered := some f, pub := some f
    pubEnd := (tsNow d + len) % 2 ^ 48, reqDue := none } }
  fset F.EST_FRAME_FRAME f (fput F.EST_STATUS_BUSY false d)

/-- ESTIMATE_WORK_END (R167, R70): the cells not updated are written, and the publish window starts. -/
def workEnd (m : List Host.Cell) (d : Dev) : List Host.Cell × Dev :=
  match d.est.work with
  | none => (m, d)
  | some f =>
    if !workDone f d then (m, d)
    else
      let d := lanesWait d
      (idleSweep f (fun i => maskBit d.est.done i) d m, workClose f d)

def execEstimateWorkEnd (s : State) : Host.Outcome State Fault Refusal := onBlkBoth 5 workEnd s

/-! ### Cells on lanes (R160, R165, R174 to R177) -/

/-- The requests that are due for cell `i` in frame `f` (R189). -/
def reqDueFor (i f : Nat) (r : Option InitReq) : Bool :=
  match r with
  | none => false
  | some r => (r.all || r.cell == i) && !maskBit r.done i
    && (match r.due with
      | none => true
      | some g => decide (0 ≤ sdiff32 f g))

/-- The cause under which cell `i` is reinitialised in frame `f` (R165), the lowest that holds; `parity` an error found in its
block. -/
def reinitCause (i f : Nat) (s : CellBlock) (ledger : List LedgerEntry) (parity : Bool) (d : Dev) : Option Nat :=
  let gap := sdiff32 f s.lastFrame
  let tried := tabGet (fun _ => 0) d.est.retry i
  let c0 := !maskBit d.est.inited i
  let c1 := decide ((fget F.EST_CFG_MAXGAP d : Int) < gap) || maskBit d.est.woken i
    || (gap != 0 && !ledger.any (fun e => e.frame == (s.lastFrame + 1) % 2 ^ 32))
    || (s.state == 3 && tried == 0)
  let c2 := blockBad s || tried == 3
  let c3 := parity || tried == 4
  let c4 := reqDueFor i f d.est.req || reqDueFor i f d.est.reqDue || tried == 5
  if c0 then some 0 else if c1 then some 1 else if c2 then some 2 else if c3 then some 3 else if c4 then some 4 else none

/-- The first position leaves the queue. -/
def estDrop (rest : List EstEntry) (d : Dev) : Dev :=
  fput F.EST_STATUS_BUSY (!rest.isEmpty)
    { d with est := { d.est with queue := rest, cell := 0, tries := 0, failLane := none } }

/-- The next cell of the queue, or the next position (R174). -/
def cellNext (d : Dev) : Dev :=
  match d.est.queue with
  | [] => d
  | e :: rest =>
    if d.est.cell + 1 < fget (F.ACQ_POS_NCELL e.chain e.pos) d then
      { d with est := { d.est with cell := d.est.cell + 1, tries := 0, failLane := none } }
    else estDrop rest d

/-- Lane `l` is in service. -/
def laneIn (l : Nat) (d : Dev) : Bool := !fbit F.EST_LANE_FENCED l d

/-- The fabric cycle in which lane `l` can begin a run. -/
def laneFree (l : Nat) (d : Dev) : Nat := max d.fcyc (tabGet (fun _ => 0) d.est.laneAt l)

/-- The lane of the next run: for a recompute the next in service after the failing one, lane 0 after lane 7 (R176); else the
lowest-numbered in service that is free, the first to become free when none is (R174; notes/assumptions/71.md). -/
def laneNext (d : Dev) : Option Nat :=
  match d.est.failLane with
  | some k => ((List.range 8).map (fun j => (k + 1 + j) % 8)).find? (laneIn · d)
  | none => (below 8 (laneIn · d)).foldl (fun b l =>
      match b with
      | some k => if laneFree l d < laneFree k d then some l else some k
      | none => some l) none

/-- Lane-cycles used on lane `l`, which is free after them; those that R174 does not state are a free value
(notes/assumptions/2.md). -/
def useCycles (l : Nat) (k : Option Nat) (d : Dev) : Dev :=
  let use (k : Nat) (d : Dev) : Dev :=
    { d with est := { d.est with
        cycles := d.est.cycles + k, laneAt := tabSet (fun _ => 0) d.est.laneAt l (laneFree l d + k) } }
  match k with
  | some k => use k d
  | none =>
    let (n, d) := draw d
    use (Config.freeWord n).toNat d

/-- The cells of a set of positions run in this frame are to be written as cells not updated (R177): none counts as done. -/
def undone (p : Nat → Nat → Bool) (d : Dev) : Dev :=
  { d with est := { d.est with
      done := (List.range 768).foldl (fun k q =>
        if p (q / 48) (q % 48) then (List.range 32).foldl (fun k c => maskPut k (32 * q + c) false) k else k) d.est.done } }

/-- A request consumed for a cell. -/
def reqConsume (i f : Nat) (d : Dev) : Dev :=
  let eat (r : Option InitReq) : Option InitReq :=
    if reqDueFor i f r then r.map (fun r => { r with done := maskPut r.done i true }) else r
  { d with est := { d.est with req := eat d.est.req, reqDue := eat d.est.reqDue } }

/-- The request that serves cell `i` names an agreed frame (R182). -/
def agreedReq (i f : Nat) (d : Dev) : Bool :=
  [d.est.req, d.est.reqDue].any (fun r => reqDueFor i f r && (match r with
    | some r => r.due.isSome
    | none => false))

/-- INIT_DONE (R166): every configured cell of chain `n` has left INVALID. -/
def initDone (n f : Nat) (m : List Host.Cell) (d : Dev) : Dev :=
  let cells := (List.range 1536).map (· + 1536 * n)
  if maskBit d.est.initTold n || cells.any (fun i => cellConfigured i d && (blockLoad m i).state == 3) then d
  else record 0x040E n ((cells.filter (fun i => maskBit d.est.inited i)).length) f
    { d with est := { d.est with initTold := maskPut d.est.initTold n true } }

/-- A cell that is not updated although its position was queued: its STATE and flags are written. -/
def cellIdle (i f : Nat) (m : List Host.Cell) (d : Dev) : List Host.Cell × Dev :=
  (blockStore i (idleBlock f i (blockLoad m i) d) m,
    cellNext { d with est := { d.est with done := maskPut d.est.done i true } })

/-- One run of cell `i` of entry `e` on lane `l`, written back (R160). -/
def cellCommit (l : Nat) (e : EstEntry) (i : Nat) (parity : Bool) (m : List Host.Cell) (d : Dev) : List Host.Cell × Dev :=
  let f := e.frame
  let s := blockLoad m i
  let set := fget (F.EST_STR_CHEM_SET (e.string / 8) (e.string % 8)) d
  let x : CellIn :=
    { frame := f, record := cellRec e.burst (i % 32), entry := e, chem := ⟨m, chemAt set⟩, set, ledger := ledgerOf e.string d
      gate := fget F.EST_CFG_GATE d, thold := fget F.EST_CFG_THOLD d, imin := fget F.EST_ZCFG_IMIN d }
  let r := cellRun x (reinitCause i f s x.ledger parity d) { s with unaligned := isUnaligned e.chain e.pos d }
  let blk := { r.block with
    state := if r.block.state = 2 then idleState f i s d else r.block.state
    recomputed := decide (d.est.tries ≠ 0)
    recomputes := if r.made then min 65535 (r.block.recomputes + d.est.tries) else r.block.recomputes }
  let m := blockStore i blk m
  let stated := (r.cause.isSome && (r.cost == 210 || r.cost == 40)) || (r.cause.isNone && r.made)
  let d := useCycles l (if stated then some r.cost else none) d
  let d := { d with est := { d.est with done := maskPut d.est.done i true } }
  let d := match r.cause, r.made with
    | some c, true =>
      let d := if c ≠ 4 ∨ !agreedReq i f d then
          let old := tabGet (fun _ => 0) d.est.foreign e.chain
          { d with est := { d.est with foreign := tabSet (fun _ => 0) d.est.foreign e.chain (maskPut old e.pos true) } }
        else d
      let d := reqConsume i f d
      let d := { d with est := { d.est with
        inited := maskPut d.est.inited i true, woken := maskPut d.est.woken i false
        retry := tabSet (fun _ => 0) d.est.retry i 0 } }
      if c = 0 then d else record 0x040B i c f d
    | some c, false =>
      if 2 ≤ c then { d with est := { d.est with retry := tabSet (fun _ => 0) d.est.retry i (c + 1) } } else d
    | none, _ => d
  (m, cellNext (initDone e.chain f m d))

/-- A residue error of lane `l` (R176): counted, the lane fenced at LANE_ERR_MAX errors within 1,024 frames, and the bench down
when every lane is. -/
def laneError (l f : Nat) (d : Dev) : Dev :=
  let errs := (l, f) :: d.est.laneErrs.filter (fun e => decide (sdiff32 f e.2 < 1024))
  let d := fsat F.EST_ERR_A_RESIDUE 1 { d with est := { d.est with laneErrs := errs } }
  let n := (errs.filter (fun e => e.1 == l)).length
  if max 1 (fget F.EST_CFG_LANE_ERR_MAX d) ≤ n ∧ !fbit F.EST_LANE_FENCED l d then
    let d := record 0x0403 l n f (fbitPut F.EST_LANE_FENCED l true d)
    if fget F.EST_LANE_FENCED d = 255 then record 0x040D 255 0 f (fput F.EST_STATUS_DOWN true d) else d
  else d

/-- The chemistry set of an entry's string. -/
def entrySet (e : EstEntry) (d : Dev) : Nat := fget (F.EST_STR_CHEM_SET (e.string / 8) (e.string % 8)) d

/-- A parity error in chemistry set `set` (R177): every cell that uses it is held in the frame. -/
def setParity (set off f : Nat) (d : Dev) : Dev :=
  let d := fsat F.EST_ERR_B_PARAM_PAR 1 d
  let uses (n p : Nat) : Bool :=
    let k := fget (F.ACQ_POS_STRING n p) d
    decide (k < 48) && fget (F.EST_STR_CHEM_SET (k / 8) (k % 8)) d == set
  let d := undone uses d
  if fbit F.EST_CHEM_BAD set d then d else record 0x0406 set off f (fbitPut F.EST_CHEM_BAD set true d)

/-- A parity error in the block of cell `i` (R177): recorded, and due for cause 3 until a reinitialisation. -/
def blockParity (i w f : Nat) (d : Dev) : Dev :=
  let old := tabGet (fun _ => 0) d.est.retry i
  record 0x0405 i w f (fsat F.EST_ERR_B_STATE_PAR 1
    { d with est := { d.est with retry := tabSet (fun _ => 0) d.est.retry i (if old = 0 ∨ old = 5 then 4 else old) } })

/-- CELL_UPDATE (R160, R174): lane `l` runs the next cell of the queue, with how the run ends. A lane whose turn it is not takes no
work. -/
def cellUpdate (l : Nat) (r : LaneResult) (m : List Host.Cell) (d : Dev) : List Host.Cell × Dev :=
  match d.est.work, d.est.queue with
  | some f, e :: rest =>
    if laneNext d ≠ some l then (m, d)
    else
      let i := cellIndex e.chain e.pos d.est.cell
      let set := entrySet e d
      if fget (F.ACQ_POS_NCELL e.chain e.pos) d ≤ d.est.cell then (m, cellNext d)
      else match r with
        | .residue =>
          let d := useCycles l none d
          let tries := d.est.tries + 1
          if fget F.EST_CFG_RETRY d < tries then
            let d := record 0x0402 i tries f (fsat F.EST_ERR_A_RECOMP_FAIL 1 (laneError l f d))
            cellIdle i f m d
          else
            (m, record 0x0401 i l f (laneError l f { d with est := { d.est with tries, failLane := some l } }))
        | .ucodePar addr =>
          let d := record 0x0409 addr 0 f (fsat F.EST_ERR_B_UCODE_PAR 1 d)
          let d := { d with est := { d.est with ucodeFrames := 0 } }
          estSkip f m (estRunning (fput F.EST_STATUS_UCODE_RELOAD true d))
        | .fifoPar =>
          let d := record 0x0408 e.chain e.pos f (fsat F.EST_ERR_B_FIFO_PAR 1 d)
          (m, estDrop rest (undone (fun n p => n == e.chain && p == e.pos) d))
        | .paramPar off => cellIdle i f m (useCycles l none (setParity set off f d))
        | .ok | .statePar _ =>
          let (parity, d) := match r with
            | .statePar w => (true, blockParity i w f d)
            | _ => (false, d)
          if cellAbsent (cellRec e.burst (i % 32)) || fbit F.EST_CHEM_BAD set d then cellIdle i f m (useCycles l none d)
          else cellCommit l e i parity m d
  | _, _ => (m, d)

def execCellUpdate (l : Fin 8) (r : LaneResult) (s : State) : Host.Outcome State Fault Refusal :=
  onBlkBoth 5 (cellUpdate l.val r) s

/-! ### Control (R176, R177, R187, R189) -/

/-- UCODE_RELOADED (R177): TL0 has reloaded the microcode at `version` and restarts the bench. -/
def ucodeReloaded (version : Nat) (d : Dev) : Dev :=
  if !flag F.EST_STATUS_UCODE_RELOAD d then d
  else
    let d := fset F.EST_UCODE_VERSION version (estRunning (fput F.EST_STATUS_UCODE_RELOAD false d))
    record 0x040A d.est.ucodeFrames version (frameNow d) { d with est := { d.est with ucodeFrames := 0 } }

def execUcodeReloaded (version : BitVec 16) (s : State) : Host.Outcome State Fault Refusal :=
  onBlk 5 (ucodeReloaded version.toNat) s

/-- EST_CELL_INIT with GO = 1 (R189). -/
def cellInit (cell : Nat) (all atFrame : Bool) (d : Dev) : Dev :=
  if !all && decide (24576 ≤ cell) then d
  else
    let f := d.est.work
    let due := match d.est.req, f with
      | some r, some f => (match r.due with
        | none => true
        | some g => decide (0 ≤ sdiff32 f g))
      | _, _ => false
    let r : InitReq := { all, cell, due := if atFrame then some (fget F.EST_INIT_FRAME_FRAME d) else none }
    { d with est := { d.est with req := some r, reqDue := if due then d.est.req else d.est.reqDue } }

def execEstCellInit (cell : BitVec 15) (all atFrame : Bool) (s : State) : Host.Outcome State Fault Refusal :=
  onBlk 5 (cellInit cell.toNat all atFrame) s

/-- EST_CTRL_EN (R187): EN = 1 lets the bench process frames; on 0 no further update starts and later frames are skipped. -/
def estEnable (on : Bool) (d : Dev) : Dev :=
  let d := estRunning (fput F.EST_CTRL_EN on d)
  if on then d else fput F.EST_STATUS_BUSY false { d with est := { d.est with queue := [], cell := 0, tries := 0, failLane := none } }

def execEstCtrlEn (on : Bool) (s : State) : Host.Outcome State Fault Refusal := onBlk 5 (estEnable on) s

/-- EST_CLR_CNT (R187). -/
def estClrCnt (d : Dev) : Dev := regPut R.EST_ERR_B 0 (regPut R.EST_ERR_A 0 d)

def execEstClrCnt (s : State) : Host.Outcome State Fault Refusal := onBlk 5 estClrCnt s

/-- LANE_RESTORE (R176): the self-test of fenced lanes starts. -/
def laneRestore (mask : Nat) (d : Dev) : Dev :=
  { d with est := { d.est with testing := d.est.testing ||| (mask &&& fget F.EST_LANE_FENCED d) } }

def execLaneRestore (mask : Byte) (s : State) : Host.Outcome State Fault Refusal := onBlk 5 (laneRestore mask.toNat) s

/-- LANE_RESTORED (R176): the self-test of lane `l` ends. -/
def laneRestored (l : Nat) (pass : Bool) (d : Dev) : Dev :=
  if !maskBit d.est.testing l then d
  else
    let d := fbitPut F.EST_LANE_ST_FAIL l (!pass) { d with est := { d.est with testing := maskPut d.est.testing l false } }
    if pass then
      record 0x0404 l 0 (frameNow d) (fput F.EST_STATUS_DOWN false (fbitPut F.EST_LANE_FENCED l false d))
    else d

def execLaneRestored (l : Fin 8) (pass : Bool) (s : State) : Host.Outcome State Fault Refusal :=
  onBlk 5 (laneRestored l.val pass) s

end Sys2Proof.Machine
end

