-- ==== Sys2Proof/Machine/Kazilo.lean ====
section
/-!
DEFINITION. Machine/Kazilo.lean: the chain link (03): ports, bursts, alerts, retransmission, chain states, breaks and healing.
-/

namespace Sys2Proof.Machine

/-! ### Ports and states (R91, R115) -/

/-- The ports of every chain that this member owns (R24, R28, R115). -/
def ownedPorts (d : Dev) : List Port :=
  match d.pair.role with
  | 0 => [.a, .b]
  | 3 => [.a]
  | 4 => [.b]
  | _ => if d.pair.slotB then [.b] else [.a]

/-- The ports through which the device masters chain `n`. -/
def masterPorts (n : Nat) (d : Dev) : List Port :=
  match chState3 n d with
  | 2 | 8 => ownedPorts d
  | 3 | 5 => [.a]
  | 4 => [.a, .b]
  | 7 => [.b]
  | _ => []

/-- Position `p` is reached from the A end, as LAST_A shows; 0x3F shows that none is. -/
def reachedA (n p : Nat) (d : Dev) : Bool :=
  let last := fget (F.KZC_CH_STAT_LAST_A n) d
  last != 0x3F && decide (p ≤ last)

/-- This member masters the segment that holds the position (R391). -/
def mastersPos (n p : Nat) (d : Dev) : Bool :=
  match chState3 n d with
  | 3 => (ownedPorts d).contains .a
  | 4 => reachedA n p d || decide (fget (F.KZC_CH_STAT_FIRST_B n) d ≤ p)
  | 5 => reachedA n p d
  | 7 => decide (fget (F.KZC_CH_STAT_FIRST_B n) d ≤ p)
  | _ => false

/-- The chain state to enter at the next SYNC trigger (R115). -/
def chNext (n st : Nat) (d : Dev) : Dev := chainPut n { chainOf n d with next := some st } d

/-- The lock bit of a port. -/
def lockBit (n : Nat) (p : Port) : Fld :=
  match p with
  | .a => F.KZC_CH_STAT_LOCK_A n
  | .b => F.KZC_CH_STAT_LOCK_B n

/-- A port whose chain is not enabled ignores its receiver (R91). -/
def onPort (n : Nat) (f : Dev → Dev) (d : Dev) : Dev := if fbit F.KZC_CTRL_CH_EN n d then f d else d

/-- A member that holds no role keeps its chains in LINKUP (R115). -/
def holdsRole (d : Dev) : Bool := d.pair.role == 0 || 3 ≤ d.pair.role

/-- LINKUP is left once an owned port is locked and a role is held: to LISTEN for a secondary, else to ENUM. -/
def linkupMove (n : Nat) (d : Dev) : Dev :=
  if chState3 n d == 1 && holdsRole d && (ownedPorts d).any (fun p => flag (lockBit n p) d) then
    chNext n (if d.pair.role = 4 then 6 else 2) d
  else d

/-- A receiver discards data code groups until the next SOF (R109). -/
def discardPut (n : Nat) (p : Port) (b : Bool) (d : Dev) : Dev :=
  match p with
  | .a => chainPut n { chainOf n d with discardA := b } d
  | .b => chainPut n { chainOf n d with discardB := b } d

/-- The receiver discards: it has lost lock, or a frame was truncated, and no SOF has come since. -/
def discards (n : Nat) (p : Port) (d : Dev) : Bool :=
  match p with
  | .a => (chainOf n d).discardA
  | .b => (chainOf n d).discardB

/-- A master frame has reached a listener's B port: a takeover that awaits the trigger is off (R29). -/
def masterSeen (n : Nat) (d : Dev) : Dev :=
  let c := chainOf n d
  if chState3 n d = 6 ∧ c.next = some 7 then chainPut n { c with next := none, takeoverDue := false } d else d

/-! ### Breaks and healing (R117, R120) -/

/-- CHAIN_BREAK once both ends are known, or as far as they are when `final`. -/
def breakTell (n : Nat) (final : Bool) (d : Dev) : Dev :=
  let x := chainOf n d
  if x.breakTold || !(final || (x.breakLast.isSome && x.breakFirst.isSome)) then d
  else
    let last := x.breakLast.getD 0x3F
    let first := x.breakFirst.getD 0x3F
    let d := chainPut n { x with breakTold := true } d
    record 0x0302 n last first (fset (F.KZC_CH_STAT_FIRST_B n) first (fset (F.KZC_CH_STAT_LAST_A n) last d))

/-- A chain in RING is broken (R117), with what is known of its two ends. -/
def chainBreak (n : Nat) (last first : Option Nat) (d : Dev) : Dev :=
  let x := chainOf n d
  if chState3 n d = 3 ∧ x.broken = none then
    let d := chainPut n { x with broken := some (cycleNow d), breakLast := last, breakFirst := first, breakTold := false,
                                 derivedTold := 0, healRun := 0, syncMiss := 0,
                                 next := some (if d.pair.role = 0 then 4 else 5) } d
    breakTell n false d
  else if x.broken.isSome && !x.breakTold then
    breakTell n false (chainPut n { x with breakLast := x.breakLast.or last, breakFirst := x.breakFirst.or first } d)
  else d

/-- CHAIN_HEAL (R120): after HEAL consecutive intact cycles or frames the chain returns to RING. -/
def chainHeal (n : Nat) (d : Dev) : Dev :=
  let x := chainOf n d
  if (chState3 n d == 4 || chState3 n d == 5) && decide (fget F.KZC_HEAL_HEAL d ≤ x.healRun) && x.next.isNone then
    let cycles := (cycleNow d + 2 ^ 32 - x.broken.getD (cycleNow d)) % 2 ^ 32
    record 0x0303 n cycles 0 (chainPut n { x with next := some 3, broken := none, breakTold := true, healRun := 0 } d)
  else d

def execChainHeal (n : Fin 16) (s : State) : Host.Outcome State Fault Refusal := onBlk 4 (chainHeal n.val) s

/-- RECEIVER_LOCK (R94): a receiver that has lost lock discards what comes before the next SOF, and counts it (R109). -/
def receiverLock (n : Nat) (r : Relock) (d : Dev) : Dev :=
  let d := if discards n r.port d then fsat (F.KZC_CH_ERR_TRUNC_ORPHAN n) r.orphans d else d
  linkupMove n (fput (lockBit n r.port) true d)

def execReceiverLock (n : Fin 16) (r : Relock) (s : State) : Host.Outcome State Fault Refusal :=
  onBlk 4 (onPort n.val (receiverLock n.val r)) s

/-- RECEIVER_LOCK_LOSS (R94, R117). -/
def receiverLockLoss (n : Nat) (p : Port) (d : Dev) : Dev :=
  let d := discardPut n p true (fput (lockBit n p) false d)
  if (ownedPorts d).contains p then chainBreak n none none d else d

def execReceiverLockLoss (n : Fin 16) (p : Port) (s : State) : Host.Outcome State Fault Refusal :=
  onBlk 4 (onPort n.val (receiverLockLoss n.val p)) s

/-- FRAME_TRUNCATED (R108, R109). -/
def frameTruncated (n : Nat) (p : Port) (t : TruncInfo) (d : Dev) : Dev :=
  let d := fsat (F.KZC_CH_ERR_TRUNC_ORPHAN n) t.orphans (fsat (F.KZC_CH_ERR_TRUNC_TRUNC n) 1 (discardPut n p true d))
  if t.isData then recordC 0x0307 (n + (if p = .b then 256 else 0)) (t.pos.getD 0x3F) d else d

def execFrameTruncated (n : Fin 16) (p : Port) (t : TruncInfo) (s : State) : Host.Outcome State Fault Refusal :=
  onBlk 4 (onPort n.val (frameTruncated n.val p t)) s

/-- CHAIN_FAILED (R116): no burst accepted for FAIL consecutive frames. -/
def chainFailed (n : Nat) (d : Dev) : Dev :=
  if (chainOf n d).idle < fget F.KZC_HEAL_FAIL d then d
  else match chState3 n d with
  | 3 | 4 | 5 | 7 => if (chainOf n d).next = some 8 then d else record 0x030B n (cycleNow d) 0 (chNext n 8 d)
  | _ => d

def execChainFailed (n : Fin 16) (s : State) : Host.Outcome State Fault Refusal := onBlk 4 (chainFailed n.val) s

/-- MASTERSHIP_TAKEOVER (R29): two frame periods without a master frame at the B port. -/
def takeover (n : Nat) (d : Dev) : Dev :=
  if chState3 n d = 6 then chainPut n { chainOf n d with next := some 7, takeoverDue := true } d else d

def execMastershipTakeover (n : Fin 16) (s : State) : Host.Outcome State Fault Refusal := onBlk 4 (takeover n.val) s

/-- PER_FRAME_PEER_MESSAGE (R117, R120, R124): which SYNCs and ENUMs of the primary reached the B ends. -/
def peerChains (syncs enums : Nat) (d : Dev) : Dev :=
  if d.pair.role ≠ 3 then d
  else each (chainsOn d) (fun n d =>
    let x := chainOf n d
    let got := maskBit syncs n
    let d := if maskBit enums n then
        chainPut n { x with run := x.run.map (fun r => { r with returned := true }) } d else d
    let x := chainOf n d
    match chState3 n d with
    | 3 =>
      let d := chainPut n { x with syncMiss := if got then 0 else x.syncMiss + 1 } d
      if !got && decide (1 ≤ x.syncMiss) then chainBreak n none none d else d
    | 5 => chainPut n { x with healRun := if got then x.healRun + 1 else 0 } d
    | _ => d) d

def execPerFramePeerMessage (syncs enums : BitVec 16) (s : State) : Host.Outcome State Fault Refusal :=
  onBlk 4 (heardThen (peerChains syncs.toNat enums.toNat)) s

/-- DELAY_TABLE_TRANSFER (R140): the primary's A delays of chain `n`, by position, none where it has no valid A entry. -/
def delayTransfer (n : Nat) (dly : List (Option (BitVec 16))) (d : Dev) : Dev :=
  if d.pair.role ≠ 4 then d
  else
    let t := ((List.range 48).zip dly).foldl (fun t e => tabSet (fun _ => 0) t e.1 (match e.2 with
      | some v => v.toNat + 1
      | none => 0)) ([] : Tab Nat)
    chainPut n { chainOf n d with dlyPrimary := t } d

def execDelayTableTransfer (n : Fin 16) (dly : List (Option (BitVec 16))) (s : State) : Host.Outcome State Fault Refusal :=
  onBlk 4 (heardThen (delayTransfer n.val dly)) s

/-- CH_CLR_CNT (R133). -/
def chClrCnt (n : Nat) (d : Dev) : Dev :=
  each [R.KZC_CH_ERR_CRC n, R.KZC_CH_ERR_TRUNC n, R.KZC_CH_ERR_LATE n, R.KZC_CH_ERR_MISC n, R.KZC_CH_ALERT n]
    (fun r => regPut r 0) d

def execChClrCnt (n : Fin 16) (s : State) : Host.Outcome State Fault Refusal := onBlk 4 (chClrCnt n.val) s

/-! ### Bursts (R101, R107, R126) -/

/-- The position's burst is one of those collected at port A or B. -/
def gotPut (n : Nat) (port : Port) (p : Nat) (d : Dev) : Dev :=
  let x := chainOf n d
  match port with
  | .a => chainPut n { x with gotA := maskPut x.gotA p true } d
  | .b => chainPut n { x with gotB := maskPut x.gotB p true } d

/-- The excitation of a string at the acceptance of its head's burst before the close (R147). -/
def strEvaluate (n p : Nat) (bs : List Byte) (d : Dev) : Dev :=
  let k := fget (F.ACQ_POS_STRING n p) d
  if flag (F.ACQ_POS_HEAD n p) d && headValid bs && seqState k d == 4 then
    let r := currentRec bs
    let thr : Int := fget F.ACQ_EXC_THR_THR d
    let low (re im : Nat) : Bool := decide (toSigned 16 re * toSigned 16 re + toSigned 16 im * toSigned 16 im < thr * thr)
    let measQ := r.testBit 92 && decide (((chainOf n d).ordPrev.getD (0, 0)).2 ≠ 0)
    strPut k { strOf k d with evalFrame := some (burstFrame bs), measQ
                              unexcP := low (bitsOf r 24 16) (bitsOf r 40 16)
                              unexcQ := measQ && low (bitsOf r 56 16) (bitsOf r 72 16) } d
  else d

/-- CHAIN_TAKEOVER recorded with the highest and lowest position reached from B, which FIRST_B then shows. -/
def takeoverRecord (n hi lo : Nat) (d : Dev) : Dev :=
  record 0x0A46 n hi lo (fset (F.KZC_CH_STAT_FIRST_B n) lo (chainPut n { chainOf n d with takeoverDue := false } d))

/-- CHAIN_TAKEOVER (R37, R115): the positions reached from B, when the highest expected one has arrived. -/
def takeoverTell (n p : Nat) (d : Dev) : Dev :=
  let x := chainOf n d
  let expected := (positionsOf n d).filter (fun q => !excluded n q d)
  if x.takeoverDue && chState3 n d == 7 && expected.getLast? == some p then
    let reached := below 48 (fun q => maskBit x.gotB q)
    takeoverRecord n p (reached.head?.getD p) d
  else d

/-- The present timestamp lies in the tick in which the close of frame `f` falls, or later (R143). -/
def pastClose (f : Nat) (d : Dev) : Bool :=
  d.acq.closed == some f
    || decide ((65536 + d.ang.win.acqEnd : Nat) ≤ sdiff32 (cycleNow d) f * 65536 + (countNow d : Nat))

/-- A burst accepted (R107): stamped, kept as the position's latest record, and handed to acquisition and protection. -/
def burstAccept (n : Nat) (port : Port) (p : Nat) (bs : List Byte) (d : Dev) : Dev :=
  let f := burstFrame bs
  let late := pastClose f d
  let x := posOf n p d
  let d := posPut n p { x with burst := bs, frame := some f, crc := some (crc32c bs), port, eof := tsNow d, silent := 0,
                               entered := if late then x.entered else some f } d
  let d := if late then fsat (F.ACQ_CH_TAIL_AFTER n) 1 d
    else estBurst n p f (strEvaluate n p bs
      { d with acq := { d.acq with lastEof := tabSet (fun _ => 0) d.acq.lastEof n (countNow d) } })
  let d := if chState3 n d = 8 then chNext n 1 d else d
  let d := if (burstStatus bs).testBit 2 || (burstStatus bs).testBit 3 then chainBreak n none none d else d
  protBurst n p bs (takeoverTell n p d)

/-- The header and body of a burst, from the bytes between SOF and EOF: its CRC-32C holds (R96), its TYPE is DATA or DATA_RETX, and its
length is that of its HEAD bit (R97, R101). -/
def burstBody (bs : List Byte) : Option (List Byte) :=
  let body := bs.take (bs.length - 4)
  if field bs (bs.length - 4) 4 = crc32c body ∧ (field bs 0 1 = 0x10 ∨ field bs 0 1 = 0x11)
      ∧ body.length = (if (field bs 1 1).testBit 4 then 556 else 540) then some body
  else none

/-- A frame counted as a CRC failure of its port and discarded (R97, R123). -/
def crcFail (n : Nat) (port : Port) (d : Dev) : Dev :=
  fsat (match port with
    | .a => F.KZC_CH_ERR_CRC_CRC_A n
    | .b => F.KZC_CH_ERR_CRC_CRC_B n) 1 d

/-- A burst whose CRC holds (R107), by its header and body. -/
def burstCommit (n : Nat) (port : Port) (bs : List Byte) (parity : Bool) (d : Dev) : Dev :=
  let p := field bs 2 1
  let x := posOf n p d
  if chState3 n d ≤ 1 then d
  else if field bs 1 1 % 16 ≠ fget (F.KZC_CH_STAT_VER n) d then crcFail n port d
  else if 48 ≤ p then d
  else if excluded n p d || x.awaits || x.rejoins then posPut n p { x with silent := 0 } d
  else if parity then record 0x0A10 n p (cycleNow d) (fsat F.BRG_CNT_PAR_RXBUF 1 d)
  else if (burstStatus bs).testBit 6 then recordC 0x030C n p (posPut n p { x with awaits := true } d)
  else if d.kzc.collect ≠ some (burstFrame bs) then
    record 0x0308 n p (burstFrame bs) (fsat (F.KZC_CH_ERR_LATE_LATE n) 1 d)
  else
    let d := gotPut n port p d
    let d := if (chainOf n d).retxOut = some p then chainPut n { chainOf n d with retxOut := none } d else d
    match x.crc with
    | some c =>
      -- the later copy is the one from the other port
      if x.port = port then d
      else
        let d := chainPut n { chainOf n d with copies := (chainOf n d).copies + 1 } d
        if c = crc32c bs then d
        else record 0x0309 n p (burstFrame bs) (fsat (F.KZC_CH_ERR_MISC_DUP n) 1 d)
    | none => burstAccept n port p bs d

/-- DATA_BURST and DATA_RETX: `bs` is what came between SOF and EOF, `parity` a parity error of the receiver buffer (R405). -/
def dataBurst (n : Nat) (port : Port) (bs : List Byte) (parity : Bool) (d : Dev) : Dev :=
  let d := discardPut n port false d
  match burstBody bs with
  | none => crcFail n port d
  | some body => burstCommit n port body parity d

def execDataBurst (n : Fin 16) (port : Port) (bs : List Byte) (parity : Bool) (s : State) :
    Host.Outcome State Fault Refusal := onBlk 4 (onPort n.val (dataBurst n.val port bs parity)) s

/-- DATA_RETX (R110): accepted under the rules of a burst. -/
def execDataRetx (n : Fin 16) (port : Port) (bs : List Byte) (s : State) : Host.Outcome State Fault Refusal :=
  onBlk 4 (onPort n.val (dataBurst n.val port bs false)) s

/-! ### Retransmission (R110) -/

/-- The last configured slot of the frame has ended at the owned ports (R110): every configured, not excluded position has an
accepted burst, or the time in which all of them fit has passed since the SYNC left. -/
def slotsEnded (n : Nat) (d : Dev) : Bool :=
  let count := fget (F.KZC_CH_CTRL_COUNT n) d
  (positionsOf n d).all (fun p => !mastersPos n p d || excluded n p d || (posOf n p d).crc.isSome)
    || decide (320 * (40 + count * fget F.KZC_SLOT_LEN d) + 3060 * count ≤ (d.clk - (chainOf n d).syncAt) * 10)

/-- The position and frame of the RETX that is due: the lowest missing position not yet tried, when its retransmission can end before
ACQ_END − GUARD. R110 gives no estimate of that end: the model takes 192 µs and 3.06 µs for each position of COUNT at the present
ANG_INC. DESIGN CHOICE (notes/assumptions/64.md). A position that awaits renumbering after SAT_RESET is left out: R110 does not say whether
it is requested. DESIGN CHOICE (notes/assumptions/65.md). -/
def retxNext (n : Nat) (d : Dev) : Option (Nat × Nat) :=
  let x := chainOf n d
  let missing := (positionsOf n d).filter (fun p =>
    mastersPos n p d && !excluded n p d && !(posOf n p d).awaits && (posOf n p d).crc.isNone && !maskBit x.retxTried p)
  let ns := 192000 + 3060 * fget (F.KZC_CH_CTRL_COUNT n) d
  let ends := countNow d + ns * fget F.ANG_INC_INC d / (2 ^ 32 * 10)
  match missing, d.kzc.collect with
  | p :: _, some f =>
    if fget (F.KZC_CH_STAT_VER n) d == 2 && decide (x.retxSent < fget F.KZC_RETX_MAX d) && x.retxOut.isNone
        && slotsEnded n d
        && decide (ends < d.ang.win.acqEnd - fget F.KZC_RETX_GUARD d) then some (p, f)
    else none
  | _, _ => none

/-- RETX_SEND. -/
def retxSend (n : Nat) (d : Dev) : Dev :=
  let x := chainOf n d
  match retxNext n d with
  | some (p, f) =>
    let d := chainPut n { x with retxSent := x.retxSent + 1, retxOut := some p, retxTried := maskPut x.retxTried p true } d
    send (.retx n (if fromBEnd n p d then .b else .a) p f) (fsat (F.KZC_CH_ERR_LATE_RETX n) 1 d)
  | none => d

def execRetxSend (n : Fin 16) (s : State) : Host.Outcome State Fault Refusal := onBlk 4 (retxSend n.val) s

/-- RETX_TIMEOUT: the next may go. -/
def execRetxTimeout (n : Fin 16) (s : State) : Host.Outcome State Fault Refusal :=
  onBlk 4 (fun d => chainPut n.val { chainOf n.val d with retxOut := none } d) s

/-! ### Alerts (R111, R112, R132) -/

/-- KZC_INT_STAT.ALERT. R131 makes it W1C and gives its meaning as 'Alert FIFO not empty': the model makes it a level, which falls by
itself with the FIFO's last entry and which a write of 1 does not clear while an entry stands. DESIGN CHOICE
(notes/assumptions/66.md). -/
def alertLevel (d : Dev) : Dev := if d.kzc.fifo.isEmpty then fput F.KZC_INT_STAT_ALERT false d
  else fput F.KZC_INT_STAT_ALERT true d

/-- The word of an entry of the alert FIFO (R132). -/
def alertWord (n : Nat) (port : Port) (p c a : Nat) (ovf : Bool) : Nat :=
  p % 256 + c * 2 ^ 8 + a * 2 ^ 16 + n * 2 ^ 24 + (if port = .b then 2 ^ 28 else 0) + b2n ovf * 2 ^ 30 + 2 ^ 31

/-- An alert enters the FIFO, or is lost to a full one. -/
def alertPush (n : Nat) (port : Port) (p c a : Nat) (d : Dev) : Dev :=
  if 64 ≤ d.kzc.fifo.length then
    let d := { d with kzc := { d.kzc with lost := d.kzc.lost + 1 } }
    record 0x030D n d.kzc.lost (cycleNow d) d
  else
    let e : AlertEntry := { word := alertWord n port p c a (decide (0 < d.kzc.lost)), ts := tsNow d }
    alertLevel { d with kzc := { d.kzc with fifo := d.kzc.fifo ++ [e], lost := 0 } }

/-- ALERT: position and severity `p`, code `c` and argument `a` of an alert whose complements match. -/
def alert (n : Nat) (port : Port) (p c a : Nat) (d : Dev) : Dev :=
  if chState3 n d = 0 ∨ fget (F.KZC_CH_STAT_VER n) d ≠ 2 then d
  else
    let dup := d.kzc.recent.any (fun e => e.chain == n && e.port != port && e.p == p && e.c == c && e.a == a
      && decide (d.clk - e.clk ≤ fget F.KZC_ALERT_CFG_DEDUP d * tickUs))
    if dup then fsat (F.KZC_CH_ALERT_DEDUP n) 1 d
    else
      let old := d.kzc.recent.filter (fun e => decide (d.clk - e.clk ≤ fget F.KZC_ALERT_CFG_DEDUP d * tickUs))
      let d := { d with kzc := { d.kzc with recent := { chain := n, port, p, c, a, clk := d.clk } :: old } }
      let pos := p % 64
      let d := if c = 0x07 then
          chainBreak n (if a = 1 then some pos else none) (if a = 0 then some pos else none) d else d
      protAlert n pos c a (p / 64) (alertPush n port p c a d)

def execAlert (n : Fin 16) (port : Port) (p c a : Byte) (s : State) : Host.Outcome State Fault Refusal :=
  onBlk 4 (onPort n.val (alert n.val port p.toNat c.toNat a.toNat)) s

/-- KZC_ALERT_FIFO_READ: one entry popped for trestle `t`, its timestamp latched; 0 from an empty FIFO. -/
def alertRead (t : Nat) (d : Dev) : Dev :=
  match d.kzc.fifo with
  | [] => send (.readData t R.KZC_ALERT_FIFO 0) d
  | e :: rest =>
    let latch := tabSet (fun _ => 0) d.kzc.latch t (e.ts + 1)
    send (.readData t R.KZC_ALERT_FIFO e.word) (alertLevel { d with kzc := { d.kzc with fifo := rest, latch } })

def execKzcAlertFifoRead (t : Fin 5) (s : State) : Host.Outcome State Fault Refusal := onBlk 4 (alertRead t.val) s

/-! ### SYNC received (R119, R138) -/

/-- The scan-table step that chain `n` carries in cycle `c` (R137): its number and orders; no second order at version 1. -/
def scanStep (n c : Nat) (d : Dev) : Nat × Nat × Nat :=
  let s := c % 2 ^ fget (F.ACQ_SCAN_CTRL_STEPS n) d
  (s, fget (F.ACQ_SCAN_STEP_ORD_P n s) d,
    if fget (F.KZC_CH_STAT_VER n) d = 1 then 0 else fget (F.ACQ_SCAN_STEP_ORD_Q n s) d)

/-- A listener takes the order and the increment of a SYNC, for its cycle: the one that the last own trigger began, the one before it, or
one still to begin; an order that is not its own is recorded. -/
def listenOrder (n : Nat) (b : SyncBody) (d : Dev) : Dev :=
  let (s, p, q) := scanStep n b.cycle d
  let c := chainOf n d
  let d := fset (F.ACQ_SCAN_CTRL_STEP n) s d
  let d := if d.kzc.collect = some b.cycle then chainPut n { c with ordPrev := some (b.ordP, b.ordQ), incPrev := b.inc } d
    else if d.kzc.collect = some ((b.cycle + 2 ^ 32 - 1) % 2 ^ 32) then
      chainPut n { c with ordNow := some (b.ordP, b.ordQ), incNow := b.inc } d
    else chainPut n { c with ordRecv := some (b.cycle, b.ordP, b.ordQ, b.inc) } d
  let d := each (positionsOf n d) (fun p d =>
    if flag (F.ACQ_POS_HEAD n p) d then
      let k := fget (F.ACQ_POS_STRING n p) d
      ledgerPut k ((ledgerOf k d).map (fun e => if e.frame = b.cycle then { e with inc := b.inc } else e)) d
    else d) d
  if p = b.ordP ∧ q = b.ordQ then d else record 0x0326 n (b.ordP + b.ordQ * 256) (p + q * 256) d

/-- SYNC_RECEIVED: a SYNC at a B port, or one from B at an A port; `travel` is its travel time, ns. CH_RT holds 16 bits of ns and R133 says
nothing of a longer time: the model saturates it at 65,535. DESIGN CHOICE (notes/assumptions/67.md). -/
def syncReceived (n : Nat) (port : Port) (b : SyncBody) (travel : Nat) (d : Dev) : Dev :=
  let x := chainOf n d
  match port with
  | .a => if b.fromB then chainPut n { x with retB := true } d else d
  | .b =>
    if b.fromB then d else
    let d := fset (F.KZC_CH_RT_RT n) (min travel 65535) (fput (F.KZC_CH_STAT_SYNC_RET n) true
      (chainPut n { x with retA := true, rtLast := min travel 65535 } d))
    match chState3 n d with
    | 7 => chNext n 6 d
    | 6 => listenOrder n b (masterSeen n d)
    | _ => d

def execSyncReceived (n : Fin 16) (port : Port) (b : SyncBody) (travel : Nat) (s : State) :
    Host.Outcome State Fault Refusal := onBlk 4 (onPort n.val (syncReceived n.val port b travel)) s

end Sys2Proof.Machine
end

