-- ==== Sys2Proof/Machine/Bridge.lean ====
section
/-!
DEFINITION. Machine/Bridge.lean: the Kazilo bridge (R389 to R395) and the service transactions of a chain (R105, R106).
-/

namespace Sys2Proof.Machine

/-! ### Addresses (R389, R390) -/

def kzChain (a : Nat) : Nat := bitsOf a 24 4
def kzPos (a : Nat) : Nat := bitsOf a 18 6
def kzWord (a : Nat) : Nat := bitsOf a 1 17

/-- The bridge queue of chain `n`. -/
def kzQueue (n : Nat) (d : Dev) : List KzAcc := tabGet (fun _ => []) d.brg.kz n

def kzQueuePut (n : Nat) (q : List KzAcc) (d : Dev) : Dev :=
  fbitPut F.BRG_STATUS_BUSY n (!q.isEmpty) { d with brg := { d.brg with kz := tabSet (fun _ => []) d.brg.kz n q } }

/-- What an access has read so far is not for the prefetch buffer. -/
def pfStale (x : KzAcc) : KzAcc := { x with stale := x.got.length }

/-- The prefetch buffers emptied, by a SYNC trigger or a write to a window (R394), and those under way begun afresh. -/
def pfEmpty (d : Dev) : Dev :=
  { d with brg := { d.brg with pf := [], kz := d.brg.kz.map (fun e => (e.1, e.2.map pfStale))
                               peerOut := d.brg.peerOut.map (fun x => { x with stale := true }) } }

/-- The words of position `p` leave the prefetch buffer of chain `n`: a bridge write goes there (R394). -/
def pfWritten (n p : Nat) (d : Dev) : Dev :=
  let b := d.brg
  let pf := if kzPos (tabGet (fun _ => (0, ([] : List Nat))) b.pf n).1 == p then tabDel b.pf n else b.pf
  let q := (kzQueue n d).map (fun x => if kzPos x.addr == p then pfStale x else x)
  { d with brg := { b with pf, kz := tabSet (fun _ => []) b.kz n q } }

/-- The read mode of an access to a bridge window (R394): target 0 Kazilo, 1 peer. -/
def readMode (target a : Nat) (d : Dev) : Nat :=
  let blk := bitsOf a 12 16
  let m := match (List.range 8).find? (fun n => flag (F.WIN_CFG_EN n) d && fget (F.WIN_CFG_TARGET n) d == target
      && decide (fget (F.WIN_BASE_BASE n) d ≤ blk ∧ blk ≤ fget (F.WIN_LIMIT_LIMIT n) d)) with
    | some n => fget (F.WIN_CFG_MODE n) d
    | none => fget F.BRG_CTRL_DEF_MODE d
  if m = 3 then 1 else m

/-! ### Outcomes -/

/-- What a bridge access answers: data, or a bus error cause, detail and address (R398). -/
inductive BusResult where
  | data (v : Nat)
  | error (cause detail addr : Nat)
deriving DecidableEq, Repr

/-- The load of trestle `t` that waits for an access, given its result; an abandoned one leaves it held (R394). -/
def loadResult (t addr size attr : Nat) (r : BusResult) (held : Bool) (d : Dev) : Dev :=
  let tr := tabGet (fun _ => ({} : Trestle)) d.trestles t
  let (dat, err) := match r with
    | .data v => (some v, none)
    | .error c x a => (none, some (c, x, a))
  match tr.load with
  | some l =>
    if l.addr = addr ∧ l.op.size = size ∧ l.attr = attr ∧ l.data = none ∧ l.error = none then
      { d with trestles := tabSet (fun _ => {}) d.trestles t { tr with load := some { l with data := dat, error := err } } }
    else if held then
      { d with brg := { d.brg with held := d.brg.held ++ [⟨t, attr, addr, size, dat, err, d.clk⟩] } }
    else d
  | none =>
    if held then { d with brg := { d.brg with held := d.brg.held ++ [⟨t, attr, addr, size, dat, err, d.clk⟩] } }
    else match tr.latch with
      -- rolled back since: the load latch takes the answer (R270)
      | some k =>
        if k.addr = addr ∧ k.data = none ∧ k.error = none then
          { d with trestles := tabSet (fun _ => {}) d.trestles t { tr with latch := some { k with data := dat, error := err } } }
        else d
      | none => d

/-- The outcome of an access handed to the one who made it. `src`: 0 Kazilo bridge, 1 peer bridge. -/
def busDeliver (o : Origin) (write : Bool) (addr size attr mode src : Nat) (r : BusResult) (d : Dev) : Dev :=
  match o with
  | .load t => loadResult t addr size attr r (decide (mode ≠ 0)) d
  | .store t =>
    match r with
    | .error c x a => beCapture t { addr := a, attr, cause := c, src, detail := x } d
    | .data _ => d
  | .peer =>
    { d with brg := { d.brg with peerIn := match d.brg.peerIn with
        | [] => []
        | h :: rest => { h with result := some (match r with
            | .data v => (some v, 0)
            | .error c _ _ => (none, c)) } :: rest } }
  | .debug => send (.debugData 0 (match r with
      | .data v => some (BitVec.ofNat 64 v)
      | .error _ _ _ => none)) d
  | .service _ | .update _ =>
    let res : SvcResult := match r with
      | .data v => { origin := o, data := [v], error := none }
      | .error c x _ => { origin := o, data := [], error := some (c, x) }
    { d with brg := { d.brg with results := d.brg.results ++ [res] } }
  | .engine | .prefetch => d

/-! ### The queue (R392, R394) -/

/-- The words of an access as one little-endian number, and the byte that a 1-byte read addresses. -/
def kzData (x : KzAcc) : Nat :=
  let v := (x.got.take x.need).foldr (fun w n => w + 65536 * n) 0
  if x.size = 1 then (v >>> (8 * (x.addr % 2))) % 256 else v

/-- The address of the piece that an access has reached. -/
def kzPieceAddr (x : KzAcc) : Nat := x.addr / 2 * 2 + 2 * x.piece

/-- An access that meets a full queue is held at the port until an entry frees. -/
def kzEnter (x : KzAcc) (d : Dev) : Dev :=
  let n := kzChain x.addr
  let q := kzQueue n d
  if q.length < 8 && d.brg.port.all (fun y => kzChain y.addr != n) then kzQueuePut n (q ++ [x]) d
  else { d with brg := { d.brg with port := d.brg.port ++ [x] } }

/-- The first access held at the port for chain `n` enters its queue, where an entry is free. -/
def kzRefill (n : Nat) (d : Dev) : Dev :=
  match d.brg.port.find? (fun y => kzChain y.addr == n) with
  | none => d
  | some x =>
    if (kzQueue n d).length < 8 then
      kzQueuePut n (kzQueue n d ++ [x]) { d with brg := { d.brg with port := d.brg.port.erase x } }
    else d

/-- The first access leaves the queue of chain `n`, and one held at the port takes its place. -/
def kzLeave (n : Nat) (d : Dev) : Dev := kzRefill n (kzQueuePut n ((kzQueue n d).drop 1) d)

/-- A failed access (R393): recorded, counted, and reported with the address of the failing piece. -/
def kzFail (n cause detail : Nat) (x : KzAcc) (d : Dev) : Dev :=
  let d := chainPut n { chainOf n d with svc := none } d
  let a := kzPieceAddr x
  let d := if x.need ≤ x.piece then d
    else
      let d := recordC 0x0A01 (n + kzPos a * 16 + kzWord a * 1024)
        (cause + detail % 16 * 16 + attrTenant x.attr * 256 + b2n x.write * 2048) (fsat F.BRG_CNT_ERR_CNT 1 d)
      busDeliver x.origin x.write x.addr x.size x.attr x.mode 0 (.error cause detail a) d
  kzLeave n d

/-- Words kept in the prefetch buffer of chain `n` (R394). -/
def pfKeep (n : Nat) (x : KzAcc) (d : Dev) : Dev :=
  if x.mode = 2 ∧ x.write = false then
    let words := (x.addr / 2 * 2 + 2 * x.stale, (x.got.drop x.stale).take 64)
    { d with brg := { d.brg with pf := tabSet (fun _ => (0, [])) d.brg.pf n words } }
  else d

/-- A piece completed (R393): the access is done with its last, and a prefetch goes on. -/
def kzPiece (n word : Nat) (x : KzAcc) (d : Dev) : Dev :=
  let d := chainPut n { chainOf n d with svc := none } d
  let x := { x with piece := x.piece + 1, got := if x.write then x.got else x.got ++ [word], busies := 0 }
  let d := if x.write then pfWritten n (kzPos x.addr) d else pfKeep n x d
  let d := if x.piece = x.need then
      busDeliver x.origin x.write x.addr x.size x.attr x.mode 0 (.data (kzData x)) d else d
  if x.total ≤ x.piece then kzLeave n d
  else kzQueuePut n (x :: (kzQueue n d).drop 1) d

/-- The decision on a fabric access to the Kazilo window (R389 to R394): refused, answered from the prefetch buffer, or queued. -/
def kzDecide (o : Origin) (write : Bool) (a size data attr : Nat) (d : Dev) : Option BusResult × Dev :=
  let n := kzChain a
  let p := kzPos a
  if !(size == 1 || size == 2 || size == 4 || size == 8) || a % size != 0 then (some (.error 11 0 a), d)
  else if 48 ≤ p ∨ fget (F.KZC_CH_CTRL_COUNT n) d ≤ p then (some (.error 1 0 a), d)
  else if size = 1 ∧ write then (some (.error 10 0 a), d)
  else if !mastersPos n p d then (some (.error 4 0 a), d)
  else
    let need := max 1 (size / 2)
    let mode := if write then 0 else readMode 0 a d
    let (start, ws) := tabGet (fun _ => (0, ([] : List Nat))) d.brg.pf n
    let off := (a / 2 * 2 - start) / 2
    if !write && mode == 2 && decide (start ≤ a / 2 * 2 ∧ off + need ≤ ws.length) && kzPos start == p then
      let x : KzAcc := { origin := o, write, addr := a, size, attr, need, total := need, got := ws.drop off }
      (some (.data (kzData x)), fsat F.BRG_CNT_PFHIT_CNT 1 d)
    else
      let d := if write then pfWritten n p d else d
      let d := if mode = 0 then d else fsat F.BRG_CNT_RETRY_CNT 1 d
      let room := 0x20000 - kzWord a
      let total := if mode = 2 then max need (min room (fget F.BRG_CFG_PF_WORDS d)) else need
      (none, kzEnter { origin := o, write, addr := a, size, data, attr, mode, need, total } d)

/-- A refused or failed access of any kind before the queue is recorded like one that fails in it (R393). -/
def kzRefusal (write : Bool) (attr : Nat) (r : Option BusResult) (d : Dev) : Dev :=
  match r with
  | some (.error c x a) =>
    recordC 0x0A01 (kzChain a + kzPos a * 16 + kzWord a * 1024)
      (c + x % 16 * 16 + attrTenant attr * 256 + b2n write * 2048) (fsat F.BRG_CNT_ERR_CNT 1 d)
  | _ => d

/-- A fabric access to the Kazilo window, with its result when there is one at once. -/
def kzAccess (o : Origin) (write : Bool) (a size data attr : Nat) (d : Dev) : Option BusResult × Dev :=
  let (r, d) := kzDecide o write a size data attr d
  (r, kzRefusal write attr r d)

/-! ### Service transactions (R106) -/

/-- The service window of chain `n` is open for a new frame (R106, R392). -/
def svcWindow (n : Nat) (d : Dev) : Bool :=
  slotsEnded n d && (chainOf n d).retxOut.isNone && (retxNext n d).isNone && decide (countNow d ≤ 65536 - fget F.KZC_SVC_GUARD_GUARD d)

/-- The service frame of a transaction leaves (R105). -/
def svcFrame (n : Nat) (r : SvcRun) (d : Dev) : Dev :=
  send (.service n (if fromBEnd n r.pos d then .b else .a) r.write r.pos r.seq r.addr r.data) d

/-- KZB_TRANSACTION_START (R392): the next piece of the first access in the queue, or a frame that waits to be sent again. -/
def kzStart (n : Nat) (d : Dev) : Dev :=
  let c := chainOf n d
  if !svcWindow n d then d
  else match c.svc, kzQueue n d with
    | some r, _ =>
      if r.again && !r.busy then
        let r := { r with again := false }
        svcFrame n r (chainPut n { c with svc := some r } d)
      else d
    | none, x :: rest =>
      let a := kzPieceAddr x
      if !mastersPos n (kzPos a) d then kzFail n 4 0 x d
      else
        let r : SvcRun := { write := x.write, pos := kzPos a, addr := kzWord a, data := (x.data >>> (16 * x.piece)) % 65536,
                            seq := (c.svcSeq + 1) % 256, tries := 0 }
        let d := kzQueuePut n ({ x with started := true } :: rest) d
        svcFrame n r (chainPut n { c with svc := some r, svcSeq := (c.svcSeq + 1) % 256 } d)
    | none, [] => d

/-- REG_RESP (R106, R393): the first response with matching position and SEQ. -/
def regResp (n pos seq result data : Nat) (d : Dev) : Dev :=
  let c := chainOf n d
  match c.svc, kzQueue n d with
  | some r, x :: rest =>
    -- after the timeout tick a response is discarded, until the repeat has left
    if r.pos ≠ pos ∨ r.seq ≠ seq ∨ r.busy = true ∨ r.again = true then d
    else match result with
      | 0 => kzPiece n data x d
      | 4 => if r.tries = 0 then d else kzPiece n data x d
      | 3 =>
        if fget F.KZC_SVC_RETRY d ≤ x.busies then kzFail n 3 3 x d
        else
          let d := kzQueuePut n ({ x with busies := x.busies + 1 } :: rest) d
          chainPut n { c with svc := some { r with busy := true } } d
      | k => kzFail n 3 k x d
  | _, _ => d

/-- KZB_BUSY_RETRY (R393): 100 µs after a busy answer the piece is sent again, as a new transaction. -/
def busyRetry (n : Nat) (d : Dev) : Dev :=
  let c := chainOf n d
  match c.svc with
  | some r => if r.busy then kzStart n (chainPut n { c with svc := none } d) else d
  | none => d

/-- SVC_TIMEOUT (R106): the frame is sent again with the same SEQ, or the access fails with cause 2. -/
def svcTimeout (n : Nat) (d : Dev) : Dev :=
  let c := chainOf n d
  match c.svc, kzQueue n d with
  | some r, x :: _ =>
    if r.busy then d
    else if r.tries < fget F.KZC_SVC_RETRY d then
      kzStart n (chainPut n { c with svc := some { r with tries := r.tries + 1, again := true } } d)
    else kzFail n 2 0 x (record 0x030A n r.pos r.addr (fsat (F.KZC_CH_ERR_MISC_SVC_TMO n) 1 d))
  | _, _ => d

/-- RETRY_EXPIRED (R394): data that no presentation has collected within HOLD_US is discarded. -/
def retryExpired (i : Nat) (d : Dev) : Dev :=
  match d.brg.held[i]? with
  | none => d
  | some h => recordC 0x0A03 h.addr h.attr { d with brg := { d.brg with held := d.brg.held.eraseIdx i } }

def execRetryExpired (i : Nat) (s : State) : Host.Outcome State Fault Refusal := onBlk 11 (retryExpired i) s

/-- The queued accesses of tenant `k` that have put no frame on a chain are removed with cause 5 (R395). -/
def kzCancel (k : Nat) (d : Dev) : Dev :=
  let mine (x : KzAcc) : Bool := attrV x.attr && attrTenant x.attr == k && !x.started
  let gone := ((List.range 16).flatMap (fun n => (kzQueue n d).filter mine)) ++ d.brg.port.filter mine
  let d := each (List.range 16) (fun n d => kzQueuePut n ((kzQueue n d).filter (fun x => !mine x)) d) d
  let d := { d with brg := { d.brg with port := d.brg.port.filter (fun x => !mine x) } }
  -- the accesses held at the port take the entries that are free now
  let d := each (List.range 16) (fun n d => each (List.range 8) (fun _ => kzRefill n) d) d
  let d := each gone (fun x d => busDeliver x.origin x.write x.addr x.size x.attr 0 0 (.error 5 0 x.addr) d) d
  -- the responses of accesses under way are discarded
  let d := each (List.range 16) (fun n d => kzQueuePut n ((kzQueue n d).map (fun x =>
    if attrV x.attr && attrTenant x.attr == k then { x with origin := .prefetch } else x)) d) d
  recordC 0x0A04 k gone.length d

end Sys2Proof.Machine
end

