-- ==== Sys2Proof/Machine/Enum.lean ====
section
/-!
DEFINITION. Machine/Enum.lean: enumeration of a chain (R123 to R128), fill-in ENUMs (R126) and the delay table (R140).
-/

namespace Sys2Proof.Machine

/-- MAXVER of an ENUM (R123). -/
def maxVer (d : Dev) : Nat := if flag F.KZC_CTRL_FORCE_V1 d then 1 else 2

/-- ENUM sent through one port: from B with BASE = COUNT − 1 (R124). -/
def enumOut (n : Nat) (p : Port) (d : Dev) : Dev :=
  send (.enum n p (if p = .b then fget (F.KZC_CH_CTRL_COUNT n) d - 1 else 0) (maxVer d)) d

/-- The device masters chain `n` and may enumerate it (R118, R124). -/
def mayEnum (n : Nat) (d : Dev) : Bool := !(masterPorts n d).isEmpty

/-- Every position of chain `n` has no record, as at reset and at enumeration (R144). -/
def forgetRecords (n : Nat) (d : Dev) : Dev :=
  each (List.range 48) (fun p d =>
    let x := posOf n p d
    posPut n p { x with frame := none, entered := none, lostTold := false, silent := 0 }
      (if excluded n p d then d else fset (F.ACQ_POS_STATE n p) 2 d)) d

/-- ENUM (R124): RESET_POS on the owned ports; the delay table is cleared (R133), and the records with it. -/
def enumStart (n : Nat) (d : Dev) : Dev :=
  let d := chainPut n { chainOf n d with run := some {}, next := some 2, upDue := false } d
  let d := each (List.range 48) (fun p d => regPut (R.KZC_DLY n p) 0 d) (forgetRecords n d)
  each (ownedPorts d) (fun p d => send (.resetPos n p) d) d

/-- ENUM on a chain that the device masters. -/
def enumCmd (n : Nat) (d : Dev) : Dev := if mayEnum n d then enumStart n d else d

def execEnum (n : Fin 16) (s : State) : Host.Outcome State Fault Refusal := onBlk 4 (enumCmd n.val) s

/-- ENUM_SEND: from A, or from B by a member that owns only the B ends. -/
def enumSend (n : Nat) (d : Dev) : Dev :=
  match (chainOf n d).run, ownedPorts d with
  | some r, p :: _ =>
    if chState3 n d = 6 then d
    else enumOut n p (chainPut n { chainOf n d with run := some { r with strayA := false, strayB := false } } d)
  | _, _ => d

def execEnumSend (n : Fin 16) (s : State) : Host.Outcome State Fault Refusal := onBlk 4 (enumSend n.val) s

/-- ENUM_RETURN_TIMEOUT: a single device sends ENUM from B. -/
def enumTimeout (n : Nat) (d : Dev) : Dev :=
  match (chainOf n d).run with
  | some r => if r.returned || d.pair.role != 0 then d else enumOut n .b d
  | none => d

def execEnumReturnTimeout (n : Fin 16) (s : State) : Host.Outcome State Fault Refusal := onBlk 4 (enumTimeout n.val) s

/-! ### Answers (R124, R128) -/

/-- The run that an answer belongs to: a listener opens one, full while it knows no version. -/
def runOf (n : Nat) (d : Dev) : Option EnumRun :=
  match (chainOf n d).run with
  | some r => some r
  | none => if chState3 n d = 6 then some { full := fget (F.KZC_CH_STAT_VER n) d == 0 } else none

/-- The one-way delay of an answer, ns (R128): half of what is left of `elapsed` units of 2.5 ns. -/
def enumDelay (r : EnumResp) : Nat := (r.elapsed - (32 + 64 * r.hop) * 128) * 5 / 4

/-- The delay table's entry from an answer; a listener's entries read FROM_B and not VALID (R133). DLY holds 16 bits of ns and R128 says
nothing of a longer delay: the model saturates it at 65,535. DESIGN CHOICE (notes/assumptions/67.md). -/
def delayPut (n : Nat) (r : EnumResp) (d : Dev) : Dev :=
  let w := if chState3 n d = 6 then 2 ^ 16 else min 65535 (enumDelay r) + b2n r.dirB * 2 ^ 16 + 2 ^ 17
  regPut (R.KZC_DLY n r.pos) (BitVec.ofNat 32 w) d

/-- A satellite that took no position: its answer and its version count (R123, R129); ENUM_MISMATCH with position 0x3F and cause 3, once
per ENUM. -/
def enumStray (n : Nat) (r : EnumResp) (x : EnumRun) (d : Dev) : Dev :=
  let told := if r.dirB then x.strayB else x.strayA
  let x := if r.dirB then { x with strayB := true } else { x with strayA := true }
  let x := { x with strays := x.strays + 1, strayVer := some (min r.maxVer (x.strayVer.getD r.maxVer)) }
  let d := chainPut n { chainOf n d with run := some x } d
  if told then d else record 0x0305 n 0x3F 3 d

/-- An answer belongs to the ENUM that was sent in its direction through the port that received it (R124); a listener takes what passes
its B port. -/
def answerTaken (n : Nat) (r : EnumResp) (d : Dev) : Bool :=
  if chState3 n d = 6 then r.port == .b else r.port == (if r.dirB then .b else .a)

/-- ENUM_RESP at a port. -/
def enumResp (n : Nat) (r : EnumResp) (d : Dev) : Dev :=
  match runOf n d with
  | none => d
  | some x =>
    if !answerTaken n r d then d
    else if 48 ≤ r.pos then enumStray n r x d
    else
      let x := { x with answers := tabSet (fun _ => none) x.answers r.pos (some r) }
      delayPut n r (chainPut n { chainOf n d with run := some x } d)

def execEnumResp (n : Fin 16) (r : EnumResp) (s : State) : Host.Outcome State Fault Refusal := onBlk 4 (onPort n.val (enumResp n.val r)) s

/-! ### Exclusion (R125, R127) -/

/-- The lowest cause that excludes position `p` with answer `r`; none when it passes. -/
def enumCause (n p : Nat) (r : Option EnumResp) (d : Dev) : Option Nat :=
  match r with
  | none => some 2
  | some r =>
    let uid := tabGet (fun _ => 0) d.kzc.uids (64 * n + p)
    let inside := decide (p < fget (F.KZC_CH_CTRL_COUNT n) d)
    if inside && uid != 0 && r.uid != uid then some 0
    else if inside && r.nCell != fget (F.ACQ_POS_NCELL n p) d then some 1
    else if !inside then some 3
    else if flag (F.ACQ_POS_HEAD n p) d && !r.cap.testBit 0 then some 4
    else if r.oldPos != 0x3F && r.oldPos != p then some 5
    else none

/-- The verdict on one position: excluded and recorded, or restored (R127). -/
def enumJudge (n p : Nat) (r : Option EnumResp) (d : Dev) : Dev :=
  let x := posOf n p d
  let exclPut (b : Bool) (d : Dev) : Dev :=
    mask48BitPut (F.KZC_CH_EXCL_LO_EXCL n) (F.KZC_CH_EXCL_HI_EXCL n) p b d
  match enumCause n p r d with
  | some c =>
    if excluded n p d && x.cause == c then d
    else record 0x0305 n p c (posPut n p { x with cause := c, frame := none, entered := none } (exclPut true d))
  | none =>
    let d := posPut n p { x with awaits := false, rejoins := excluded n p d, fw := (r.map (·.fw)).getD x.fw
                                 maxVer := (r.map (·.maxVer)).getD x.maxVer } d
    if excluded n p d then record 0x030E n p x.cause (exclPut false d) else d

/-- The chain state that a full enumeration leads to (R115). -/
def enumNext (returned : Bool) (d : Dev) : Nat :=
  match d.pair.role with
  | 0 => if returned then 3 else 4
  | 3 => if returned then 3 else 5
  | _ => if d.pair.slotB then 7 else 5

/-- The A delays of chain `n`, as the primary sends them after ENUM_DONE (R140). -/
def delaysA (n : Nat) (d : Dev) : List (Option Nat) :=
  (List.range 48).map (fun p =>
    if flag (F.KZC_DLY_VALID n p) d && !flag (F.KZC_DLY_FROM_B n p) d then some (fget (F.KZC_DLY_DLY n p) d) else none)

/-- The entries of a limit set that a satellite holds as alert thresholds (R198). -/
def thrEntries : List Nat := [0, 1, 2, 5, 6, 8, 9, 10]

/-- The management engine's service transactions that write the alert thresholds of position `p` (R198): THR of eight entries of its
string's limit set, and an enable for each entry with EN 1 and ACT 2 or 3. Their order and their word for the enables are a
DESIGN CHOICE (notes/assumptions/70.md). -/
def thrWrite (n p : Nat) (d : Dev) : Dev :=
  let k := fget (F.ACQ_POS_STRING n p) d
  let set := if k < 48 then fget (F.PROT_STR_A_LSET k) d else 0
  let word (i v : Nat) (d : Dev) : Dev :=
    kzEnter { origin := .engine, write := true
              addr := 0x40000000 + n * 2 ^ 24 + p * 2 ^ 18 + (Config.satThr i).toNat % 2 ^ 17 * 2, size := 2, data := v
              attr := attrOf true 0 3 false true, need := 1, total := 1 } d
  let on (e : Nat) : Bool := flag (F.PROT_LIM_EN set e) d && decide (2 ≤ fget (F.PROT_LIM_ACT set e) d)
  let mask := ((List.range 8).zip thrEntries).foldl (fun m e => if on e.2 then m + 2 ^ e.1 else m) 0
  let d := each ((List.range 8).zip thrEntries) (fun e => word e.1 (fget (F.PROT_LIM_THR set e.2) d)) d
  word 8 mask d

/-- An enumeration ends: version, exclusions and restorations, LINK_V1_CHAIN, ENUM_DONE, and the next chain state. -/
def enumFinish (n ver : Nat) (alerts : Bool) (x : EnumRun) (d : Dev) : Dev :=
  let answered := x.answers.filterMap (fun e => e.2.map (fun r => (e.1, r)))
  let examined (p : Nat) : Bool := (positionsOf n d).contains p || decide (fget (F.KZC_CH_CTRL_COUNT n) d ≤ p)
  let judged := if x.full then below 48 (fun p => (positionsOf n d).contains p || (examined p && answered.any (fun e => e.1 == p)))
    else (answered.map (·.1)).filter examined
  let v1 := ver == 1 && maxVer d == 2
  let old := (answered.filter (fun e => e.2.maxVer == 1)).map (·.1)
  let d := fset (F.KZC_CH_STAT_VER n) ver d
  let d := each judged (fun p d => enumJudge n p ((answered.find? (fun e => e.1 == p)).map (·.2)) d) d
  let d := match old with
    | p :: _ => if v1 then record 0x0306 n p 0 d else d
    | [] => d
  let d := record 0x0304 n (answered.length + x.strays) ver d
  let fromA := (answered.filter (fun e => !e.2.dirB)).map (·.1)
  let fromB := (answered.filter (fun e => e.2.dirB)).map (·.1)
  let d := if x.full then
      fset (F.KZC_CH_STAT_FIRST_B n) (fromB.head?.getD 0x3F) (fset (F.KZC_CH_STAT_LAST_A n) (fromA.getLast?.getD 0x3F) d)
    else d
  let c := chainOf n d
  let d := chainPut n { c with
    run := none, alerts, upDue := c.upDue || x.full
    next := if x.full && chState3 n d != 6 then some (enumNext x.returned d) else c.next
    broken := if x.full then (if enumNext x.returned d = 3 then none else some (cycleNow d)) else c.broken
    breakTold := x.full || c.breakTold
    derivedTold := if x.full then 0 else c.derivedTold } d
  let d := if d.pair.role = 3 then toPartner (.delayTable n (delaysA n d)) d else d
  if chState3 n d = 6 then d
  else each ((answered.map (·.1)).filter (fun p => (positionsOf n d).contains p && !excluded n p d)) (thrWrite n) d

/-- ENUM_COMMIT (R124): the smallest version of MAXVER and the answers, and the alert enable. -/
def enumCommit (n : Nat) (d : Dev) : Dev :=
  match (chainOf n d).run with
  | none => d
  | some x =>
    if chState3 n d = 6 then d
    else
      let ver := x.answers.foldl (fun v e => match e.2 with
        | some r => min v r.maxVer
        | none => v) (min (maxVer d) (x.strayVer.getD 2))
      let alerts := flag F.KZC_CTRL_ALERT_EN d && ver == 2
      let ports := if x.full then ownedPorts d else masterPorts n d
      let d := each ports (fun p d => send (.enumCommit n p ver (fget (F.KZC_CH_CTRL_COUNT n) d) alerts) d) d
      enumFinish n ver alerts x d

def execEnumCommit (n : Fin 16) (s : State) : Host.Outcome State Fault Refusal := onBlk 4 (enumCommit n.val) s

/-- ENUM_RECEIVED: the own ENUM back at the opposite end, or what passes a listener's B port (R124). -/
def enumReceived (n : Nat) (e : EnumSeen) (d : Dev) : Dev :=
  let d := masterSeen n d
  match e with
  | .resetPos =>
    if chState3 n d = 6 then
      each (List.range 48) (fun p d => regPut (R.KZC_DLY n p) 0 d)
        (forgetRecords n (chainPut n { chainOf n d with run := some {} } d))
    else d
  | .enum _ =>
    let c := chainOf n d
    chainPut n { c with enumSeen := c.enumSeen || chState3 n d == 6
                        run := c.run.map (fun r => { r with returned := true }) } d
  | .commit ver _ alerts => if chState3 n d = 6 then enumFinish n ver alerts ((runOf n d).getD {}) d else d

def execEnumReceived (n : Fin 16) (e : EnumSeen) (s : State) : Host.Outcome State Fault Refusal :=
  onBlk 4 (onPort n.val (enumReceived n.val e)) s

/-! ### Fill-in ENUMs (R126) -/

/-- An ENUM without RESET_POS through every port of the segments that the device masters, or into the B segment alone (R140). -/
def fillIn (n : Nat) (d : Dev) : Dev :=
  if !mayEnum n d || (chainOf n d).run.isSome then d
  else
    let c := chainOf n d
    let d := chainPut n { c with run := some { full := false }, fillDue := false, fillB := false } d
    each ((masterPorts n d).filter (fun p => !c.fillB || p == .b)) (enumOut n) d

/-- A fill-in ENUM that is due leaves in the service window (R126, R106). -/
def fillGo (n : Nat) (d : Dev) : Dev := if (chainOf n d).fillDue && svcWindow n d then fillIn n d else d

/-- FILL: a write of CH_CTRL.FILL; the ENUM is due, and leaves now or in the next service window. -/
def fillCmd (n : Nat) (d : Dev) : Dev :=
  if mayEnum n d then fillGo n (chainPut n { chainOf n d with fillDue := true, fillB := false } d) else d

def execFill (n : Fin 16) (s : State) : Host.Outcome State Fault Refusal := onBlk 4 (fillCmd n.val) s

/-- FILL_IN_ENUM. -/
def execFillInEnum (n : Fin 16) (s : State) : Host.Outcome State Fault Refusal := onBlk 4 (fillGo n.val) s

/-- REENUM_DUE: a configured position has given no accepted burst for CYCLES frames; an excluded one counts as such (R127). -/
def reenumDue (n : Nat) (d : Dev) : Dev :=
  let cycles := fget F.KZC_REENUM_CYCLES d
  let due := (positionsOf n d).any (fun p =>
    decide (cycles ≤ (posOf n p d).silent) || excluded n p d || (posOf n p d).awaits)
  if cycles != 0 && mayEnum n d && due then chainPut n { chainOf n d with fillDue := true, fillB := false } d else d

def execReenumDue (n : Fin 16) (s : State) : Host.Outcome State Fault Refusal := onBlk 4 (reenumDue n.val) s

end Sys2Proof.Machine
end

