-- ==== Sys2Proof/Machine/Rec.lean ====
section
/-!
DEFINITION. Machine/Rec.lean: the sideboard (15): records in the MRAM ring and the fallback area, marks, the submit pages and
the read ports.
-/

namespace Sys2Proof.Machine

/-! ### Records (R466 to R468) -/

/-- The FLAGS byte of a record (R467). -/
def recFlags (e : RecEvent) : Nat :=
  b2n e.sw + 2 * b2n e.close + 4 * b2n e.early + 8 * b2n e.carried + 16 * (e.tl % 8)

/-- Bytes 0 to 29 of a record with FLAGS given. -/
def recHead (e : RecEvent) (seq pcyc flags : Nat) : List Byte :=
  leBytes 2 e.code ++ leBytes 2 e.rep ++ leBytes 4 seq ++ leBytes 4 e.optime ++ leBytes 3 pcyc ++ leBytes 1 flags
    ++ leBytes 4 e.p1 ++ leBytes 4 e.p2 ++ leBytes 4 e.p3 ++ [0, 0]

/-- A record's 30 bytes with its CRC behind them. -/
def recSeal (h : List Byte) : List Byte := h ++ leBytes 2 (crc16 h)

/-- The 32 bytes of a record (R466). -/
def recBytes (x : RecEntry) : List Byte := recSeal (recHead x.event x.seq x.pcyc (recFlags x.event))

/-- The placeholder of R478: the SEQ requested, BAD, and a correct CRC. -/
def recBad (seq : Nat) : List Byte := recSeal (recHead { code := 0, p1 := 0, p2 := 0, p3 := 0 } seq 0 0x80)

/-- The address of the slot of sequence number `s` (R468). -/
def recSlot (s : Nat) : Nat := mramBase + 32 * (s % 65536)

/-- The 32 bytes of the slot of sequence number `s`. -/
def recAt (m : List Host.Cell) (s : Nat) : List Byte := memRead m (recSlot s) 32

/-- The CRC of a record is correct (R466). -/
def recCrcOk (bs : List Byte) : Bool := field bs 30 2 == crc16 (bs.take 30)

/-- The SEQ field of a record. -/
def recSeq (bs : List Byte) : Nat := field bs 4 4

/-- Whether sequence number `a` is newer than `b` (R468). -/
def seqNewer (a b : Nat) : Bool := decide (0 < sdiff32 a b)

/-- Whether `s` lies inside REC_OLDEST to REC_NEWEST. -/
def recHolds (s : Nat) (d : Dev) : Bool :=
  fget F.REC_HELD_HELD d != 0 && !seqNewer (fget F.REC_OLDEST_SEQ d) s && !seqNewer s (fget F.REC_NEWEST_SEQ d)

/-! ### Writing (R468, R480) -/

/-- A record put in its slot of the ring: REC_NEWEST, and REC_OLDEST when the ring is full (R468). -/
def recRing (x : RecEntry) (m : List Host.Cell) (d : Dev) : List Host.Cell × Dev :=
  let old := if fget F.REC_HELD_HELD d = 0 then x.seq
    else if 65535 < (x.seq + 2 ^ 32 - fget F.REC_OLDEST_SEQ d) % 2 ^ 32 then (x.seq + 2 ^ 32 - 65535) % 2 ^ 32
    else fget F.REC_OLDEST_SEQ d
  let d := fset F.REC_OLDEST_SEQ old (fset F.REC_NEWEST_SEQ x.seq d)
  (memWrite (recSlot x.seq) (recBytes x) m, fset F.REC_HELD_HELD ((x.seq + 2 ^ 32 - old) % 2 ^ 32 + 1) d)

/-- A record put in the fallback area: behind entry 0, a ring of the newest 15 (R480). -/
def recFallback (x : RecEntry) (d : Dev) : Dev :=
  let fb := match d.side.fallback with
    | [] => [x]
    | e0 :: ring => e0 :: (if ring.length < 15 then ring else ring.drop 1) ++ [x]
  let d := { d with side := { d.side with fallback := fb } }
  let d := fset F.REC_NEWEST_SEQ x.seq (fput F.REC_STATUS_FALLBACK true d)
  fset F.REC_HELD_HELD fb.length (fset F.REC_OLDEST_SEQ ((fb.map (·.seq)).headD 0) d)

/-- The next record: the sequence number after the newest (R468), and REC_PCYC. No rule gives the first record of an empty ring its
number (notes/assumptions/5.md). -/
def recNext (e : RecEvent) (d : Dev) : RecEntry × Dev :=
  let pcyc := fget F.REC_PCYC_PCYC d
  if fget F.REC_HELD_HELD d = 0 then
    let (k, d) := draw d
    ({ event := e, seq := (Config.freeWord k).toNat, pcyc }, d)
  else ({ event := e, seq := (fget F.REC_NEWEST_SEQ d + 1) % 2 ^ 32, pcyc }, d)

/-- The MRAM has failed at the write of `x` (R480): MRAM_FAILED goes to fallback entry 0 and its event behind it; the run ends. -/
def recFail (x : RecEntry) (cause : Nat) (d : Dev) : Dev :=
  let f : RecEvent := { code := 0x0D03, p1 := x.seq, p2 := cause, p3 := cycleNow d, optime := opTime d }
  let d := raiseFlag 0x0D03 0 (fput F.REC_STATUS_MRAM_FAIL true d)
  let d := recFallback { x with event := f } { d with side := { d.side with fallback := [] } }
  let (y, d) := recNext x.event d
  recEndRun (recFallback y d)

/-- One record written, the MRAM answering as `r` says (R480). -/
def recStore (r : MramResult) (e : RecEvent) (m : List Host.Cell) (d : Dev) : List Host.Cell × Dev :=
  let d := { d with side := { d.side with newestAt := fget F.PWR_OPSEC_SEC d } }
  let (x, d) := recNext e d
  if flag F.REC_STATUS_FALLBACK d || flag F.REC_STATUS_MRAM_FAIL d then (m, recFallback x d)
  else match r with
    | .ok => recRing x m d
    | .second => recRing x m (fsat F.REC_BADSLOT_REWRITE 1 d)
    | .mismatch => (m, recFail x 0 (fsat F.REC_BADSLOT_REWRITE 1 d))
    | .silent => (m, recFail x 1 d)

/-- RECORD_WRITE (R471): RECORDS_LOST when events were lost and the intake has room again, else the head of the intake. -/
def recordWrite (r : MramResult) (m : List Host.Cell) (d : Dev) : List Host.Cell × Dev :=
  if !flag F.REC_STATUS_OPEN d then (m, d)
  else if 0 < d.side.lostNow ∧ d.side.intake.length < 64 then
    let e : RecEvent := { code := 0x0D02, p1 := d.side.lostNow, p2 := d.side.lostFirst, p3 := cycleNow d,
                          optime := opTime d }
    recStore r e m (raiseFlag 0x0D02 0 { d with side := { d.side with lostNow := 0, lostFirst := 0 } })
  else match d.side.intake with
    | [] => (m, d)
    | e :: rest => recStore r e m { d with side := { d.side with intake := rest } }

def execRecordWrite (r : MramResult) (s : State) : Host.Outcome State Fault Refusal := onBoth (recordWrite r) s

/-- REPEAT_EXPIRY (R472): the run ends, with its closing record when its count is above 0. -/
def execRepeatExpiry (s : State) : Host.Outcome State Fault Refusal := onDev recEndRun s

/-- TIME_MARK (R475): MARK_MIN minutes after the newest record was written. -/
def timeMark (d : Dev) : Dev :=
  if fget F.REC_CFG_MARK_MIN d != 0
      && decide (60 * fget F.REC_CFG_MARK_MIN d ≤ fget F.PWR_OPSEC_SEC d - d.side.newestAt)
      && !d.side.intake.any (fun e => e.code == 0x0D04 && !e.sw)
  then recordC 0x0D04 (fget F.PWR_OPSEC_SEC d) (fget F.REC_PCYC_PCYC d) d else d

def execTimeMark (s : State) : Host.Outcome State Fault Refusal := onDev timeMark s

/-! ### Opening the ring (R469, R470, R474, R481) -/

/-- The ring slots with a listed byte, in rising order: a slot of unlisted bytes holds no valid record. -/
def recListed : List Host.Cell → List Nat
  | [] => []
  | c :: t =>
    let rest := recListed t
    if mramBase ≤ c.1 ∧ c.1 < mramBase + 0x200000 then
      if rest.head? = some ((c.1 - mramBase) / 32) then rest else (c.1 - mramBase) / 32 :: rest
    else rest

/-- The valid records of the ring (R474). -/
def recScan (m : List Host.Cell) : List (List Byte) :=
  ((recListed m).filter (fun i => recCrcOk (recAt m i) && recSeq (recAt m i) % 65536 == i)).map (recAt m)

/-- The newest of some records: the one whose SEQ no other exceeds. -/
def recNewest : List (List Byte) → Option (List Byte)
  | [] => none
  | b :: t =>
    match recNewest t with
    | none => some b
    | some c => if seqNewer (recSeq b) (recSeq c) then some b else some c

/-- The oldest SEQ among records that lies within 65,535 of `top`. -/
def recOldest (top : Nat) (l : List (List Byte)) : Nat :=
  l.foldl (fun o b => if decide (sdiff32 top (recSeq b) ≤ 65535) && seqNewer o (recSeq b) then recSeq b else o) top

/-- The scan's registers: REC_NEWEST, REC_OLDEST, REC_HELD, REC_BADSLOT, and after a power-on reset REC_PCYC and REC_OPBASE. -/
def recScanned (l : List (List Byte)) (d : Dev) : Dev :=
  let d := if fget F.SYS_RST_CAUSE_CAUSE d = 0 then
      match recNewest l with
      | some b => fset F.REC_OPBASE_BASE (field b 8 4 + 1) (fset F.REC_PCYC_PCYC (field b 12 3 + 1) d)
      | none => fset F.REC_OPBASE_BASE 0 (fset F.REC_PCYC_PCYC 0 d)
    else d
  match recNewest l with
  | none => fset F.REC_BADSLOT_SCAN 0 d
  | some b =>
    let top := recSeq b
    let old := recOldest top l
    let len := (top + 2 ^ 32 - old) % 2 ^ 32 + 1
    let good := (l.filter (fun b => decide ((recSeq b + 2 ^ 32 - old) % 65536 < len))).length
    fset F.REC_BADSLOT_SCAN (len - good)
      (fset F.REC_HELD_HELD len (fset F.REC_OLDEST_SEQ old (fset F.REC_NEWEST_SEQ top d)))

/-- The fallback records newer than the ring's newest valid record (R481). -/
def recRestorable (l : List (List Byte)) (d : Dev) : List RecEntry :=
  match recNewest l with
  | none => d.side.fallback
  | some b => d.side.fallback.filter (fun x => seqNewer x.seq (recSeq b))

/-- The fallback area stays in use over a reset (R480, R481): the records it holds are those that REC_OLDEST to REC_NEWEST name. -/
def recFallbackKept (d : Dev) : Dev :=
  let seqs := d.side.fallback.map (·.seq)
  fset F.REC_HELD_HELD seqs.length (fset F.REC_OLDEST_SEQ (seqs.headD 0) (fset F.REC_NEWEST_SEQ (seqs.getLastD 0)
    (fput F.REC_STATUS_MRAM_FAIL true d)))

/-- The scan, the fallback records restored when the MRAM responds (R481), and RING_OPENED (R474). The early events stay in the
intake, to be written next. -/
def ringBegin (r : MramResult) (m : List Host.Cell) (d : Dev) : List Host.Cell × Dev :=
  let responds := r != .silent
  let l := if responds then recScan m else []
  let back := if responds then recRestorable l d else []
  let inUse := !d.side.fallback.isEmpty
  let d := if responds || !inUse then recScanned l d else recFallbackKept d
  let md := back.foldl (fun (md : List Host.Cell × Dev) x => recRing x md.1 md.2) (m, d)
  let d := if responds then
      fput F.REC_STATUS_FALLBACK false { md.2 with side := { md.2.side with fallback := [] } } else md.2
  let e : RecEvent := { code := 0x0D01, p1 := l.length,
                        p2 := fget F.REC_BADSLOT_SCAN d + (back.length <<< 16) + (b2n l.isEmpty <<< 24),
                        p3 := cycleNow d, optime := opTime d }
  recStore r e md.1 (raiseFlag 0x0D01 0 (fput F.REC_STATUS_OPEN true d))

/-- The closing record of the run carried over a reset (R473). -/
def ringCarried (r : MramResult) (md : List Host.Cell × Dev) : List Host.Cell × Dev :=
  match md.2.side.carried with
  | none => md
  | some c =>
    let d := { md.2 with side := { md.2.side with carried := none } }
    if c.count = 0 then (md.1, d) else recStore r { closingOf c with carried := true } md.1 d

/-- RING_OPENED (R474). -/
def ringOpened (r : MramResult) (m : List Host.Cell) (d : Dev) : List Host.Cell × Dev := ringCarried r (ringBegin r m d)

def execRingOpened (r : MramResult) (s : State) : Host.Outcome State Fault Refusal := onBoth (ringOpened r) s

/-! ### Submit pages and read ports (R476 to R478) -/

/-- Whether the intake has no room for an event and the closing record it would bring with it. -/
def recFull (e : RecEvent) (d : Dev) : Bool :=
  !recFolds e d && decide (64 < d.side.intake.length + 1 +
    (match d.side.run with
      | some r => b2n (decide (r.count ≠ 0))
      | none => 0))

/-- SUB_CMD (R476): the event of trestle `t`'s submit page. -/
def subCmd (t code : Nat) (go : Bool) (d : Dev) : Dev :=
  let e : RecEvent := { code := code, p1 := fget (F.REC_SUB_P1_P1 t) d, p2 := fget (F.REC_SUB_P2_P2 t) d,
                        p3 := fget (F.REC_SUB_P3_P3 t) d, sw := true, tl := t }
  if !go then d
  else if code / 256 = 0 ∨ 0x0F < code / 256 then fset (F.REC_SUB_CMD_RESULT t) 1 d
  else if recFull e d then fset (F.REC_SUB_CMD_RESULT t) 2 d
  else recAccept e (fset (F.REC_SUB_CMD_RESULT t) 0 d)

def execSubCmd (t : Fin 5) (code : BitVec 16) (go : Bool) (s : State) : Host.Outcome State Fault Refusal :=
  onDev (subCmd t.val code.toNat go) s

/-- The verdict of R478 on a slot read for `seq`. -/
inductive RecRead where
  | valid (bs : List Byte)
  | overwritten
  | bad
  | gone
deriving DecidableEq, Repr

/-- One record read through the ring or the fallback area (R477, R478). -/
def recRead (m : List Host.Cell) (seq : Nat) (d : Dev) : RecRead :=
  if flag F.REC_STATUS_FALLBACK d then
    match d.side.fallback.find? (fun x => x.seq == seq) with
    | some x => .valid (recBytes x)
    | none => .gone
  else if !recHolds seq d then .gone
  else if recCrcOk (recAt m seq) && recSeq (recAt m seq) == seq then .valid (recAt m seq)
  else if recCrcOk (recAt m seq) && seqNewer (recSeq (recAt m seq)) seq then .overwritten
  else .bad

/-- The 8 data words of trestle `t`'s read port. -/
def recPortData (t : Nat) (bs : List Byte) (d : Dev) : Dev :=
  each (List.range 8) (fun w => fset (F.REC_RD_DATA_DATA t w) (field bs (4 * w) 4)) d

/-- RD_SEQ (R477): trestle `t`'s read of record `seq`. -/
def rdSeq (t seq : Nat) (m : List Host.Cell) (d : Dev) : Dev :=
  let d := fset (F.REC_RD_SEQ_SEQ t) seq d
  let stat (v o b g : Bool) (d : Dev) : Dev :=
    regPut (R.REC_RD_STAT t) (BitVec.ofNat 32 (2 * b2n v + 4 * b2n o + 8 * b2n b + 16 * b2n g
      + 32 * b2n (flag F.REC_STATUS_FALLBACK d))) d
  match recRead m seq d with
  | .valid bs => recPortData t bs (stat true false false false d)
  | .overwritten => stat false true false false d
  | .bad => recPortData t (recBad seq) (stat false false true false d)
  | .gone => stat false false false true d

def execRdSeq (t : Fin 5) (seq : Word) (s : State) : Host.Outcome State Fault Refusal :=
  onBoth (fun m d => (m, rdSeq t.val seq.toNat m d)) s

end Sys2Proof.Machine
end

