-- ==== Sys2Proof/Machine/Acq.lean ====
section
/-!
DEFINITION. Machine/Acq.lean: the SYNC trigger (R99, R134), and the close of a
frame for positions, strings and chains (R143 to R145).
-/

namespace Sys2Proof.Machine

/-- The angle is poor in this tick (R142): SRC is FREE, not QUALIFIED, or HOLDOVER for longer than HOLD_PH. -/
def anglePoor (d : Dev) : Bool :=
  let src := fget F.ANG_STATUS_SRC d
  src == 0 || !flag F.ANG_STATUS_QUALIFIED d
    || (src == 4 && decide (fget F.ACQ_PHCFG_HOLD_PH d < fget F.ANG_HOLD_CYC_CYC d))

/-! ### The SYNC trigger -/

/-- The frame whose collection ends had no accepted burst (R116): counted by a master. -/
def chainIdle (n : Nat) (d : Dev) : Dev :=
  let c := chainOf n d
  let st := chState3 n d
  if st = 3 ∨ st = 4 ∨ st = 5 ∨ st = 7 then
    chainPut n { c with idle := if c.gotA = 0 ∧ c.gotB = 0 then c.idle + 1 else 0 } d
  else d

/-- A chain's state takes effect at the trigger (R115); LINKUP leads on at the following one. -/
def chainEffect (n : Nat) (d : Dev) : Dev :=
  let st := chState3 n d
  if !fbit F.KZC_CTRL_CH_EN n d then
    if st = 0 then d
    else each [F.KZC_CH_STAT_STATE n, F.KZC_CH_STAT_LOCK_A n, F.KZC_CH_STAT_LOCK_B n, F.KZC_CH_STAT_SYNC_RET n, F.KZC_CH_RT_RT n]
      (fun f => fset f 0) (chainPut n {} d)
  else if st = 0 then linkupMove n (fset (F.KZC_CH_STAT_STATE n) 1 d)
  else match (chainOf n d).next with
    | none => d
    | some st' =>
      let c := chainOf n d
      let seg := st' == 4 || st' == 7
      let d := chainPut n { c with next := none, idle := 0, fillDue := c.fillDue || seg, fillB := if c.fillDue then c.fillB else seg } d
      let d := fset (F.KZC_CH_STAT_STATE n) st' d
      if st' = 1 then linkupMove n d else if st' = 2 ∧ c.run = none then enumStart n d else d

/-- The return of the SYNC of the cycle that ends (R117, R120): counts toward a break and toward healing. -/
def syncReturns (n : Nat) (d : Dev) : Dev :=
  let c := chainOf n d
  if !c.sent && chState3 n d != 6 then d
  else
    let d := if c.retA then d else fset (F.KZC_CH_RT_RT n) 0 (fput (F.KZC_CH_STAT_SYNC_RET n) false d)
    if d.pair.role ≠ 0 then d
    else match chState3 n d with
      | 3 =>
        let d := chainPut n { c with syncMiss := if c.retA then 0 else c.syncMiss + 1 } d
        if !c.retA && decide (1 ≤ c.syncMiss) then chainBreak n none none d else d
      | 4 => chainPut n { c with healRun := if c.retA && c.retB then c.healRun + 1 else 0 } d
      | _ => d

/-- BAL_EN of ACQ_CTRL, without a write of the present tick (R134). -/
def balEn (d : Dev) : Bool :=
  match d.acq.balOld with
  | some (t, old) => if t = d.clk then old else flag F.ACQ_CTRL_BAL_EN d
  | none => flag F.ACQ_CTRL_BAL_EN d

/-- A write to ACQ_CTRL comes: what BAL_EN was before the tick is kept. -/
def balKeep (d : Dev) : Dev := { d with acq := { d.acq with balOld := some (d.clk, balEn d) } }

/-- The SYNC of the new cycle through every port that the device masters (R99, R134), `poor` the mark of R142. A listener takes the
orders of the SYNC that has come for this cycle (R138). -/
def syncOut (n : Nat) (poor : Bool) (d : Dev) : Dev :=
  let c := chainOf n d
  let (s, p, q) := scanStep n (cycleNow d) d
  let ports := masterPorts n d
  let (p', q', inc) := match c.ordRecv with
    | some (cyc, rp, rq, ri) => if chState3 n d = 6 ∧ cyc = cycleNow d then (rp, rq, ri) else (p, q, fget F.ANG_INC_INC d)
    | none => (p, q, fget F.ANG_INC_INC d)
  let body (port : Port) : SyncBody :=
    { cycle := cycleNow d, inc := fget F.ANG_INC_INC d, cnt := countNow d, ordP := p, ordQ := q, qualified := !poor,
      balEn := balEn d && zone d == 2, alertEn := c.alerts, slotLen := fget F.KZC_SLOT_LEN d,
      fromB := port == .b }
  let d := chainPut n { c with
    sent := !ports.isEmpty, syncAt := d.clk, retA := false, retB := false, gotA := 0, gotB := 0, retxSent := 0, retxOut := none,
    retxTried := 0, ordPrev := c.ordNow, ordNow := some (p', q'), incPrev := c.incNow, incNow := inc, ordRecv := none } d
  let d := if ports.isEmpty then d else fset (F.ACQ_SCAN_CTRL_STEP n) s d
  each ports (fun port d => send (.sync n port (body port)) d) d

/-- The secondary's per-frame report of the SYNCs and ENUMs that reached its B ends (R117). -/
def chainReportOut (d : Dev) : Dev :=
  if d.pair.role ≠ 4 then d
  else
    let mask (f : Chain → Bool) : Nat := (below 16 (fun n => f (chainOf n d))).foldl (fun m n => m + 2 ^ n) 0
    let d := toPartner (.chainReport (mask (·.retA)) (mask (·.enumSeen))) d
    each (below 16 (fun n => (chainOf n d).enumSeen)) (fun n d => chainPut n { chainOf n d with enumSeen := false } d) d

/-- The SYNC trigger: it ends the collection of one frame and starts that of the next (R107). -/
def syncTrigger (d : Dev) : Dev :=
  if cut 4 d then d else
  let poor := anglePoor d
  let d := chainReportOut d
  let d := each (List.range 16) (fun n d => chainEffect n (chainIdle n d)) d
  let d := each (chainsOn d) syncReturns d
  let d := each (chainsOn d) (fun n => syncOut n poor) d
  let pos := (chainsOn d).foldl (fun l n => l ++ (positionsOf n d).map (fun p => (n, p))) []
  let d := each (d.acq.pos.map (·.1)) (fun k d =>
    posPut (k / 64) (k % 64) { posOf (k / 64) (k % 64) d with crc := none, rejoins := false } d) d
  let d := each (pos.filter (fun e => flag (F.ACQ_POS_HEAD e.1 e.2) d && decide (fget (F.ACQ_POS_STRING e.1 e.2) d < 48)))
    (fun e d => ledgerOpen (fget (F.ACQ_POS_STRING e.1 e.2) d) (cycleNow d) (chainOf e.1 d).incNow d) d
  let d := pfEmpty d
  { d with
    kzc := { d.kzc with collect := some ((cycleNow d + 2 ^ 32 - 1) % 2 ^ 32) }
    acq := { d.acq with poorPrev := d.acq.poorNow || poor, poorNow := poor, lastEof := []
                        balSent := balEn d && zone d == 2 } }

/-! ### The close of a frame -/

/-- PH_P, PH_Q and CAUSE of a position (R141). -/
def passPut (n p f : Nat) (d : Dev) : Dev :=
  let (both, cp, cq) := passCauses n p f d
  let d := fput (F.ACQ_POS_PH_P n p) (both.isNone && cp.isNone) d
  let d := fput (F.ACQ_POS_PH_Q n p) (both.isNone && cq.isNone) d
  fset (F.ACQ_POS_CAUSE n p) ((both.or (cp.or cq)).getD 0) d

/-- The state of a position at the close of frame `f` (R144). -/
def posClose (n p f : Nat) (d : Dev) : Dev :=
  let x := posOf n p d
  let age := (sdiff32 f (x.frame.getD f)).toNat
  let st := if excluded n p d then 3
    else if x.entered = some f then 0
    else match x.frame with
      | none => 2
      | some _ => if age ≤ fget F.ACQ_AGE_MAX d then 1 else 2
  let old := fget (F.ACQ_POS_STATE n p) d
  let x := { x with silent := if x.frame = some f then 0 else x.silent + 1 }
  let d := fset (F.ACQ_POS_AGE n p) (min 15 age) (fset (F.ACQ_POS_STATE n p) st d)
  if st = 2 ∧ old ≠ 2 ∧ x.frame ≠ none then record 0x0320 n p f (posPut n p { x with lostTold := true } d)
  else if st < 2 ∧ x.lostTold = true then record 0x0321 n p f (posPut n p { x with lostTold := false } d)
  else posPut n p x d

/-- The members of string `k`, by chain and position. -/
def membersOf (k : Nat) (d : Dev) : List (Nat × Nat) :=
  (chainsOn d).foldl (fun l n =>
    l ++ ((positionsOf n d).filter (fun p => fget (F.ACQ_POS_STRING n p) d == k)).map (fun p => (n, p))) []

/-- Why a string is unmeasured at the close of frame `f` (R145), with the chain and position that give the cause. -/
def unmeasuredCause (k f : Nat) (d : Dev) : Option (Nat × Nat × Nat) :=
  let ms := membersOf k d
  let st (e : Nat × Nat) : Nat := fget (F.ACQ_POS_STATE e.1 e.2) d
  match ms with
  | [] => none
  | m :: _ =>
    let headBad := match headOf m.1 k d with
      | none => some (2, m.1, m.2)
      | some h =>
        if freshIn m.1 h f d && !headValid (posOf m.1 h d).burst then some (3, m.1, h)
        else if st (m.1, h) = 2 then some (2, m.1, h)
        else none
    match headBad, ms.find? (fun e => st e == 3), ms.find? (fun e => st e == 2) with
    | some c, _, _ => some c
    | none, some e, _ => some (1, e.1, e.2)
    | none, none, some e => some (0, e.1, e.2)
    | none, none, none => none

/-- A string at the close of frame `f` (R145), and what protection does with it (R199, R211). -/
def stringClose (k f : Nat) (d : Dev) : Dev :=
  let ms := membersOf k d
  let x := strOf k d
  let bit (b : Bool) (d : Dev) : Dev := mask48BitPut F.ACQ_UNMEAS_LO_UNMEAS F.ACQ_UNMEAS_HI_UNMEAS k b d
  match ms with
  | [] => d
  | m :: _ =>
    let d := match headOf m.1 k d with
      | some h =>
        if freshIn m.1 h f d && headValid (posOf m.1 h d).burst then
          protHeadClosed k (currentRec (posOf m.1 h d).burst) d else d
      | none => d
    match unmeasuredCause k f d with
    | none =>
      if !x.once then bit false (strPut k { x with once := true, unmeas := 0 } d)
      else
        let d := bit false d
        if 0 < x.unmeas ∧ ms.all (fun e => freshIn e.1 e.2 f d) = true then
          record 0x0323 k x.unmeas f (strPut k { x with unmeas := 0 } d)
        else d
    | some (c, n, p) =>
      if !x.once then bit true d
      else if mask48Bit F.ACQ_UNMEAS_LO_UNMEAS F.ACQ_UNMEAS_HI_UNMEAS k d then
        strPut k { x with unmeas := x.unmeas + 1 } d
      else protUnmeasured k c n p (record 0x0322 k c f (bit true (strPut k { x with unmeas := x.unmeas + 1 } d)))

/-- The starved count of a string at the close of frame `f` (R148). -/
def starveClose (k f : Nat) (d : Dev) : Dev :=
  let x := strOf k d
  let n := if x.evalFrame = some f then (if x.unexcP && (x.unexcQ || !x.measQ) then x.starve + 1 else 0) else x.starve
  mask48BitPut F.ACQ_STARVED_LO_STARVED F.ACQ_STARVED_HI_STARVED k
    (seqState k d == 4 && decide (fget F.ACQ_EXC_CTRL_FRAMES d ≤ n)) (strPut k { x with starve := n } d)

/-- A break seen in missing positions (R117), and the two ends of a break from the coverage of the first frame after it. -/
def breakClose (n f : Nat) (d : Dev) : Dev :=
  let ps := positionsOf n d
  let c := chainOf n d
  let gap := ps.any (fun p => decide (2 ≤ (posOf n p d).silent) && ps.any (fun q => decide (p < q) && freshIn n q f d))
  let d := if gap then chainBreak n none none d else d
  match c.broken with
  | some b =>
    if c.breakTold || decide (sdiff32 f b < 0) then d
    else
      let lastA := (below 48 (fun p => maskBit c.gotA p)).getLast?
      let firstB := (below 48 (fun p => maskBit c.gotB p)).head?
      breakTell n true (chainPut n { c with breakLast := c.breakLast.or lastA, breakFirst := c.breakFirst.or firstB } d)
  | none => d

/-- DELAY_DERIVED, once per position and break, and CH_DLYSRC (R140). -/
def delayClose (n f : Nat) (d : Dev) : Dev :=
  each (positionsOf n d) (fun p d =>
    let der := match delayOf n p d with
      | .derived _ => true
      | _ => false
    let c := chainOf n d
    let d := mask48BitPut (F.ACQ_CH_DLYSRC_LO_DERIVED n) (F.ACQ_CH_DLYSRC_HI_DERIVED n) p der d
    if der && !maskBit c.derivedTold p then
      record 0x0327 n p f (chainPut n { c with derivedTold := maskPut c.derivedTold p true } d)
    else d) d

/-- A chain's registers at the close of frame `f`: coverage, counts and tail (R133, R153), and CHAIN_UP (R124). -/
def chainClose (n f : Nat) (d : Dev) : Dev :=
  let ps := positionsOf n d
  let fresh := ps.filter (fun p => freshIn n p f d)
  let cnt (st : Nat) : Nat := (ps.filter (fun p => fget (F.ACQ_POS_STATE n p) d == st)).length
  let (a, b, c) := (cnt 0, cnt 1, cnt 2 + cnt 3)
  let d := mask48Put (F.KZC_CH_COV_LO_COV n) (F.KZC_CH_COV_HI_COV n) (fresh.foldl (fun m p => m + 2 ^ p) 0) d
  let d := fset (F.ACQ_CH_FRM_LOST n) c (fset (F.ACQ_CH_FRM_STALE n) b (fset (F.ACQ_CH_FRM_FRESH n) a d))
  let d := fset (F.ACQ_CH_TAIL_LAST_EOF n) (tabGet (fun _ => 0) d.acq.lastEof n) d
  let x := chainOf n d
  if x.upDue && !fresh.isEmpty then
    record 0x0301 n (fget (F.KZC_CH_STAT_VER n) d) fresh.length (chainPut n { x with upDue := false } d)
  else d

/-- CHAIN_TAKEOVER at the close, when the highest expected position has not arrived (R37). -/
def takeoverClose (n : Nat) (d : Dev) : Dev :=
  let c := chainOf n d
  let got := below 48 (fun p => maskBit c.gotB p)
  match got.head?, got.getLast? with
  | some lo, some hi =>
    if c.takeoverDue && chState3 n d == 7 then takeoverRecord n hi lo d else d
  | _, _ => d

/-- The close of frame `f` for every chain, position and string (R143 to R145), and the registers of the close. -/
def acqClose (f : Nat) (d : Dev) : Dev :=
  let chains := chainsOn d
  let pos := chains.foldl (fun l n => l ++ (positionsOf n d).map (fun p => (n, p))) []
  let d := each pos (fun e => posClose e.1 e.2 f) d
  let d := each chains (delayClose · f) d
  let d := each pos (fun e => passPut e.1 e.2 f) d
  let d := each chains (fun n d => takeoverClose n (chainClose n f (breakClose n f d))) d
  let cnt (st : Nat) : Nat := (pos.filter (fun e => fget (F.ACQ_POS_STATE e.1 e.2) d == st)).length
  let (a, b, c) := (cnt 0, cnt 1, cnt 2 + cnt 3)
  let d := fset F.ACQ_COUNT_LOST c (fset F.ACQ_COUNT_STALE b (fset F.ACQ_COUNT_FRESH a d))
  let d := fset F.ACQ_FRAME_FRAME f (fput F.ACQ_STATUS_POOR d.acq.poorPrev (fput F.ACQ_STATUS_DIST d.ang.disturbedPrev d))
  let derived := chains.any (fun n => mask48 (F.ACQ_CH_DLYSRC_LO_DERIVED n) (F.ACQ_CH_DLYSRC_HI_DERIVED n) d != 0)
  let d := fput F.ACQ_INT_STAT_CLOSED true (fput F.ACQ_STATUS_DERIVED derived d)
  let d := { d with acq := { d.acq with closed := some f } }
  each (List.range 48) (fun k d => starveClose k f (stringClose k f d)) d

end Sys2Proof.Machine
end

