-- ==== Sys2Proof/Machine/Publish.lean ====
section
/-!
DEFINITION. Machine/Publish.lean: the published result set and its digests (R178 to R181), and the digest messages of a pair
(R33 to R35, R182).
-/

namespace Sys2Proof.Machine

/-! ### Published records (R178) -/

/-- A signed or unsigned 16-bit field of a value times `scale`. -/
def pubS (scale v : Nat) : List Byte := leBytes 2 (ofSigned 16 (f32Field (-32768) 32767 scale 1 v))

def pubU (scale v : Nat) : List Byte := leBytes 2 (f32Field 0 65535 scale 1 v).toNat

/-- The 32-byte record of a state block. -/
def pubRecord (m : List Host.Cell) (s : CellBlock) : List Byte :=
  let flags := leBytes 2 (statusWord s % 4096 + s.frames % 16 * 4096)
  if s.state = 5 then List.replicate 22 0 ++ flags ++ List.replicate 8 0
  else
    let rser := if f32Abs s.rgain = 0 then 0
      else f32Mul s.rgain (chemRser ⟨m.dropWhile (fun e => decide (e.1 < chemAt s.chem)), chemAt s.chem⟩ s.soc s.tempF)
    pubU 65536 s.soc ++ leBytes 2 (f32SqrtField s.p11) ++ pubS 100000 s.v1 ++ pubS 100000 s.v2 ++ pubU 4000000 rser
      ++ pubU 100 s.cap ++ pubS 4000000 s.zpRe ++ pubS 4000000 s.zpIm ++ pubS 4000000 s.zqRe ++ pubS 4000000 s.zqIm
      ++ leBytes 1 s.ordP ++ leBytes 1 s.ordQ ++ flags ++ pubS 100000 s.innov ++ pubS 16 s.tempF ++ leBytes 4 s.lastFrame

/-- The 24,576 state blocks. -/
def storeBlocks (m : List Host.Cell) : List CellBlock :=
  let chunks := memChunks storeBase 128 24576 0 (memFrom storeBase m)
  (List.range 24576).zip chunks |>.map (fun e => blockLoad e.2 e.1)

/-! ### Digests (R181) -/

/-- The result digest of chain `n` for frame `f` over the bytes of its 1,536 records. -/
def chainDigest (f n : Nat) (recs : List Byte) : Nat := crc32c (leBytes 4 f ++ [BitVec.ofNat 8 n, 0, 0, 0] ++ recs)

/-- The zone digest over the 16 chain digests. -/
def zoneDigest (ds : List Nat) : Nat := crc32c (ds.flatMap (leBytes 4))

/-- First address of result bank `b` (R179). -/
def bankAt (b : Nat) (d : Dev) : Nat := fget F.EST_BANK_BASE_BASE d * 256 + 0x100000 * b

/-- The coverage map of chain `n` (R182), with and without the secondary's unaligned positions. -/
def coverageOf (n : Nat) (d : Dev) : Nat × Nat :=
  let q := tabGet (fun _ => 0) d.est.queued n
  let ok := (below 48 (fun p => maskBit q p && !maskBit (tabGet (fun _ => 0) d.est.foreign n) p)).foldl (fun m p => m + 2 ^ p) 0
  let un := if d.pair.role = 4 then tabGet (fun _ => 0) d.est.unaligned n else 0
  ((below 48 (fun p => maskBit ok p && !maskBit un p)).foldl (fun m p => m + 2 ^ p) 0, ok)

/-! ### Messages of the partner (R33 to R35) -/

/-- The message is for a frame after the newest own one. -/
def digestEarly (msg : DigestMsg) (d : Dev) : Bool :=
  match d.pair.sets with
  | [] => true
  | o :: _ => decide (0 < sdiff32 msg.frame.toNat o.frame)

/-- DIGEST_MESSAGE (R34): judged now when the own set of its frame is kept; kept until then when it comes early. -/
def digestMessage (msg : DigestMsg) (m : List Host.Cell) (d : Dev) : List Host.Cell × Dev :=
  if !paired d then (m, d)
  else if msg.skip then digestMark msg { frame := msg.frame.toNat } m d
  else match d.pair.sets.find? (fun o => o.frame == msg.frame.toNat) with
    | some o => digestJudge msg o m d
    | none => if digestEarly msg d then (m, { d with pair := { d.pair with digests := (msg :: d.pair.digests).take 3 } }) else (m, d)

def execDigestMessage (msg : DigestMsg) (s : State) : Host.Outcome State Fault Refusal := onBoth (heardBoth (digestMessage msg)) s

/-- DIGEST_LATE (R33): a message that has not arrived by the end of frame N+2 is counted. -/
def digestLate (d : Dev) : Dev := { d with pair := { d.pair with lateDigests := d.pair.lateDigests + 1 } }

def execDigestLate (s : State) : Host.Outcome State Fault Refusal := onDev digestLate s

/-! ### The commit (R179) -/

/-- Every configured satellite is queued for the frame (R34, link version 1). -/
def wholeNow (d : Dev) : Bool :=
  (chainsOn d).all (fun n => (positionsOf n d).all (fun p => maskBit (tabGet (fun _ => 0) d.est.queued n) p))

/-- The digest message of the set just published (R33): by chains, or the zone digest alone on a link of version 1. -/
def digestOut (f : Nat) (ds : List Nat) (d : Dev) : Dev :=
  let v1 := fget F.PEER_STATUS_VER d == 1
  let msg : DigestMsg :=
    { frame := BitVec.ofNat 32 f
      chains := if v1 then [] else
        ((List.range 16).zip ds).map (fun e => (BitVec.ofNat 32 e.2, BitVec.ofNat 48 (d.est.coverage.getD e.1 0)))
      zone := BitVec.ofNat 32 (zoneDigest ds)
      complete := wholeNow d }
  if paired d then toPartner (.digest msg) d else d

/-- The primary's answer to an alignment request, as the blocks stand after its work (R183). -/
def alignSend (f : Nat) (m : List Host.Cell) (d : Dev) : Dev :=
  if d.est.alignReq = [] then d
  else
    let blocks := d.est.alignReq.map (fun e =>
      { chain := e.1, pos := e.2, bytes := memRead m (blockAt (cellIndex e.1 e.2 0)) 4096 : PosBlocks })
    let d := { d with est := { d.est with alignReq := [] } }
    if d.pair.role = 3 then toPartner (.alignTransfer f blocks) d else d

/-- The records of chain `n` in the order of its cells. -/
def pubRecs (m : List Host.Cell) (n : Nat) : List Byte := (((storeBlocks m).drop (1536 * n)).take 1536).flatMap (pubRecord m)

/-- The digests of the sixteen chains for frame `f`. -/
def pubDigests (f : Nat) (m : List Host.Cell) : List Nat := (List.range 16).map (fun n => chainDigest f n (pubRecs m n))

/-- The coverage of the sixteen chains. -/
def pubCoverage (d : Dev) : List (Nat × Nat) := (List.range 16).map (fun n => coverageOf n d)

/-- The sequence number and the bank of the next published set. -/
def pubSeq (d : Dev) : Nat := (fget F.EST_PUB_SEQ_SEQ d + 1) % 2 ^ 32
def pubBank (d : Dev) : Nat := 1 - fget F.EST_STATUS_PUB_BANK d

/-- The published set of frame `f`: its header and the records. -/
def pubImage (f : Nat) (m : List Host.Cell) (d : Dev) : List Byte :=
  let ds := pubDigests f m
  let header := leBytes 4 f ++ leBytes 4 (pubSeq d) ++ ds.flatMap (leBytes 4) ++ (pubCoverage d).flatMap (fun c => leBytes 8 c.1)
    ++ leBytes 4 (zoneDigest ds) ++ List.replicate 52 0
  header ++ (List.range 16).flatMap (pubRecs m)

/-- The registers show the published set of frame `f`. -/
def pubShow (f : Nat) (m : List Host.Cell) (d : Dev) : Dev :=
  let blocks := storeBlocks m
  let ds := pubDigests f m
  let cov := pubCoverage d
  let seq := pubSeq d
  let bank := pubBank d
  let cnt (p : CellBlock → Bool) : Nat := min 65535 (blocks.filter p).length
  let d := { d with est := { d.est with pub := none, stale := false, coverage := cov.map (·.1) } }
  let d := fset F.EST_STATUS_PUB_BANK bank (fset F.EST_PUB_SEQ_SEQ seq (fset F.EST_PUB_FRAME_FRAME f d))
  let d := fset F.EST_CNT_A_PREDICTED (cnt (·.state == 1)) (fset F.EST_CNT_A_UPDATED (cnt (·.state == 0)) d)
  let d := fset F.EST_CNT_B_INVALID (cnt (·.state == 3)) (fset F.EST_CNT_B_HELD (cnt (·.state == 2)) d)
  let d := fset F.EST_CNT_C_RECOMPUTED (cnt (·.recomputed)) (fset F.EST_CNT_C_REINIT (cnt (·.state == 4)) d)
  let d := fset F.EST_CYC_LANE_CYC (min d.est.cycles (2 ^ 32 - 1)) d
  let d := each ((List.range 16).zip ds) (fun e => fset (F.EST_DIGEST_DIGEST e.1) e.2) d
  fput F.EST_INT_STAT_PUBLISHED true (fset F.EST_ZONE_DIGEST_DIGEST (zoneDigest ds) d)

/-- The own set of frame `f` as the partner's message meets it. -/
def pubOwn (f : Nat) (m : List Host.Cell) (d : Dev) : OwnSet :=
  let ds := pubDigests f m
  { frame := f, published := true, digests := ds, zone := zoneDigest ds, coverage := (pubCoverage d).map (·.1)
    test := (pubCoverage d).map (·.2), whole := wholeNow d }

/-- PUBLISH_COMMIT (R179): the set of frame `f` stands in the bank not published, and is published in this tick. -/
def publishCommit (m : List Host.Cell) (d : Dev) : List Host.Cell × Dev :=
  match d.est.pub with
  | none => (m, d)
  | some f => ownDone (pubOwn f m d) (memPlace (bankAt (pubBank d) d) (pubImage f m d) m)
      (badCovered (bankAt (pubBank d) d) (pubImage f m d).length (alignSend f m (digestOut f (pubDigests f m) (pubShow f m d))))

def execPublishCommit (s : State) : Host.Outcome State Fault Refusal := onBlkBoth 5 publishCommit s

end Sys2Proof.Machine
end

