-- ==== Sys2Proof/Machine/Angle.lean ====
section
/-!
DEFINITION. Machine/Angle.lean: the grid angle (02): slots, corrections of the timestamp, the tracker, the angle sources, and the
cycle boundary.
-/

namespace Sys2Proof.Machine

def angPut (a : Ang) (d : Dev) : Dev := { d with ang := a }

/-- A meaning that acts in ANG: none while the block stands, in S2, S3 and S4 (R43). -/
def onAng (f : Dev → Dev) (s : State) : Host.Outcome State Fault Refusal := onDev (fun d => if clocksRun d then f d else d) s

/-! ### Slots (R76 to R79) -/

/-- The target of a slot as a timestamp. -/
def slotTarget (n : Nat) (d : Dev) : Nat := fget (F.SLOT_CYC_CYC n) d * 65536 + fget (F.SLOT_CNT_CNT n) d

/-- The order of two timestamps by the signed difference of R41: negative when `a` lies before `b`. -/
def tsOrder (a b : Nat) : Int := sdiff32 (a / 65536) (b / 65536) * 65536 + (a % 65536 : Nat) - (b % 65536 : Nat)

/-- A slot can fire: enabled, a mode of R76, and an action. -/
def slotArmed (n : Nat) (d : Dev) : Bool :=
  flag (F.SLOT_CTRL_EN n) d && fget (F.SLOT_CTRL_MODE n) d != 3 && fget (F.SLOT_CTRL_ACTION n) d != 3

/-- A trigger at its target: 0x04 the SYNC trigger, 0x06 the PROT step (R99, R209); the target code is the slot index of the block. -/
def trigger (target n : Nat) (d : Dev) : Dev :=
  let d := send (.trigger target n) d
  match target with
  | 4 => syncTrigger d
  | 6 => if stepSlot n d then protStep d else d
  | _ => d

/-- Slot `n` fires (R77, R78). -/
def slotFire (n : Nat) (late : Bool) (d : Dev) : Dev :=
  if !slotArmed n d then d
  else
    let act := fget (F.SLOT_CTRL_ACTION n) d
    let tl := fget (F.SLOT_CTRL_TRESTLE n) d
    let target := fget (F.SLOT_CTRL_TARGET n) d
    let d := finc (F.SLOT_STAT_FIRE_CNT n) (fput (F.SLOT_STAT_LATE n) late (fput (F.SLOT_STAT_FIRED n) true d))
    let d := if fget (F.SLOT_CTRL_MODE n) d = 0 then fput (F.SLOT_CTRL_EN n) false d else d
    let d := angPut { d.ang with slotAt := tabSet (fun _ => 0) d.ang.slotAt n (tsNow d + 1) } d
    let d := if late then record 0x0213 n (fget (F.SLOT_CYC_CYC n) d) (cycleNow d) d else d
    let d := if act ≠ 1 ∧ tl < 5 then send (.slotIrq tl n) d else d
    if act ≠ 0 then trigger target n d else d

/-- A slot has not fired yet at the present timestamp. -/
def slotFresh (n : Nat) (d : Dev) : Bool := tabGet (fun _ => 0) d.ang.slotAt n != tsNow d + 1

/-- The cycle is one of the slot's. -/
def slotCycle (n c : Nat) (d : Dev) : Bool :=
  let cyc := fget (F.SLOT_CYC_CYC n) d
  match fget (F.SLOT_CTRL_MODE n) d with
  | 0 => cyc == c
  | 1 => true
  | _ => (c + 2 ^ 32 - cyc) % 2 ^ 32 % max 1 (fget (F.SLOT_CTRL_PERIOD n) d) == 0

/-- The slots whose target is count `c` of the present cycle fire, in ascending order (R77), each once. -/
def slotsAt (c : Nat) (d : Dev) : Dev :=
  each (below 32 (fun k => fget (F.SLOT_CNT_CNT k) d == c && slotArmed k d && slotCycle k (cycleNow d) d)) (fun k d =>
    if slotFresh k d then slotFire k false d else d) d

/-- SLOT_FIRE: time passes until the timestamp reaches the slot's target in the present cycle, and what has its target there fires. -/
def slotReach (n : Nat) (d : Dev) : Dev :=
  let c := fget (F.SLOT_CNT_CNT n) d
  if slotArmed n d && slotCycle n (cycleNow d) d && decide (countNow d ≤ c) && !flag F.ANG_STATUS_HELD d then
    slotsAt c (advanceTo c d)
  else d

def execSlotFire (n : Fin 32) (s : State) : Host.Outcome State Fault Refusal := onAng (slotReach n.val) s

/-- The timestamps at which slots fire in the range above `old` up to `new`, at most one cycle on: targets in order, then slots. -/
def slotsSkipped (old new : Nat) (d : Dev) : List (Nat × Nat) :=
  let hits := (below 32 (fun n => slotArmed n d)).flatMap (fun n =>
    [old / 65536, old / 65536 + 1].filterMap (fun c =>
      let ts := c * 65536 + fget (F.SLOT_CNT_CNT n) d
      if old < ts ∧ ts ≤ new ∧ slotCycle n (c % 2 ^ 32) d = true then some (ts, n) else none))
  hits.mergeSort (fun a b => decide (a.1 < b.1 ∨ (a.1 = b.1 ∧ a.2 ≤ b.2)))

/-- A ONCE slot whose target is not ahead of the timestamp fires, late when it lies before it (R78). -/
def slotLate (n : Nat) (d : Dev) : Dev :=
  if slotArmed n d && fget (F.SLOT_CTRL_MODE n) d == 0 then
    let o := tsOrder (slotTarget n d) (tsNow d)
    if o < 0 then slotFire n true d else if o = 0 then slotFire n false d else d
  else d

/-- SLOT_CTRL_WRITE: word `v` to register `reg` of slot `n` (0 CTRL, 1 CYC, 2 CNT, 3 STAT); it commits in its own tick. -/
def slotWrite (n reg v : Nat) (d : Dev) : Dev :=
  match reg with
  | 0 => slotLate n (regPut (R.SLOT_CTRL n) (BitVec.ofNat 32 (v &&& 0xFFF03FFF)) d)
  | 1 => slotLate n (fset (F.SLOT_CYC_CYC n) v d)
  | 2 => slotLate n (fset (F.SLOT_CNT_CNT n) v d)
  | _ =>
    let d := if v.testBit 0 then fput (F.SLOT_STAT_FIRED n) false d else d
    if v.testBit 1 then fput (F.SLOT_STAT_LATE n) false d else d

def execSlotCtrlWrite (n : Fin 32) (reg : Fin 4) (v : Word) (s : State) : Host.Outcome State Fault Refusal :=
  onAng (slotWrite n.val reg.val v.toNat) s

/-- A slot of the management engine kept in EVERY mode at count `cnt`, triggering `target` (R134, R209). -/
def slotKeep (n target cnt : Nat) (d : Dev) : Dev :=
  fset (F.SLOT_CNT_CNT n) cnt (fset (F.SLOT_CTRL_TARGET n) target (fset (F.SLOT_CTRL_ACTION n) 1 (fset (F.SLOT_CTRL_MODE n) 1
    (fput (F.SLOT_CTRL_EN n) true d))))

/-- The slots that the management engine keeps: the SYNC trigger at ACQ_SYNC.CNT (R134) and the step slot at PROT_HOLD.STEP_CNT (R209),
each one of SLOT_0 to SLOT_7. Which ones is the model's choice (notes/assumptions/68.md). -/
def engineSlots (d : Dev) : Dev := slotKeep 1 6 (fget F.PROT_HOLD_STEP_CNT d) (slotKeep 0 4 (fget F.ACQ_SYNC_CNT d) d)

/-! ### Rates (R40, R53, R61) -/

/-- The increment of a frequency in µHz, and the frequency of an increment. -/
def incOf (f : Nat) : Nat := (2 * f * 2 ^ 48 + 10 ^ 14) / (2 * 10 ^ 14)
def freqOf (inc : Nat) : Nat := (2 * inc * 10 ^ 14 + 2 ^ 48) / 2 ^ 49

/-- ANG_INC: the base increment with the slew correction in force. -/
def angRate (d : Dev) : Dev :=
  let b := d.ang.incBase
  let part := b * fget F.ANG_JUMP_SLEW_MAX d / 65536
  let inc := if !flag F.ANG_STATUS_SLEWING d || d.ang.slewLeft == 0 then b
    else if 0 < d.ang.slewLeft then b + part else b - part
  fset F.ANG_INC_INC (max 1 inc) d

def incPut (b : Nat) (d : Dev) : Dev := angRate (angPut { d.ang with incBase := max 1 b } d)

/-- The mean of a list of frequencies; the nominal frequency where it is empty. -/
def freqMean (l : List Nat) (d : Dev) : Nat :=
  if l.isEmpty then fget F.ANG_NOM_FREQ_NOM d else l.foldl (· + ·) 0 / l.length

/-! ### Corrections of the timestamp (R52 to R56) -/

/-- The kept differences move with the timestamp. -/
def diffShift (e : Int) (d : Dev) : Dev :=
  angPut { d.ang with diffLine := d.ang.diffLine - e, diffPeer := d.ang.diffPeer - e, diffPtp := d.ang.diffPtp - e
                      peerLast := d.ang.peerLast.map (· - e) } d

/-- A correction under the step rules of R54: a forward one skips counts and fires what it skips, a backward one holds. -/
def angStep (e : Int) (d : Dev) : Dev :=
  if e = 0 then d
  else
    let d := angPut { d.ang with disturbed := true } (diffShift e d)
    -- a forward error during a hold shortens it first
    let cut : Int := if 0 < e ∧ flag F.ANG_STATUS_HELD d = true then min e (d.ang.hold / 2 ^ 32) else 0
    let d := angPut { d.ang with hold := d.ang.hold - cut.toNat * 2 ^ 32 } d
    let e := e - cut
    if e = 0 then d
    else if 0 < e then
      let old := d.ang.acc >>> 32
      let acc := d.ang.acc + e.toNat * 2 ^ 32
      let hits := slotsSkipped old (acc >>> 32) d
      let d := angPut { d.ang with acc := acc % 2 ^ 80, wrapped := d.ang.wrapped || decide (old / 65536 ≠ acc >>> 48) } d
      each hits (fun h d => if slotFresh h.2 d then slotFire h.2 false d else d) d
    else fput F.ANG_STATUS_HELD true (angPut { d.ang with hold := d.ang.hold + e.natAbs * 2 ^ 32 } d)

/-- The part of a slew that the cycle has made up to count `c`: at most SLEW_MAX in a whole cycle (R53). It moves the timestamp, and the
kept differences with it. -/
def slewReckon (c : Nat) (d : Dev) : Dev :=
  if !flag F.ANG_STATUS_SLEWING d then angPut { d.ang with slewAt := c } d
  else
    let most : Int := (fget F.ANG_JUMP_SLEW_MAX d * (c - d.ang.slewAt) / 65536 : Nat)
    let done := max (-most) (min most d.ang.slewLeft)
    let d := diffShift done d
    angPut { d.ang with slewLeft := d.ang.slewLeft - done, slewAt := c } d

/-- A correction at the slew limit, in addition to one under way (R53). -/
def angSlew (e : Int) (d : Dev) : Dev :=
  let d := slewReckon (countNow d) d
  angRate (fput F.ANG_STATUS_SLEWING true (angPut { d.ang with slewLeft := d.ang.slewLeft + e, disturbed := true } d))

/-- A phase jump: recorded, and corrected in the configured mode. -/
def phaseJump (e : Int) (p2 : Nat) (d : Dev) : Dev :=
  let d := recordC 0x0202 (ofSigned 32 e) p2 d
  if flag F.ANG_CTRL_JUMP_MODE d then angStep e d else angSlew e d

/-- A difference beyond the threshold is a phase jump, a smaller one is left to the loop. -/
def jumpOr (e : Int) (d : Dev) : Dev :=
  if fget F.ANG_JUMP_THR d < e.natAbs then phaseJump e (fget F.ANG_STATUS_REF_PHASE d) d else d

/-- TIMESTAMP_HOLD_END: time passes until the tracked angle reaches the held timestamp. -/
def holdEnd (d : Dev) : Dev :=
  if !flag F.ANG_STATUS_HELD d then d
  else
    let d := advance (ticksFor d.ang.hold d) d
    fput F.ANG_STATUS_HELD false (angPut { d.ang with hold := 0 } d)

def execTimestampHoldEnd (s : State) : Host.Outcome State Fault Refusal := onAng holdEnd s

/-! ### Sources (R57, R58, R61, R63) -/

def angSrc (d : Dev) : Nat := fget F.ANG_STATUS_SRC d

/-- Source `k` of 1 to 3 is enabled and qualified. -/
def srcOk (k : Nat) (d : Dev) : Bool :=
  match k with
  | 1 => flag F.ANG_CTRL_LINE_EN d && flag F.ANG_STATUS_LINE_Q d
  | 2 => flag F.ANG_CTRL_PEER_EN d && flag F.ANG_STATUS_PEER_Q d
  | 3 => flag F.ANG_CTRL_PTP_EN d && flag F.ANG_STATUS_PTP_Q d
  | _ => false

/-- Source `k` has stayed qualified for REQUAL cycles. -/
def srcRipe (k : Nat) (d : Dev) : Bool :=
  let n := match k with
    | 1 => d.ang.qualLine
    | 2 => d.ang.qualPeer
    | _ => d.ang.qualPtp
  srcOk k d && decide (fget F.ANG_QUAL_REQUAL d ≤ n)

/-- The source to be taken now. While the source in use is disqualified and a higher one is qualified but not yet for REQUAL cycles,
R58 gives no move to the higher one and names no other: a lower one or HOLDOVER is taken. DESIGN CHOICE (notes/assumptions/59.md). -/
def srcNext (d : Dev) : Nat :=
  let cur := angSrc d
  if flag F.ANG_CTRL_FORCE_HOLD d then 4
  else if cur = 0 then ([1, 2, 3].find? (fun k => srcOk k d)).getD 0
  else
    let held := decide (cur ≤ 3) && srcOk cur d
    match [1, 2, 3].find? (fun k => decide (k < cur) && srcRipe k d) with
    | some k => k
    | none => if held then cur else ([1, 2, 3].find? (fun k => decide (cur < k) && srcOk k d)).getD (if d.ang.everOk then 4 else 0)

/-- The difference kept for a source. -/
def srcDiff (k : Nat) (d : Dev) : Int :=
  match k with
  | 1 => d.ang.diffLine
  | 2 => d.ang.diffPeer
  | _ => d.ang.diffPtp

/-- SLEW_COMPLETE. -/
def slewComplete (d : Dev) : Dev :=
  angRate (fput F.ANG_STATUS_SLEWING false (angPut { d.ang with slewLeft := 0 } d))

def execSlewComplete (s : State) : Host.Outcome State Fault Refusal := onAng slewComplete s

/-- What is left of a slew for the source given up is not made: the difference kept for the source taken has it in it (R58). -/
def slewDrop (d : Dev) : Dev := if flag F.ANG_STATUS_SLEWING d then slewComplete (slewReckon (countNow d) d) else d

/-- A change of source: recorded; holdover entered with `cause` or left; the difference of the source taken is corrected. -/
def srcTake (new cause : Nat) (d : Dev) : Dev :=
  let old := angSrc d
  if new = old then d
  else
    let d := recordC 0x0201 old new (fset F.ANG_STATUS_SRC new d)
    let d := if old = 4 then recordC 0x0208 (fget F.ANG_HOLD_CYC_CYC d) new (fput F.ANG_STATUS_HOLD_WARN false d) else d
    if new = 4 then
      let f := max 45000000 (min 66000000 (freqMean d.ang.srcFreqs d))
      let d := fput F.ANG_STATUS_QUALIFIED true (fset F.ANG_HOLD_CYC_CYC 0 (fput F.ANG_STATUS_HOLD_WARN false d))
      recordC 0x0207 f (if flag F.ANG_CTRL_FORCE_HOLD d then 3 else cause) (incPut (incOf f) d)
    else if new = 0 then fput F.ANG_STATUS_QUALIFIED false (incPut (incOf (fget F.ANG_NOM_FREQ_NOM d)) d)
    else
      let d := slewDrop (fput F.ANG_STATUS_QUALIFIED true d)
      let d := fset F.ANG_PHASE_ERR_ERR (ofSigned 16 (srcDiff new d)) d
      if old = 0 then angStep (srcDiff new d) d else jumpOr (srcDiff new d) d

/-- Source selection. -/
def angSelect (cause : Nat) (d : Dev) : Dev := srcTake (srcNext d) cause d

/-- A source's qualification changes; its cycles start again. -/
def srcQual (k : Nat) (q : Bool) (d : Dev) : Dev :=
  let d := angPut { d.ang with everOk := d.ang.everOk || q } d
  match k with
  | 1 => fput F.ANG_STATUS_LINE_Q q (if q then d else angPut { d.ang with qualLine := 0 } d)
  | 2 => fput F.ANG_STATUS_PEER_Q q (if q then d else angPut { d.ang with qualPeer := 0 } d)
  | _ => fput F.ANG_STATUS_PTP_Q q (if q then d else angPut { d.ang with qualPtp := 0 } d)

/-- FORCE_HOLD: a write of ANG_CTRL.FORCE_HOLD. -/
def forceHold (on : Bool) (d : Dev) : Dev := angSelect 3 (fput F.ANG_CTRL_FORCE_HOLD on d)

def execForceHold (on : Bool) (s : State) : Host.Outcome State Fault Refusal := onAng (forceHold on) s

/-- HOLD_WARN (R61). -/
def holdWarn (d : Dev) : Dev :=
  if angSrc d = 4 ∧ fget F.ANG_HOLD_WARN d ≤ fget F.ANG_HOLD_CYC_CYC d then fput F.ANG_STATUS_HOLD_WARN true d else d

def execHoldWarn (s : State) : Host.Outcome State Fault Refusal := onAng holdWarn s

/-- ANGLE_UNQUALIFIED (R61). -/
def unqualified (d : Dev) : Dev :=
  if angSrc d = 4 ∧ fget F.ANG_HOLD_MAX d ≤ fget F.ANG_HOLD_CYC_CYC d ∧ flag F.ANG_STATUS_QUALIFIED d = true then
    recordC 0x0209 4 (fget F.ANG_HOLD_CYC_CYC d) (fput F.ANG_STATUS_QUALIFIED false d)
  else d

def execAngleUnqualified (s : State) : Host.Outcome State Fault Refusal := onAng unqualified s

/-! ### The tracker (R44 to R51) -/

def angTrk (d : Dev) : Nat := fget F.ANG_STATUS_TRK d
def angRef (d : Dev) : Nat := fget F.ANG_STATUS_REF_PHASE d

/-- Phase `i`, 0 A, 1 B, 2 C. -/
def phaseOf (i : Nat) (d : Dev) : PhaseBand :=
  match i with
  | 0 => d.ang.phA
  | 1 => d.ang.phB
  | _ => d.ang.phC

def phasePut (i : Nat) (x : PhaseBand) (d : Dev) : Dev :=
  match i with
  | 0 => angPut { d.ang with phA := x } d
  | 1 => angPut { d.ang with phB := x } d
  | _ => angPut { d.ang with phC := x } d

/-- A phase may serve as reference: classified outside LOSS, and B and C only without ROT_ERR (R45). -/
def phaseUsable (i : Nat) (d : Dev) : Bool :=
  (phaseOf i d).band != 3 && (phaseOf i d).band != 5 && (i == 0 || !flag F.ANG_STATUS_ROT_ERR d)

/-- LINE_Q follows the tracker (R57). -/
def lineQual (d : Dev) : Dev :=
  let q := decide (2 ≤ angTrk d) && !d.ang.lineOut && !d.ang.freqOut
  let was := flag F.ANG_STATUS_LINE_Q d
  if q = was then d
  else srcQual 1 q (if q then d else angPut { d.ang with lineOut := true, lineOk := 0 } d)

/-- The tracker's state; in SEARCH nothing is measured (R86). -/
def trkPut (st : Nat) (d : Dev) : Dev :=
  let d := fset F.ANG_STATUS_TRK st (angPut { d.ang with pullOk := 0, rideOk := 0 } d)
  if st = 0 then fset F.ANG_FREQ_MEAS_FREQ 0 (angPut { d.ang with freqs := [] } d) else d

/-- The offset of R49 that the configured rotation implies for reference phase `i`: a third of a cycle is 21,845 counts, two are
43,691, to the nearest. R49 gives the angle and no rounding: DESIGN CHOICE (notes/assumptions/63.md). -/
def phaseOffset (i : Nat) (d : Dev) : Int :=
  match i, flag F.ANG_CTRL_ROT d with
  | 0, _ => 0
  | 1, false => 21845
  | 1, true => 43691
  | _, false => 43691
  | _, true => 21845

/-- BAND: that of the reference phase; 3 while it is unclassified. -/
def bandShow (d : Dev) : Dev :=
  let b := (phaseOf (angRef d) d).band
  fset F.ANG_STATUS_BAND (if b = 5 then 3 else b) d

/-- The reference moves to phase `i`. -/
def refMove (i : Nat) (d : Dev) : Dev :=
  let old := angRef d
  let d := if i = 0 then angPut { d.ang with aWait := none } d else d
  if old = i then d else recordC 0x020A old i (fset F.ANG_STATUS_REF_PHASE i d)

/-- Phase A may be the reference again: usable, which after LOSS it is once it has stayed outside it for REQUAL cycles, and, given up in
COAST, back above COAST for as long (R47, R49). -/
def aReturns (d : Dev) : Bool := phaseUsable 0 d && d.ang.aWait.isNone

/-- The tracker's state follows the band of its reference while it tracks. -/
def trkBand (d : Dev) : Dev :=
  if angTrk d < 2 then d
  else match (phaseOf (angRef d) d).band, angTrk d with
    | 1, 2 => trkPut 3 d
    | 2, 2 => trkPut 4 d
    | 2, 3 => trkPut 4 d
    | 2, _ => d
    | 1, 4 => trkPut 3 d
    | 0, 4 => trkPut 3 d
    | 4, 4 => trkPut 3 d
    | _, _ => d

/-- The reference is lost (R49): back to phase A where it may return, else to B, else to C; with none usable line sense is disqualified.
`skip` is the phase given up. -/
def refLost (skip : Nat) (d : Dev) : Dev :=
  match [0, 1, 2].find? (fun i => i != skip && (if i == 0 then aReturns d else phaseUsable i d)) with
  | some i => trkBand (refMove i d)
  | none => trkPut 0 d

/-- One phase classified: its band, and the sags and swells of R50. -/
def phaseClassify (i amp : Nat) (d : Dev) : Dev :=
  let x := phaseOf i d
  let raw := if fget F.ANG_THR_SWELL d * 100 < amp then 4
    else if fget F.ANG_THR_SAG d * 100 ≤ amp then 0
    else if fget F.ANG_THR_COAST d * 100 ≤ amp then 1
    else if fget F.ANG_THR_LOSS d * 100 ≤ amp then 2
    else 3
  let band := if x.band = 3 then 3 else raw
  phasePut i { x with raw, band, requal := if raw = 3 then 0 else x.requal } d

/-- What a change of a phase's band records (R50): `old` the band before, `amp` its amplitude. -/
def phaseEvents (i old amp : Nat) (d : Dev) : Dev :=
  let x := phaseOf i d
  let good (b : Nat) : Bool := b == 0 || b == 4
  let d := match x.sagAt with
    | some c =>
      if good x.band then
        recordC 0x0204 i ((cycleNow d + 2 ^ 32 - c) % 2 ^ 32) (phasePut i { x with sagAt := none } d)
      else d
    | none =>
      if good old && !good x.band then
        recordC 0x0203 i (amp / 100) (phasePut i { x with sagAt := some (cycleNow d) } d)
      else d
  let x := phaseOf i d
  match x.swellAt with
  | some c =>
    if x.band = 4 then d
    else recordC 0x0206 i ((cycleNow d + 2 ^ 32 - c) % 2 ^ 32) (phasePut i { x with swellAt := none } d)
  | none =>
    if x.band = 4 ∧ old ≠ 4 then recordC 0x0205 i (amp / 100) (phasePut i { x with swellAt := some (cycleNow d) } d) else d

/-- The tracker acts on the bands as they stand: the reference lost, phase A back, and the state by band. -/
def trkAct (d : Dev) : Dev :=
  let d := if angTrk d = 0 then d
    else if !phaseUsable (angRef d) d then refLost (angRef d) d
    else if angRef d ≠ 0 ∧ aReturns d = true then trkBand (refMove 0 d)
    else trkBand d
  angSelect 0 (lineQual (bandShow d))

/-- BAND_CLASSIFY (R46): amplitudes in hundredths of a percent. -/
def bandClassify (m : Amplitudes) (d : Dev) : Dev :=
  let show' (a : Nat) : Nat := min 255 (a / 100)
  let d := fset F.ANG_AMPL_AMPL_C (show' m.c) (fset F.ANG_AMPL_AMPL_B (show' m.b) (fset F.ANG_AMPL_AMPL_A (show' m.a) d))
  let d := each [(0, m.a), (1, m.b), (2, m.c)] (fun e d =>
    let old := (phaseOf e.1 d).band
    phaseEvents e.1 old e.2 (phaseClassify e.1 e.2 d)) d
  trkAct d

def execBandClassify (m : Amplitudes) (s : State) : Host.Outcome State Fault Refusal := onAng (bandClassify m) s

/-- COAST_MAX_EXPIRY (R47): line sense disqualified, the reference treated as lost. -/
def coastMax (d : Dev) : Dev :=
  if angTrk d ≠ 4 then d
  else
    let aWait := if angRef d = 0 then some 0 else d.ang.aWait
    let d := srcQual 1 false (angPut { d.ang with lineOut := true, lineOk := 0, aWait } d)
    angSelect 1 (lineQual (bandShow (refLost (angRef d) d)))

def execCoastMaxExpiry (s : State) : Host.Outcome State Fault Refusal := onAng coastMax s

/-! ### The partner's angle (R59, R66) -/

/-- ANGLE_MESSAGE_SEND. -/
def angleSend (d : Dev) : Dev :=
  if d.pair.mode = 0 then d
  else toPartner (.angleMessage (tsNow d) (angSrc d) (angSrc d == 1 || angSrc d == 3)) d

def execAngleMessageSend (s : State) : Host.Outcome State Fault Refusal := onAng angleSend s

/-- A difference in counts taken into half a cycle either way. -/
def halfTurn (e : Int) : Int := toSigned 16 (ofSigned 16 e)

/-- The partner's cycle number compared (R66): `e` the partner's timestamp minus the own one. R66 does not say whether the four
differences must be equal: four messages with any whole-cycle difference count together, and the last one's is taken. DESIGN CHOICE
(notes/assumptions/60.md). -/
def relabelWatch (e : Int) (d : Dev) : Dev :=
  let k := (e - halfTurn e) / 65536
  let run := if k = 0 then 0 else d.ang.relabelRun + 1
  let due := run ≥ 4 && d.pair.role == 4
  angPut { d.ang with relabelRun := if due then 0 else run, relabelBy := if due then some k else d.ang.relabelBy } d

/-- The source is selected again after a measurement of source `k`; a source that stays in use shows its difference and follows it. -/
def angFollow (k : Nat) (diff : Int) (d : Dev) : Dev :=
  let was := angSrc d
  let d := angSelect 0 d
  if was = k ∧ angSrc d = k then
    let d := fset F.ANG_PHASE_ERR_ERR (ofSigned 16 diff) d
    if flag F.ANG_STATUS_SLEWING d || flag F.ANG_STATUS_HELD d then d else jumpOr diff d
  else d

/-- PEER_ANGLE_MESSAGE: the partner's timestamp, corrected by half the round trip of PEER_RTT, and whether it is usable. -/
def angleMessage (ts : Nat) (usable : Bool) (d : Dev) : Dev :=
  if d.pair.mode = 0 ∨ peerUp d = false then d else
  let half := fget F.PEER_RTT_RTT d * fget F.ANG_INC_INC d / (20 * 2 ^ 32)
  let e := toSigned 48 ((ts + half + 2 ^ 48 - tsNow d) % 2 ^ 48)
  let diff := halfTurn e
  let good := match d.ang.peerLast with
    | some l => if (halfTurn (diff - l)).natAbs ≤ 91 then d.ang.peerGood + 1 else 1
    | none => 1
  let d := angPut { d.ang with peerGood := if usable then min good 16 else 0, peerLast := some diff, diffPeer := diff } d
  let d := relabelWatch e d
  let d := if !usable then srcQual 2 false d else if 16 ≤ d.ang.peerGood then srcQual 2 true d else d
  angFollow 2 diff d

def execPeerAngleMessage (ts : BitVec 48) (usable : Bool) (s : State) : Host.Outcome State Fault Refusal :=
  onAng (angleMessage ts.toNat usable) s

/-- PEER is lost: PEER_ANGLE_MISSING, the fourth message in a row, and the peer link's going down. -/
def peerAngleLost (d : Dev) : Dev := angSelect 0 (srcQual 2 false (angPut { d.ang with peerGood := 0, peerLast := none } d))

def execPeerAngleMissing (s : State) : Host.Outcome State Fault Refusal := onAng peerAngleLost s

/-! ### Host time (R57, R60) -/

/-- The count that host time gives (R60). -/
def ptpCount (t : PtpTime) (d : Dev) : Nat :=
  let p := d.ang.ptpUse
  let ns : Int := ((t.sec : Int) - p.sec) * 1000000000 + t.ns - p.ns
  ((ns * p.freq % 1000000000000000) * 65536 / 1000000000000000).toNat

/-- A signed 32-bit value that saturates. -/
def clamp32 (i : Int) : Int := max (-(2 ^ 31)) (min (2 ^ 31 - 1) i)

/-- PTP_SYNC: a Sync interval of a port, its offset from the grandmaster in ns, and host time; ANG uses the selected port. -/
def ptpSync (port : Nat) (offset : Int) (t : PtpTime) (d : Dev) : Dev :=
  let d := fset (F.ETH_PTP_OFS_OFS port) (ofSigned 32 (clamp32 offset)) d
  if port ≠ fget F.ANG_CTRL_PTP_PORT d then d
  else
    let good := if offset.natAbs ≤ 10000 then min 16 (d.ang.ptpGood + 1) else 0
    let diff := halfTurn ((ptpCount t d : Int) - (countNow d : Nat))
    let d := angPut { d.ang with ptpGood := good, diffPtp := diff } d
    let d := if good = 0 then srcQual 3 false d
      else if 16 ≤ good ∧ flag (F.ETH_STATUS_PTP_SYNC port) d = true then srcQual 3 true d else d
    angFollow 3 diff d

def execPtpSync (port : Fin 2) (offset : Int) (t : PtpTime) (s : State) : Host.Outcome State Fault Refusal :=
  onAng (ptpSync port.val offset t) s

/-- PTP is lost: PTP_SYNC_MISSING, the third interval in a row, and the port's loss of synchronisation. -/
def ptpLost (d : Dev) : Dev := angSelect 0 (srcQual 3 false (angPut { d.ang with ptpGood := 0 } d))

def execPtpSyncMissing (s : State) : Host.Outcome State Fault Refusal := onAng ptpLost s

/-- ANG_PTP_COMMIT (R60, R89): void with a value outside its range. The shadows are checked and copied as they stand at the write of
COMMIT, and a shadow written between it and the boundary is not taken: R60 and R89 do not say which. DESIGN CHOICE
(notes/assumptions/58.md). -/
def ptpCommit (d : Dev) : Dev :=
  let ns := fget F.ANG_PTP_EPOCH_NS_NS d
  let f := fget F.ANG_PTP_FREQ_FREQ d
  if ns < 1000000000 ∧ 45000000 ≤ f ∧ f ≤ 66000000 then
    let sec := fget F.ANG_PTP_EPOCH_S_LO_S_LO d + fget F.ANG_PTP_EPOCH_S_HI_S_HI d * 2 ^ 32
    angPut { d.ang with ptpNext := some ⟨sec, ns, f⟩ } d
  else d

def execAngPtpCommit (s : State) : Host.Outcome State Fault Refusal := onAng ptpCommit s

/-- ANG_NOW_LO_READ (R42): bits [47:32] are latched for the trestle. -/
def nowLoRead (t : Nat) (d : Dev) : Dev :=
  let ts := tsNow d
  send (.readData t R.ANG_NOW_LO (ts % 2 ^ 32))
    (angPut { d.ang with nowHi := tabSet (fun _ => 0) d.ang.nowHi t (ts / 2 ^ 32 + 1) } d)

def execAngNowLoRead (t : Fin 5) (s : State) : Host.Outcome State Fault Refusal := onAng (nowLoRead t.val) s

/-! ### Cycle numbers (R65, R66) -/

/-- The own cycle number replaced: recorded; ONCE slots that a forward replacement passes fire late. -/
def relabelTo (new : Nat) (d : Dev) : Dev :=
  let old := tsNow d
  let d := angPut { d.ang with acc := (new % 2 ^ 32) * 2 ^ 48 + d.ang.acc % 2 ^ 48, relabelBy := none, relabelRun := 0 } d
  -- the end of the last publish window keeps its distance from the timestamp (R71)
  let pubEnd := ((((d.est.pubEnd : Int) - old + tsNow d) % 2 ^ 48).toNat)
  let d := { d with est := { d.est with pubEnd } }
  let d := record 0x020D (old / 65536) (new % 2 ^ 32) 0 d
  let passed := below 32 (fun n => slotArmed n d && fget (F.SLOT_CTRL_MODE n) d == 0
    && decide (0 ≤ tsOrder (slotTarget n d) old ∧ tsOrder (slotTarget n d) (tsNow d) < 0))
  each passed (fun n d => slotFire n true d) d

/-! ### The cycle boundary -/

/-- The accumulator at the next cycle's start: time passes until then, unless a forward step has been there. -/
def toBoundary (d : Dev) : Dev :=
  if d.ang.wrapped then angPut { d.ang with wrapped := false } d
  else
    let left := accLast d + 1 - d.ang.acc
    let n := ticksFor left d
    let acc := (d.ang.acc + n * fget F.ANG_INC_INC d) % 2 ^ 80
    angPut { (advance n d).ang with acc } (advance n d)

/-- The window registers as a set (R68). -/
def winRegs (d : Dev) : WinSet :=
  { start := fget F.ANG_WIN_EST_START d, len := fget F.ANG_WIN_EST_LEN d, slack := fget F.ANG_WIN_SLACK_SLACK d
    pubMin := fget F.ANG_WIN_SLACK_PUB_MIN d, acqEnd := fget F.ANG_WIN_ACQ_ACQ_END d }

/-- The conditions of R68. -/
def winOk (w : WinSet) : Bool :=
  decide (1024 ≤ w.start ∧ 16384 ≤ w.len ∧ w.start + w.len + w.pubMin + w.slack ≤ 65536 ∧ w.start ≤ w.acqEnd
    ∧ w.acqEnd + w.slack ≤ 65536)

/-- A set written since the last boundary is taken or refused. -/
def winTake (d : Dev) : Dev :=
  let w := winRegs d
  if w = d.ang.winSeen then d
  else
    let d := angPut { d.ang with winSeen := w } d
    if winOk w then fput F.ANG_STATUS_WIN_ERR false (angPut { d.ang with win := w } d)
    else fput F.ANG_INT_STAT_WIN_ERR true (fput F.ANG_STATUS_WIN_ERR true d)

/-- Host time of the boundary, and the counters of the CAN channels (R89, R432). -/
def latchTimes (t : PtpTime) (d : Dev) : Dev :=
  let port := fget F.ANG_CTRL_PTP_PORT d
  let d := fset F.ANG_XPTP_S_HI_S_HI (t.sec / 2 ^ 32) (fset F.ANG_XPTP_S_LO_S_LO t.sec d)
  let d := fput F.ANG_XPTP_NS_VALID (flag (F.ETH_STATUS_PTP_SYNC port) d) (fset F.ANG_XPTP_NS_NS t.ns d)
  let d := match d.ang.ptpNext with
    | some p => angPut { d.ang with ptpUse := p, ptpNext := none } d
    | none => d
  each (List.range 6) (fun n d => if cut (16 + n) d then d else fset (F.CAN_TS_CYC_TS n) (canTs d) d) d

/-- A phase's amplitude as ANG_AMPL shows it, %. -/
def ampOf (i : Nat) (d : Dev) : Nat := fget (⟨R.ANG_AMPL, 8 * i, 8⟩ : Fld) d

/-- A phase in LOSS that has stayed outside it for REQUAL cycles leaves it (R46). -/
def phaseCycle (i : Nat) (d : Dev) : Dev :=
  let x := phaseOf i d
  let d := match i, d.ang.aWait with
    | 0, some n =>
      let n := if x.raw = 2 ∨ x.raw = 3 ∨ x.raw = 5 then 0 else n + 1
      angPut { d.ang with aWait := if fget F.ANG_QUAL_REQUAL d ≤ n then none else some n } d
    | _, _ => d
  if x.band = 3 ∧ x.raw ≠ 3 then
    if fget F.ANG_QUAL_REQUAL d ≤ x.requal + 1 then
      phaseEvents i 3 (ampOf i d * 100) (phasePut i { x with band := x.raw, requal := 0 } d)
    else phasePut i { x with requal := x.requal + 1 } d
  else d

/-- Rotation (R45). -/
def rotCycle (m : LineMeas) (d : Dev) : Dev :=
  let all := (List.range 3).all (fun i => (phaseOf i d).band == 0)
  let bad := all && m.rot != flag F.ANG_CTRL_ROT d
  let n := if bad then d.ang.rotBad + 1 else 0
  let d := angPut { d.ang with rotBad := min n 10 } d
  if 10 ≤ n ∧ flag F.ANG_STATUS_ROT_ERR d = false then
    recordC 0x020B (fget F.ANG_CTRL_ROT d) (b2n m.rot) (fput F.ANG_STATUS_ROT_ERR true d)
  else d

def freqIn (f : Nat) : Bool := decide (45000000 ≤ f ∧ f ≤ 66000000)

/-- Frequency (R51, R61). -/
def freqCycle (m : LineMeas) (d : Dev) : Dev :=
  if angTrk d = 0 then fset F.ANG_FREQ_MEAS_FREQ 0 (angPut { d.ang with freqs := [], freqBad := 0, freqOk := 0 } d)
  else
    let l := (m.freq :: d.ang.freqs).take 10
    let bad := if freqIn m.freq then 0 else d.ang.freqBad + 1
    let ok := if freqIn m.freq then d.ang.freqOk + 1 else 0
    let d := angPut { d.ang with freqs := l, freqBad := min bad 3, freqOk := ok
                                 freqOut := d.ang.freqOut && decide (ok < fget F.ANG_QUAL_REQUAL d) } d
    let d := fset F.ANG_FREQ_MEAS_FREQ (freqMean l d) d
    if 3 ≤ bad ∧ d.ang.freqOut = false then
      let d := angPut { d.ang with freqOut := true, freqOk := 0, lineOut := true, lineOk := 0 } d
      recordC 0x020C m.freq (angRef d) d
    else d

/-- The tracker's own cycle: out of SEARCH, PULL_IN to LOCKED, RIDE to LOCKED, and the requalification of LINE. Answers whether
LOCKED has been entered. The 2 cycles back in NORMAL or SWELL of RIDE (R47) are counted as two cycle boundaries at which the reference
stands there, not as two full cycles from the change of band. DESIGN CHOICE (notes/assumptions/61.md). -/
def trkCycle (m : LineMeas) (err : Int) (d : Dev) : Bool × Dev :=
  let (locked, d) := match angTrk d with
    | 0 =>
      match [0, 1, 2].find? (fun i => phaseUsable i d) with
      | some i => (false, if freqIn m.freq then trkPut 1 (refMove i d) else d)
      | none => (false, d)
    | 1 =>
      let ok := decide (err.natAbs ≤ 182) && decide (((m.freq : Int) - freqOf m.inc).natAbs < 10000)
      if ok && decide (5 ≤ d.ang.pullOk + 1) then (true, trkPut 2 d)
      else (false, angPut { d.ang with pullOk := if ok then d.ang.pullOk + 1 else 0 } d)
    | 3 =>
      let b := (phaseOf (angRef d) d).band
      if b = 0 ∨ b = 4 then
        if 2 ≤ d.ang.rideOk + 1 then (true, trkPut 2 d) else (false, angPut { d.ang with rideOk := d.ang.rideOk + 1 } d)
      else (false, angPut { d.ang with rideOk := 0 } d)
    | _ => (false, d)
  let t := angTrk d
  let ok := if t = 2 ∨ t = 3 then d.ang.lineOk + 1 else 0
  let d := angPut { d.ang with lineOk := ok, lineOut := d.ang.lineOut && !(decide (fget F.ANG_QUAL_REQUAL d ≤ ok) && !d.ang.freqOut) } d
  (locked, lineQual (bandShow d))

/-- Cycles that the sources have stayed qualified. -/
def qualCycle (d : Dev) : Dev :=
  let up (q : Bool) (n : Nat) : Nat := if q then n + 1 else 0
  angPut { d.ang with qualLine := up (flag F.ANG_STATUS_LINE_Q d) d.ang.qualLine
                      qualPeer := up (flag F.ANG_STATUS_PEER_Q d) d.ang.qualPeer
                      qualPtp := up (flag F.ANG_STATUS_PTP_Q d) d.ang.qualPtp } d

/-- The phase of LINE in the cycle that ended (R48, R52, R55): `trim` is a change of trim, `align` an initial alignment. A jump is
what a slew under way does not explain. COAST makes no correction (R47); a jump of the reference that is tracked alongside another
source is recorded and leaves the timestamp as it is (R52, R58). -/
def linePhase (trim : Int) (align : Bool) (d : Dev) : Dev :=
  if angSrc d ≠ 1 then
    if (angSrc d = 2 ∨ angSrc d = 3) ∧ (angTrk d = 2 ∨ angTrk d = 3) ∧ fget F.ANG_JUMP_THR d < d.ang.lineMove.natAbs then
      recordC 0x0202 (ofSigned 32 d.ang.lineMove) (angRef d) d
    else d
  else if angTrk d = 4 then fset F.ANG_PHASE_ERR_ERR (ofSigned 16 d.ang.diffLine) d
  else
    let e := d.ang.diffLine
    let d := fset F.ANG_PHASE_ERR_ERR (ofSigned 16 e) d
    if align then angStep e (slewComplete d)
    else
      let thr := fget F.ANG_JUMP_THR d
      let new := halfTurn (e - trim - d.ang.slewLeft)
      let d := if thr < trim.natAbs then phaseJump trim 7 d else d
      if thr < new.natAbs ∧ flag F.ANG_STATUS_HELD d = false then phaseJump new (angRef d) d else d

/-- A boundary begins: the count reaches it, the windows, the latches and a relabelling take effect, and the cycle's disturbance and
source frequency are kept (R56, R61). -/
def cycleBegin (m : LineMeas) (t : PtpTime) (d : Dev) : Dev :=
  let d := toBoundary (slewReckon 65536 d)
  let d := fput F.ANG_INT_STAT_CYCLE true (latchTimes t (winTake d))
  let d := match d.ang.relabelBy with
    | some k => relabelTo (((cycleNow d : Int) + k) % 2 ^ 32).toNat d
    | none => d
  let d := angPut { d.ang with
    disturbedPrev := d.ang.disturbed
    disturbed := flag F.ANG_STATUS_SLEWING d || flag F.ANG_STATUS_HELD d
    slewAt := 0
    srcFreqs := ((if angSrc d = 1 then m.freq else freqOf d.ang.incBase) :: d.ang.srcFreqs).take 10 } d
  { d with est := { d.est with stale := d.est.stale || estWillSkip d } }

/-- The trim changes at the boundary: the change, and the line's error with it (R44), the reference phase's offset in it (R49). -/
def cycleTrim (m : LineMeas) (d : Dev) : Int × Dev :=
  let new := toSigned 16 (fget F.ANG_PHASE_TRIM_TRIM d)
  let trim := new - d.ang.trimUse
  let diff := halfTurn (m.err + phaseOffset (angRef d) d + new)
  (trim, angPut { d.ang with trimUse := new, diffLine := diff, lineMove := halfTurn (diff - trim - d.ang.diffLine) } d)

/-- The phases, rotation, frequency and tracking of the cycle; whether the tracker has locked, and is to be aligned by that. -/
def cycleTrack (m : LineMeas) (d : Dev) : Bool × Dev :=
  let e := d.ang.diffLine
  let (locked, d) := trkCycle m e (freqCycle m (rotCycle m (each [0, 1, 2] phaseCycle d)))
  let d := if angTrk d = 0 then d else if phaseUsable (angRef d) d then d else refLost (angRef d) d
  (locked && (d.ang.alignDue || !flag F.ANG_STATUS_QUALIFIED d), if locked then angPut { d.ang with alignDue := false } d else d)

/-- The sources are qualified and selected; the line's phase follows while it is the source, or is aligned. -/
def cycleSources (trim : Int) (align : Bool) (d : Dev) : Dev :=
  let d := qualCycle (lineQual d)
  let d := if angSrc d = 4 then fset F.ANG_HOLD_CYC_CYC (fget F.ANG_HOLD_CYC_CYC d + 1) d else d
  let was := angSrc d
  let d := angSelect (if d.ang.freqOut then 2 else 0) d
  if was = 1 ∨ align = true ∨ angSrc d = was then linePhase trim align d else d

/-- The loops give the increment of the next cycle: the measured one, but in COAST; the nominal frequency's in FREE. -/
def cycleLoops (m : LineMeas) (d : Dev) : Dev :=
  angRate (if 1 ≤ angSrc d ∧ angSrc d ≤ 3 ∧ m.inc ≠ 0 ∧ !(angSrc d == 1 && angTrk d == 4) then incPut m.inc d
    else if angSrc d = 0 then incPut (incOf (fget F.ANG_NOM_FREQ_NOM d)) d else d)

/-- CYCLE_BOUNDARY: `m` what the tracker measured over the cycle that ends, `t` host time of the selected port. -/
def cycleBoundary (m : LineMeas) (t : PtpTime) (d : Dev) : Dev :=
  if flag F.ANG_STATUS_HELD d && !d.ang.wrapped then d
  else
    let (trim, d) := cycleTrim m (cycleBegin m t d)
    let (align, d) := cycleTrack m d
    cycleLoops m (cycleSources trim align d)

def execCycleBoundary (m : LineMeas) (t : PtpTime) (s : State) : Host.Outcome State Fault Refusal :=
  onAng (cycleBoundary m t) s

end Sys2Proof.Machine
end

