-- ==== Sys2Proof/Machine/Lsw.lean ====
section
/-!
DEFINITION. Machine/Lsw.lean: the protected load switch channels (07): commands, PWM, protection, the module loss budget and
supply excursions.
-/

namespace Sys2Proof.Machine

/-! ### Commands (R229, R231, R247) -/

/-- A bound channel's command and duty are PROT's once the block is locked (R229). -/
def chForeign (ch : Nat) (d : Dev) : Bool := flag F.LSW_CTRL_LOCK d && isBound ch d

/-- CH_CMD_ON (R231): stored in every zone state; a shed channel returns on ON = 0 and then ON = 1 (R250). -/
def chCmdOn (ch : Nat) (on : Bool) (d : Dev) : Dev :=
  if chForeign ch d then d
  else
    let d := fput (F.LSW_CH_CMD_ON ch) on d
    if chState ch d = 6 then
      if !on then chanPut ch { chan ch d with shedZero := true } d
      else if (chan ch d).shedZero then chApply ch (chTurnOff ch 0 d)
      else d
    else chApply ch d

def execChCmdOn (ch : Fin 32) (on : Bool) (s : State) : Host.Outcome State Fault Refusal := onBlk 7 (chCmdOn ch.val on) s

/-- CH_CMD_CLR (R247): a bound channel ignores it. A channel in LATCHED or WAIT returns to OFF; in every other state only the
restart count clears (notes/assumptions/12.md). After a protective turn-off in the same cycle the channel stays as that left it. -/
def chCmdClr (ch : Nat) (d : Dev) : Dev :=
  if isBound ch d then d
  else if chHot ch d || (chan ch d).lastProt == some d.clk then recordC 0x0605 ch 1 d
  else
    let held := chState ch d == 3 || chState ch d == 4
    recordC 0x0605 ch 0 (if held then chUnlatch ch d else fset (F.LSW_CH_STAT_RESTARTS ch) 0 d)

def execChCmdClr (ch : Fin 32) (s : State) : Host.Outcome State Fault Refusal := onBlk 7 (chCmdClr ch.val) s

/-- CH_PWM_DUTY (R235): stored; it takes effect at the next period start. -/
def chPwmDuty (ch duty : Nat) (d : Dev) : Dev := if chForeign ch d then d else fset (F.LSW_CH_PWM_DUTY ch) duty d

def execChPwmDuty (ch : Fin 32) (duty : BitVec 11) (s : State) : Host.Outcome State Fault Refusal :=
  onBlk 7 (chPwmDuty ch.val duty.toNat) s

/-! ### PWM and LAMP (R235 to R237) -/

/-- The period of a FREQ value, ns; 0 for the reserved ones. -/
def pwmPeriod : Nat → Nat
  | 0 => 10000000
  | 1 => 5000000
  | 2 => 2000000
  | 3 => 1000000
  | 4 => 500000
  | 5 => 200000
  | _ => 0

/-- The time of one edge at VAUX mV, ns. -/
def edgeTime (slope vaux : Nat) : Nat :=
  match slope with
  | 0 => 2 * vaux
  | 2 => vaux / 8
  | _ => vaux / 2

/-- The quotient by V_f; by 0 mV the spec states none, and it is a free value (notes/assumptions/2.md). -/
def byVf (num den : Nat) (d : Dev) : Nat × Dev :=
  if den = 0 then
    let (n, d) := draw d
    ((Config.freeWord n).toNat, d)
  else (num / den, d)

/-- The duty before its limit of 1,024: `vf` is the mean of VAUX over the last 8 ms, mV. -/
def dutyRaw (ch vf : Nat) (d : Dev) : Nat × Dev :=
  let base := min 1024 (fget (F.LSW_CH_PWM_DUTY ch) d)
  let vref := fget F.LSW_CFG_LAMP_VREF d * 100
  if (chan ch d).pull then (1024, d)
  else if fget (F.LSW_CH_CFG_MODE ch) d = 2 then byVf (base * vref * vref) (vf * vf) d
  else if flag (F.LSW_CH_CFG_COMP ch) d then byVf (base * vref) vf d
  else (base, d)

/-- A period starts with raw duty `raw` in mode `mode`: the duty in force, phases dropped when shorter than two edge times, LAMP_SAT
and the freewheel. -/
def pwmBegin (ch mode raw : Nat) (d : Dev) : Dev :=
  let duty := min 1024 raw
  let period := pwmPeriod (fget (F.LSW_CH_CFG_FREQ ch) d)
  let te := edgeTime (fget (F.LSW_CH_CFG_SLOPE ch) d) (fget F.LSW_SUPPLY_VAUX d)
  let onNs := duty * period / 1024
  let out := duty != 0 && decide (2 * te ≤ onNs)
  let off := !out || (duty != 1024 && decide (2 * te ≤ period - onNs))
  let d := chanPut ch { chan ch d with duty, period, patternAt := if out && off then some d.clk else none } d
  let d := fput (F.LSW_CH_STAT_LAMP_SAT ch) (mode == 2 && decide (1024 < raw)) d
  fput (F.LSW_CH_STAT_FW ch) (mode == 1 && flag (F.LSW_CH_CFG_FW_EN ch) d && off) (fput (F.LSW_CH_STAT_OUT ch) out d)

/-- The ticks to the next on-edge of channel `ch`: PHASE sixteenths of a period after the common period start, by the counter that all
channels share (notes/assumptions/73.md). -/
def phaseWait (ch : Nat) (d : Dev) : Nat :=
  let p := max 1 (pwmPeriod (fget (F.LSW_CH_CFG_FREQ ch) d) / 10)
  let w := (p + p * fget (F.LSW_CH_PWM_PHASE ch) d / 16 - d.clk % p) % p
  if w = 0 ∧ (chan ch d).startAt = some d.clk then p else w

/-- PWM_PERIOD_START of a channel that is on in a PWM mode: time passes until its on-edge. -/
def pwmStart (ch vf : Nat) (d : Dev) : Dev :=
  let mode := fget (F.LSW_CH_CFG_MODE ch) d
  if !chIsOn ch d || (mode != 1 && mode != 2) then d
  else
    let d := advance (phaseWait ch d) d
    let d := chanPut ch { chan ch d with startAt := some d.clk } d
    pwmBegin ch mode (dutyRaw ch vf d).1 (dutyRaw ch vf d).2

def execPwmPeriodStart (ch : Fin 32) (vf : Nat) (s : State) : Host.Outcome State Fault Refusal :=
  onBlk 7 (pwmStart ch.val vf) s

/-- RAMP becomes ON when neither pull-in, ramp nor window is left. -/
def chSettle (ch : Nat) (d : Dev) : Dev :=
  let c := chan ch d
  if chState ch d = 2 ∧ !c.pull ∧ !c.ramp ∧ !c.inrush then fset (F.LSW_CH_STAT_STATE ch) 1 d else d

/-- PULL_IN_END (R236). -/
def execPullInEnd (ch : Fin 32) (s : State) : Host.Outcome State Fault Refusal :=
  onBlk 7 (fun d => chSettle ch.val (chanPut ch.val { chan ch.val d with pull := false } d)) s

/-- SLEW_RAMP_END (R238): the channel is fully on. -/
def execSlewRampEnd (ch : Fin 32) (s : State) : Host.Outcome State Fault Refusal :=
  onBlk 7 (fun d => chSettle ch.val (chanPut ch.val { chan ch.val d with ramp := false } d)) s

/-! ### Protection (R243 to R248) -/

/-- A turn-off under protection (R246): WAIT or LATCHED; `kind` 0 short, 1 thermal; `p2` of the event from the count. -/
def chProtect (ch kind code : Nat) (p2 : Nat → Nat) (d : Dev) : Dev :=
  let bound := isBound ch d
  let count := min 15 (fget (F.LSW_CH_STAT_RESTARTS ch) d + 1)
  let top := fget (F.LSW_CH_CFG_RESTART_MAX ch) d
  let latch := bound || flag (F.LSW_CH_CFG_RESP ch) d || (top != 0 && decide (top ≤ count))
  let d := fsat (if kind = 0 then F.LSW_CH_CNT_SHORTS ch else F.LSW_CH_CNT_THERMAL ch) 1 d
  let d := fset (F.LSW_CH_STAT_RESTARTS ch) count (chTurnOff ch (if latch then 4 else 3) d)
  let d := recordC code ch (p2 count) (chanPut ch { chan ch d with lastProt := some d.clk } d)
  let d := if latch then recordC 0x0603 ch (if bound then 2 else kind) d else d
  if bound then boundOff ch d else d

/-- CURRENT_LIMIT (R243). -/
def execCurrentLimit (ch : Fin 32) (s : State) : Host.Outcome State Fault Refusal :=
  onBlk 7 (fun d => if chIsOn ch.val d then fput (F.LSW_CH_STAT_LIMIT ch.val) true d else d) s

/-- A turn-off under R244. -/
def chShortOff (ch : Nat) (d : Dev) : Dev := chProtect ch 0 0x0601 id (fput (F.LSW_CH_FLT_SHORT ch) true d)

/-- CH_SHORT (R244): 40 to 60 µs of limitation outside the inrush window. -/
def execChShort (ch : Fin 32) (s : State) : Host.Outcome State Fault Refusal :=
  onBlk 7 (fun d => if chIsOn ch.val d && !(chan ch.val d).inrush then chShortOff ch.val d else d) s

/-- INRUSH_WINDOW_END (R244): `low` when the output is not within 1 V of VAUX. -/
def inrushEnd (ch : Nat) (low : Bool) (d : Dev) : Dev :=
  if !chIsOn ch d || !(chan ch d).inrush then d
  else
    let d := chanPut ch { chan ch d with inrush := false } d
    if flag (F.LSW_CH_STAT_LIMIT ch) d || (fget (F.LSW_CH_CFG_MODE ch) d == 3 && low) then chShortOff ch d
    else chSettle ch d

def execInrushWindowEnd (ch : Fin 32) (low : Bool) (s : State) : Host.Outcome State Fault Refusal :=
  onBlk 7 (inrushEnd ch.val low) s

/-- The die of channel `ch` (R228). -/
def dieOf (ch : Nat) : Nat := if ch < 8 then ch / 2 else 4 + (ch - 8) / 6

/-- Another channel of the same die turned off under protection within the last 100 ms (R245). -/
def chCoupled (ch : Nat) (d : Dev) : Bool :=
  (List.range 32).any (fun k => k != ch && dieOf k == dieOf ch &&
    (match (chan k d).lastProt with
      | some t => decide (d.clk - t ≤ 100 * tickMs)
      | none => false))

/-- CH_OVERTEMP (R245): at the DT limit, or at the TJ limit, with the temperatures then. -/
def chOvertemp (ch : Nat) (byDt : Bool) (tj dt : Nat) (d : Dev) : Dev :=
  if !chIsOn ch d then d
  else
    let coupled := chCoupled ch d
    let d := fset (F.LSW_CH_TEMP_DT ch) dt (fset (F.LSW_CH_TEMP_TJ ch) tj d)
    let d := fput (if byDt then F.LSW_CH_FLT_DT ch else F.LSW_CH_FLT_OT ch) true d
    let d := if coupled then fput (F.LSW_CH_FLT_COUPLED ch) true d else d
    chProtect ch 1 0x0602 (fun _ => tj + b2n byDt * 2 ^ 16 + b2n coupled * 2 ^ 17) (chanPut ch { chan ch d with hot := true } d)

def execChOvertemp (ch : Fin 32) (byDt : Bool) (tj dt : BitVec 12) (s : State) : Host.Outcome State Fault Refusal :=
  onBlk 7 (chOvertemp ch.val byDt tj.toNat dt.toNat) s

/-- CHANNEL_RETRY (R246). -/
def execChannelRetry (ch : Fin 32) (s : State) : Host.Outcome State Fault Refusal :=
  onBlk 7 (fun d => if chState ch.val d == 3 && !chHot ch.val d && chWant ch.val d then chTurnOn ch.val d else d) s

/-- RESTART_COUNT_CLEAR (R246). -/
def execRestartCountClear (ch : Fin 32) (s : State) : Host.Outcome State Fault Refusal :=
  onBlk 7 (fun d => if chIsOn ch.val d then fset (F.LSW_CH_STAT_RESTARTS ch.val) 0 d else d) s

/-! ### Diagnostics (R241, R242) -/

/-- A diagnostic flag set, and CH_OPEN_LOAD recorded at its move from clear to set. -/
def chDiag (f : Fld) (ch kind : Nat) (d : Dev) : Dev :=
  if flag f d then d else recordC 0x0604 ch kind (fput f true d)

/-- One millisecond evaluated for an open load (R241): I_ON below OL_TH counts, and one without an on-phase counts neither way. -/
def openLoadMs (ch : Nat) (iOn : Option Nat) (d : Dev) : Dev :=
  let c := chan ch d
  if !chIsOn ch d || c.inrush then chanPut ch { c with lowMs := 0 } d
  else match iOn with
    | none => d
    | some i => chanPut ch { c with lowMs := if i < fget (F.LSW_CH_DIAG_OL_TH ch) d then c.lowMs + 1 else 0 } d

/-- CH_OPEN_LOAD (R241): I_ON has stayed below OL_TH for OL_MS of evaluated time. -/
def openLoad (ch : Nat) (d : Dev) : Dev :=
  if chIsOn ch d && !(chan ch d).inrush && decide (max 1 (fget (F.LSW_CH_DIAG_OL_MS ch) d) ≤ (chan ch d).lowMs) then
    chDiag (F.LSW_CH_FLT_OL_ON ch) ch 0 d
  else d

def execChOpenLoad (ch : Fin 32) (s : State) : Host.Outcome State Fault Refusal := onBlk 7 (openLoad ch.val) s

/-- OFF_STATE_TEST (R242): the output above 4.0 V with the pull-up off, and at the end with it on. -/
def offTest (ch : Nat) (hiOff hiOn : Bool) (d : Dev) : Dev :=
  if chState ch d != 0 || !flag (F.LSW_CH_CFG_OLOFF_EN ch) d || flag F.LSW_SUPPLY_OV d || flag F.LSW_SUPPLY_UV d then d
  else if hiOff then chDiag (F.LSW_CH_FLT_SHORT_VAUX ch) ch 2 d
  else if hiOn then chDiag (F.LSW_CH_FLT_OL_OFF ch) ch 1 d
  else d

def execOffStateTest (ch : Fin 32) (hiOff hiOn : Bool) (s : State) : Host.Outcome State Fault Refusal :=
  onBlk 7 (offTest ch.val hiOff hiOn) s

/-! ### Module loss (R239, R240, R250) -/

/-- The measurements of one channel: readings saturate at 30 A on HC channels and 6 A on MC channels (R239); one that has cooled follows
its command again (R245). -/
def chMeasure (ch : Nat) (m : ChanMeas) (d : Dev) : Dev :=
  let top := if ch < 8 then 30000 else 6000
  let d := fset (F.LSW_CH_MEAS_I_ON ch) (min top (m.iOn.getD 0)) (fset (F.LSW_CH_MEAS_I_AVG ch) (min top m.iAvg) d)
  let d := fset (F.LSW_CH_TEMP_DT ch) m.dt.toNat (fset (F.LSW_CH_TEMP_TJ ch) m.tj.toNat d)
  let d := openLoadMs ch m.iOn (fput (F.LSW_CH_STAT_LIMIT ch) (m.limiting && chIsOn ch d) d)
  if (chan ch d).hot && !chHot ch d then chApply ch (chanPut ch { chan ch d with hot := false } d) else d

/-- The extreme of VAUX in an excursion under way. -/
def extremes (vaux : Nat) (d : Dev) : Dev :=
  { d with lsw := { d.lsw with
      ov := d.lsw.ov.map (fun e => { e with extreme := max e.extreme vaux })
      uv := d.lsw.uv.map (fun e => { e with extreme := min e.extreme vaux }) } }

/-- The mean and the peak of the losses, with those of the last millisecond, `ms`. -/
def lossShow (ms : List ChanMeas) (d : Dev) : Dev :=
  let n := max 10 (fget F.LSW_BUDGET_AVG_MS d)
  let sum := ms.foldl (fun a m => a + m.loss) 0
  let losses := (sum :: d.lsw.losses).take n
  let avg := min 65535 (losses.foldl (· + ·) 0 / losses.length / 100)
  let d := fset F.LSW_PLOSS_AVG avg { d with lsw := { d.lsw with losses } }
  let d := fset F.LSW_PLOSS_PEAK (max avg (fget F.LSW_PLOSS_PEAK d)) d
  if avg * 10 ≤ fget F.LSW_BUDGET_BUDGET d * 9 then { d with lsw := { d.lsw with shed := 0, emptyTold := false } } else d

/-- LOSS_ESTIMATE: every 1 ms; `vaux` is the mean of VAUX, mV. -/
def lossEstimate (vaux : Nat) (ms : List ChanMeas) (d : Dev) : Dev :=
  let d := extremes vaux (fset F.LSW_SUPPLY_VAUX (min vaux 65535) d)
  lossShow (ms.take 32) (each ((List.range 32).zip ms) (fun e => chMeasure e.1 e.2) d)

def execLossEstimate (vaux : Nat) (ms : List ChanMeas) (s : State) : Host.Outcome State Fault Refusal :=
  onBlk 7 (lossEstimate vaux ms) s

/-- The channel to shed: unbound and on, the highest SHED_PRIO, the highest index among equals; none at priority 0. -/
def shedChoice (d : Dev) : Option Nat :=
  (List.range 32).foldl (fun best ch =>
    let prio := fget (F.LSW_CH_CFG_SHED_PRIO ch) d
    if chIsOn ch d && !isBound ch d && prio != 0
        && (match best with
          | some b => decide (fget (F.LSW_CH_CFG_SHED_PRIO b) d ≤ prio)
          | none => true)
    then some ch else best) none

/-- LOSS_BUDGET: one channel is shed, every 10 ms while the average stays above. -/
def lossBudget (d : Dev) : Dev :=
  let avg := fget F.LSW_PLOSS_AVG d
  let budget := fget F.LSW_BUDGET_BUDGET d
  if !(decide (budget < avg) || ((d.lsw.shed != 0 || d.lsw.emptyTold) && decide (budget * 9 < avg * 10))) then d
  else match shedChoice d with
    | some ch =>
      let d := fput (F.LSW_CH_FLT_SHED ch) true (chTurnOff ch 6 d)
      let d := chanPut ch { chan ch d with shedZero := false } d
      let d := { d with lsw := { d.lsw with shed := maskPut d.lsw.shed ch true } }
      recordC 0x060A avg d.lsw.shed d
    | none =>
      if d.lsw.emptyTold then d
      else recordC 0x060A avg 0 { d with lsw := { d.lsw with emptyTold := true } }

def execLossBudget (s : State) : Host.Outcome State Fault Refusal := onBlk 7 lossBudget s

/-! ### Supply excursions (R251, R253) -/

/-- The mask of channels that are on. -/
def onMask (d : Dev) : Nat := (below 32 (fun ch => chIsOn ch d)).foldl (fun m ch => m + 2 ^ ch) 0

/-- Every channel goes off under the supply rules; LATCHED and SHED stay. A bound channel that was on trips its string. -/
def supplyOff (d : Dev) : Dev :=
  let on := below 32 (fun ch => chIsOn ch d && isBound ch d)
  let d := each (below 32 (fun ch => chState ch d ≤ 3)) (fun ch d =>
    fput (F.LSW_CH_FLT_SUPPLY ch) true (chTurnOff ch 5 d)) d
  each on boundOff d

/-- Every channel leaves SUPPLY once no rule holds it there, and takes the state that its controller commands. -/
def supplyBack (d : Dev) : Dev :=
  if supplyHeld d then d
  else each (below 32 (fun ch => chState ch d == 5)) (fun ch d => chApply ch (fset (F.LSW_CH_STAT_STATE ch) 0 d)) d

/-- SUPPLY_UV_START: VAUX has fallen below the lockout. -/
def uvStart (vaux : Nat) (d : Dev) : Dev :=
  if d.lsw.uv.isSome then d
  else
    let d := fput F.LSW_SUPPLY_UV true { d with lsw := { d.lsw with uv := some ⟨d.clk, vaux⟩ } }
    supplyOff (recordC 0x0608 vaux (onMask d) d)

def execSupplyUvStart (vaux : Nat) (s : State) : Host.Outcome State Fault Refusal := onBlk 7 (uvStart vaux) s

/-- SUPPLY_UV_END. -/
def uvEnd (d : Dev) : Dev :=
  match d.lsw.uv with
  | none => d
  | some e =>
    let d := fput F.LSW_SUPPLY_UV false { d with lsw := { d.lsw with uv := none } }
    supplyBack (recordC 0x0609 (msSince e.clk d) e.extreme d)

def execSupplyUvEnd (s : State) : Host.Outcome State Fault Refusal := onBlk 7 uvEnd s

/-- SUPPLY_OV_START: VAUX has risen above 40 V. -/
def ovStart (vaux : Nat) (d : Dev) : Dev :=
  if d.lsw.ov.isSome then d
  else
    let d := fput F.LSW_SUPPLY_OV true { d with lsw := { d.lsw with ov := some ⟨d.clk, vaux⟩ } }
    supplyOff (recordC 0x0606 vaux (onMask d) d)

def execSupplyOvStart (vaux : Nat) (s : State) : Host.Outcome State Fault Refusal := onBlk 7 (ovStart vaux) s

/-- SUPPLY_OV_END. -/
def ovEnd (d : Dev) : Dev :=
  match d.lsw.ov with
  | none => d
  | some e =>
    let d := fput F.LSW_SUPPLY_OV false { d with lsw := { d.lsw with ov := none } }
    supplyBack (recordC 0x0607 (msSince e.clk d) e.extreme d)

def execSupplyOvEnd (s : State) : Host.Outcome State Fault Refusal := onBlk 7 ovEnd s

/-- GROUND_LOSS: every channel off until the device reset that the return of ground makes. -/
def execGroundLoss (s : State) : Host.Outcome State Fault Refusal :=
  onBlk 7 (fun d => supplyOff { d with lsw := { d.lsw with noGround := true } }) s

end Sys2Proof.Machine
end

