-- ==== Sys2Proof/Machine/RegWrite.lean ====
section
/-!
DEFINITION. Machine/RegWrite.lean: what the access codes of a register table make of a write (R7, R9, R10, R312), field by field.
What a write does beyond its register's fields is in Bus.lean.
-/

namespace Sys2Proof.Machine

/-- A value that the field's row accepts. -/
def fieldTakes (f : FieldRow) (v : Nat) : Bool :=
  match f.takes with
  | none => true
  | some (lo, hi) => decide (lo ≤ v ∧ v ≤ hi)

/-- An area of `n` bytes at a 256-byte address of a register lies, aligned to its size, in a memory. -/
def areaOk (base n lo size : Nat) : Bool :=
  decide (base * 256 % n = 0 ∧ lo ≤ base * 256 ∧ base * 256 + n ≤ lo + size)

/-- A value that the register as a whole accepts: base addresses (EST_BANK_BASE, AIX_QBASE, the drawers' rings, CFG_STAGE_BASE)
and the wake-port address. -/
def valueTaken (a w : Nat) : Bool :=
  if a = R.EST_BANK_BASE then
    decide (w * 256 % 0x100000 = 0 ∧ dramBase ≤ w * 256 ∧ w * 256 + 0x200000 ≤ dramBase + 0x80000000)
  else if a = R.AIX_QBASE then areaOk w 0x40000 sramBase 0x200000
  else if a = R.CFG_STAGE_BASE then areaOk w 0x100000 dramBase 0x80000000
  else if (below 8 (fun k => 1 ≤ k && (a == R.DRW_REQ_BASE k || a == R.DRW_RSP_BASE k))) ≠ [] then
    areaOk w 0x8000 dramBase 0x80000000
  else if a = R.TWP_ADDR then decide (8 ≤ w % 128 ∧ w % 128 ≤ 0x77)
  else true

/-- The LOCK field of the block in slot `i`. -/
def lockField (i : Nat) : Option Fld :=
  (slotRows i).findSome? (fun r => (r.fields.find? (fun f => f.name == "LOCK")).map (fun f =>
    (⟨i * 0x10000 + r.off % 0x10000, f.lo, f.width⟩ : Fld)))

/-- The block in slot `i` is locked. -/
def blockLocked (i : Nat) (d : Dev) : Bool :=
  match lockField i with
  | some f => flag f d
  | none => false

/-- The registers that WLD_CTRL.LOCK governs (R312). -/
def wldGoverned (a : Nat) : Bool :=
  decide (a = R.WLD_SECBLK ∨ (R.WLD_SLOT_OWN 0 ≤ a ∧ a < R.WLD_LSW_OWN 0 + 0x10))
    || (below 8 (fun k => a == R.WLD_TEN_CFG k) != [])
    || (decide (0x91000 ≤ a ∧ a < 0x91000 + 9 * 0x200) && (a % 0x200 == 0 || decide (0x100 ≤ a % 0x200)))

/-- A field after a write of `v` with the access code of its row. -/
def fieldWrite (a : Nat) (f : FieldRow) (secure : Bool) (v old : Nat) (d : Dev) : Nat :=
  let set : Nat := if fieldTakes f v then v else old
  match f.acc with
  | .ro | .secro => old
  | .rw => set
  | .wo => old
  | .w1c => (List.range f.width).foldl (fun n i => if v.testBit i then maskPut n i false else n) old
  | .rwl => if blockLocked (a / 0x10000) d then old else set
  | .sec => if !secure then old
      else if f.name == "LOCK" then (if old = 0 then v else old)
      else if blockLocked 9 d && wldGoverned a then old
      else set

/-- Register number `a` after a write of word `w`: every field by its code. The lock that a write sets governs later writes. -/
def regAfter (a : Nat) (secure : Bool) (w : Nat) (d : Dev) : Nat :=
  if !valueTaken a w then (regGet d a).toNat
  else (regFields a).foldl (fun n f =>
    let old := bitsOf n f.lo f.width
    bitsPut n f.lo f.width (fieldWrite a f secure (bitsOf w f.lo f.width) old d)) (regGet d a).toNat

/-- The register has a SEC field that a normal-world write addresses (R9). -/
def secTouched (a : Nat) : Bool := (regFields a).any (fun f => f.acc == .sec || f.acc == .secro)

/-- A field as it reads: WO fields read 0, SEC fields read 0 from normal world. -/
def fieldShown (f : FieldRow) (secure : Bool) : Bool :=
  match f.acc with
  | .wo => false
  | .sec => secure
  | .secro => secure
  | _ => true

/-- Register number `a` as it reads, given the value it holds. -/
def regShown (a : Nat) (secure : Bool) (v : Nat) : Nat :=
  (regFields a).foldl (fun n f => if fieldShown f secure then n else bitsPut n f.lo f.width 0) v

end Sys2Proof.Machine
end

