-- ==== Sys2Proof/Machine/Irq.lean ====
section
/-!
DEFINITION. Machine/Irq.lean: where the interrupts of the blocks go (R77, R81, R129, R150, R185, R220, R255, R285, R292, R320, R362 to R364,
R413, R414, R441, R443, R463, R482, R503): which lines stand at a trestle, and as which external interrupt.
-/

namespace Sys2Proof.Machine

/-- The blocks with an interrupt line to TL0: the peripheral slot, the status register and its enables. -/
def mainLines : List (Nat × Nat × Nat) :=
  [(1, R.PWR_INT_STAT, R.PWR_INT_EN), (2, R.ANG_INT_STAT, R.ANG_INT_EN), (3, R.ACQ_INT_STAT, R.ACQ_INT_EN),
    (4, R.KZC_INT_STAT, R.KZC_INT_EN), (5, R.EST_INT_STAT, R.EST_INT_EN), (6, R.PROT_INT_STAT, R.PROT_INT_EN),
    (7, R.LSW_INT_STAT, R.LSW_INT_EN), (8, R.CPX_INT_STAT, R.CPX_INT_EN), (9, R.WLD_INT_STAT, R.WLD_INT_EN),
    (10, R.AIX_INT_STAT, R.AIX_INT_EN), (11, R.BRG_INT_STAT, R.BRG_INT_EN), (12, R.PEER_INT_STAT, R.PEER_INT_EN),
    (22, R.NSM_INT_STAT, R.NSM_INT_EN), (23, R.REC_INT_STAT, R.REC_INT_EN), (24, R.UPD_INT_STAT, R.UPD_INT_EN)]
  ++ (List.range 2).map (fun e => (13 + e, R.ETH_INT_STAT e, R.ETH_INT_EN e))
  ++ (List.range 6).map (fun c => (16 + c, R.CAN_INT_STAT c, R.CAN_INT_EN c))

/-- An enabled condition of PG_IE holds on page `p` of channel `c` (R443). -/
def pageIrq (c p : Nat) (d : Dev) : Bool :=
  (flag (F.CAN_PG_IE_RX c p) d && flag (F.CAN_RX_HDR_VALID c p) d)
    || (flag (F.CAN_PG_IE_DONE c p) d && flag (F.CAN_TX_DONE_VALID c p) d)

/-- Slot `n` raises its interrupt at trestle `t` (R77, R79): it has fired, and FIRED stands. That the interrupt lasts until FIRED is cleared
is DEDUCED (notes/assumptions/75.md). -/
def slotIrqAt (t n : Nat) (d : Dev) : Bool :=
  flag (F.SLOT_STAT_FIRED n) d && (fget (F.SLOT_CTRL_ACTION n) d == 0 || fget (F.SLOT_CTRL_ACTION n) d == 2)
    && fget (F.SLOT_CTRL_TRESTLE n) d == t

/-- Channel `ch` raises its own interrupt at trestle `t` (R255). -/
def chIrqAt (t ch : Nat) (d : Dev) : Bool :=
  irqLine (R.LSW_CH_FLT ch) (R.LSW_CH_FLT_EN ch) d && fget (F.LSW_CH_CFG_IRQ_TL ch) d == t

/-- The lines that stand at trestle `t`: the peripheral slot of the block, and whether its rule names it a normal-world interrupt. -/
def irqLines (t : Nat) (d : Dev) : List (Nat × Bool) :=
  (if t = 0 then (mainLines.filter (fun e => irqLine e.2.1 e.2.2 d)).map (fun e => (e.1, false))
      ++ (below 6 (fun c => pageIrq c 0 d)).map (fun c => (16 + c, false)) else [])
  ++ (below 32 (fun n => slotIrqAt t n d)).map (fun _ => (2, false))
  ++ (below 32 (fun ch => chIrqAt t ch d)).map (fun _ => (7, false))
  ++ (below 8 (fun k => k != 0 && regGet d (R.DRW_INT k) != 0 && fget (F.AIX_DCFG_IRQ_TL k) d == t)).map (fun _ => (10, true))
  ++ (below 6 (fun c => pageIrq c 1 d && fget (F.CAN_CFG_IRQ_TL c) d == t)).map (fun c => (16 + c, true))

/-- A line is secure at trestle `t` (R292): every line of TL0, and on the others those of the blocks of WLD_SECBLK. -/
def lineSecure (t : Nat) (e : Nat × Bool) (d : Dev) : Bool := t == 0 || (!e.2 && fbit F.WLD_SECBLK_SEC e.1 d)

/-- The machine and the supervisor external interrupt of trestle `t`. -/
def meip (t : Nat) (d : Dev) : Bool := (irqLines t d).any (fun e => lineSecure t e d)
def seip (t : Nat) (d : Dev) : Bool := (irqLines t d).any (fun e => !lineSecure t e d)

end Sys2Proof.Machine
end

