-- ==== Sys2Proof/Machine/Hart.lean ====
section
/-!
DEFINITION. Machine/Hart.lean: a trestle as a RISC-V hart (R12, R259): its CSRs by world (R289 to R302), traps and returns, and
address translation with the deviations of R300. What the rules do not say follows the RISC-V specifications that R12 names.
-/

namespace Sys2Proof.Machine

/-- Trestle `t`. -/
def tlOf (t : Nat) (d : Dev) : Trestle := tabGet (fun _ => {}) d.trestles t

def tlPut (t : Nat) (x : Trestle) (d : Dev) : Dev :=
  fset (F.TL_STAT_SB_USED t) x.store.length { d with trestles := tabSet (fun _ => {}) d.trestles t x }

/-- The state of trestle `t` (R282). -/
def tlState (t : Nat) (d : Dev) : Nat := fget (F.TL_STAT_STATE t) d

/-- Trestle `t` executes no instruction: it is not in RUN, it is halted by the debugger, or the device is entering a sleep or
asleep (R450). -/
def tlIdle (t : Nat) (d : Dev) : Bool := tlState t d != 3 || (tlOf t d).halted || d.pwr.target != 0

def tlStatePut (t st : Nat) (d : Dev) : Dev := fset (F.CPX_STATUS_STATE t) st (fset (F.TL_STAT_STATE t) st d)

/-! ### CSRs -/

/-- The S-level fields of mstatus that hold state, and those of M-level. -/
def sMask : Nat := 0xC6122
def mMask : Nat := 0xC000721888

/-- What mstatus and sstatus read as beside the fields that hold state: UXL (and SXL) 64 bits, and SD from FS. -/
def statusShow (s fixed : Nat) : Nat := s ||| fixed ||| (if bitsOf s 13 2 = 3 then 2 ^ 63 else 0)

/-- The interrupts that a VS-level name stands for: those of hip, hvip and hie. -/
def vsBits : Nat := 0x444
def hieBits : Nat := 0x1444

/-- The CSRs that each world has a copy of (R291). -/
def banked (n : Nat) : Bool :=
  [0x100, 0x104, 0x105, 0x10A, 0x140, 0x141, 0x142, 0x143, 0x144, 0x180, 0x302, 0x303].contains n

/-- A CSR that exists in normal world only (R291). -/
def normalOnly (n : Nat) : Bool :=
  [0x600, 0x602, 0x603, 0x604, 0x605, 0x606, 0x607, 0x60A, 0x643, 0x644, 0x645, 0x64A, 0x680, 0xE12].contains n || n / 256 == 2

/-- The CSRs of RV64GC with the H extension (R12, R259), and the custom ones of this manual; the H CSRs that RV32 alone has, Sstc's, and
those of extensions that R12 does not name do not exist. PRESUMED from the specifications that R12 names (notes/assumptions/75.md). -/
def csrExists (n : Nat) : Bool :=
  [0x001, 0x002, 0x003, 0x100, 0x104, 0x105, 0x106, 0x10A, 0x140, 0x141, 0x142, 0x143, 0x144, 0x180,
    0x200, 0x204, 0x205, 0x240, 0x241, 0x242, 0x243, 0x244, 0x280].contains n
  || (normalOnly n && n / 256 != 2)
  || [0x300, 0x301, 0x302, 0x303, 0x304, 0x305, 0x306, 0x30A, 0x320, 0x340, 0x341, 0x342, 0x343, 0x344, 0x34A, 0x34B, 0xB00, 0xB02,
    0xF11, 0xF12, 0xF13, 0xF14, 0xF15, 0x5C0, 0x7C0, 0x7C1, 0x7C2, 0xCC0].contains n
  || decide (0x323 ≤ n ∧ n < 0x340) || decide (0x3A0 ≤ n ∧ n < 0x3F0 ∧ (n < 0x3B0 → n % 2 = 0)) || decide (0xB03 ≤ n ∧ n < 0xB20)
  || decide (0xC00 ≤ n ∧ n < 0xC20)

/-- misa: RV64 with A, C, D, F, I, M, H, S and U. -/
def misaValue : Nat := 0x80000000001411AD

/-- The key under which a CSR is kept. -/
def csrKey (n : Nat) (w : Bool) : Nat := if banked n && w then n + 0x1000 else n

def csrRaw (a : Arch) (n : Nat) : Nat := (tabGet (fun _ => (0 : DWord)) a.csr (csrKey n a.w)).toNat

def csrRawPut (n v : Nat) (a : Arch) : Arch :=
  { a with csr := tabSet (fun _ => (0 : DWord)) a.csr (csrKey n a.w) (BitVec.ofNat 64 v) }

/-- `a` outside the mask, `b` inside it. -/
def merge (mask a b : Nat) : Nat := (a &&& (2 ^ 64 - 1 - mask)) ||| (b &&& mask)

/-- A supervisor CSR as VS-mode names it. -/
def csrName (a : Arch) (n : Nat) : Nat :=
  if a.v && [0x100, 0x104, 0x105, 0x140, 0x141, 0x142, 0x143, 0x144, 0x180].contains n then n + 0x100 else n

/-- mideleg of the present world; in normal world the bits of the H extension are 1. -/
def mideleg (a : Arch) : Nat := csrRaw a 0x303 ||| (if a.w then 0 else hieBits)

/-- The bits of sie and sip in the present world: the S-level ones, and the local interrupts delegated to S level (R291, R292). -/
def siBits (a : Arch) : Nat := 0x222 ||| (csrRaw a 0x303 &&& 0xF0000)

/-- The interrupts pending by hardware at trestle `t` (R292, R396). -/
def irqPending (t : Nat) (d : Dev) : Nat :=
  (tlOf t d).irq + (if (beQueue false t d).isEmpty then 0 else 2 ^ 19) + (if (beQueue true t d).isEmpty then 0 else 2 ^ 20)
    + b2n (seip t d) * 2 ^ 9 + b2n (meip t d) * 2 ^ 11

/-- hvip and hideleg. -/
def hvip (a : Arch) : Nat := csrRaw a 0x645 &&& vsBits
def hideleg (a : Arch) : Nat := csrRaw a 0x603 &&& vsBits

/-- The time CSR (R299): it advances with the clock, in either world, at a rate that no rule gives (notes/assumptions/75.md). -/
def timeNow (d : Dev) : Nat := d.clk / max 1 Config.timeTicks % 2 ^ 64

/-- What a CSR reads as, with the interrupts pending by hardware and the DIN levels of trestle `t`. -/
def csrRead (t n : Nat) (d : Dev) : Nat :=
  let x := tlOf t d
  let a := x.arch
  match csrName a n with
  | 0x001 => csrRaw a 3 % 32
  | 0x002 => csrRaw a 3 / 32 % 8
  | 0x300 => statusShow (merge sMask (csrRaw a 0x300) (csrRaw a 0x100)) (0xA * 2 ^ 32)
  | 0x100 => statusShow (csrRaw a 0x100) (2 ^ 33)
  | 0x200 => statusShow (csrRaw a 0x200) (2 ^ 33)
  | 0x301 => misaValue
  | 0x303 => mideleg a
  | 0x304 => merge (siBits a) (csrRaw a 0x304) (csrRaw a 0x104) ||| (csrRaw a 0x604 &&& hieBits)
  | 0x104 => csrRaw a 0x104 &&& siBits a
  | 0x344 => (csrRaw a 0x144 &&& 0x222) ||| hvip a ||| irqPending t d
  | 0x144 => (csrRaw a 0x144 &&& 0x222) ||| (if a.w then 0 else irqPending t d &&& (0x200 ||| (siBits a &&& 0xF0000)))
  | 0x604 => csrRaw a 0x604 &&& hieBits
  | 0x644 | 0x645 => hvip a
  | 0x204 => (csrRaw a 0x604 &&& hideleg a) / 2
  | 0x244 => (hvip a &&& hideleg a) / 2
  | 0x7C0 => b2n a.w + 2 * b2n (a.mpw || t == 0)
  | 0x7C1 => a.wepc.toNat
  | 0x7C2 => a.wstatus.toNat
  | 0x5C0 => a.wtenant.toNat
  | 0xCC0 => x.din
  | 0xF14 => t
  | 0x607 | 0xE12 | 0x64A => 0
  | 0xC01 => (timeNow d + if a.v then csrRaw a 0x605 else 0) % 2 ^ 64
  | m => if 0xC00 ≤ m ∧ m < 0xC20 then csrRaw a (m - 0x100) else csrRaw a m

/-- The floating-point unit is off: mstatus.FS is 0, or vsstatus.FS under V = 1. -/
def fsOff (a : Arch) : Bool := bitsOf (csrRaw a 0x100) 13 2 == 0 || (a.v && bitsOf (csrRaw a 0x200) 13 2 == 0)

/-- The floating-point state changes: FS turns dirty. -/
def fsDirty (a : Arch) : Arch :=
  let b := csrRawPut 0x100 (bitsPut (csrRaw a 0x100) 13 2 3) a
  if a.v then csrRawPut 0x200 (bitsPut (csrRaw b 0x200) 13 2 3) b else b

/-- The exception of a counter read below M-mode whose enables do not permit it. -/
def counterTrap (a : Arch) (n : Nat) : Option Nat :=
  let i := n % 32
  if a.priv = 3 then none
  else if !(csrRaw a 0x306).testBit i then some 2
  else if a.v && !(csrRaw a 0x606).testBit i then some 22
  else if a.priv = 0 ∧ (csrRaw a 0x106).testBit i = false then some (if a.v then 22 else 2)
  else none

/-- The exception that TVM or VTVM makes of an access to satp or hgatp. -/
def vmTrap (a : Arch) (n : Nat) : Option Nat :=
  if n = 0x180 ∧ a.priv = 1 ∧ a.v = true then (if (csrRaw a 0x600).testBit 20 then some 22 else none)
  else if (n = 0x180 ∨ n = 0x680) ∧ a.priv = 1 ∧ (csrRaw a 0x300).testBit 20 = true then some 2
  else none

/-- The exception that an access to a CSR raises: 2 illegal instruction, 22 virtual instruction (R265, R290, R291, R297, R302). -/
def csrTrap (t n : Nat) (write : Bool) (d : Dev) : Option Nat :=
  let a := (tlOf t d).arch
  let hs := a.priv == 1 && !a.v && !a.w
  let lvl := n / 256 % 4
  if !csrExists n || (write && n / 1024 == 3) then some 2
  else if n = 0xCC0 then
    if a.priv = 3 ∨ hs = true then none
    else if flag (F.TL_CFG_DIN_LOW t) d && (a.v || a.priv == 0) then none
    else if a.v then some 22 else some 2
  else if n = 0x5C0 then
    if a.priv = 3 ∨ hs = true then none else if a.v then some 22 else some 2
  else if normalOnly n && a.w then some 2
  else if 1 ≤ n && n ≤ 3 then (if fsOff a then some 2 else none)
  else if 0xC00 ≤ n && n < 0xC20 then counterTrap a n
  else if (vmTrap a n).isSome then vmTrap a n
  else if lvl = 3 then (if a.priv = 3 then none else some 2)
  else if a.v then (if lvl = 2 then some 22 else if lvl = 1 && a.priv == 0 then some 22 else none)
  else if lvl = 2 then (if a.priv = 3 ∨ hs = true then none else some 2)
  else if lvl ≤ a.priv then none else some 2

/-- The tenant tag written (R302): kept unless the tenant is enabled and may have harts on the trestle. -/
def tenantTag (t k : Nat) (d : Dev) : Dev :=
  if flag (F.WLD_TEN_CFG_EN k) d && fbit (F.WLD_TEN_CFG_TLMASK k) t d then
    let x := tlOf t d
    tlPut t { x with arch := { x.arch with wtenant := BitVec.ofNat 3 k } } d
  else recordC 0x0805 t k d

/-- A value written to a CSR. -/
def csrWrite (t n v : Nat) (d : Dev) : Dev :=
  let x := tlOf t d
  let a := x.arch
  let put (a : Arch) : Dev := tlPut t { x with arch := a } d
  match csrName a n with
  | 0x001 => put (fsDirty (csrRawPut 3 (bitsPut (csrRaw a 3) 0 5 v) a))
  | 0x002 => put (fsDirty (csrRawPut 3 (bitsPut (csrRaw a 3) 5 3 v) a))
  | 0x003 => put (fsDirty (csrRawPut 3 (v % 256) a))
  | 0x300 =>
    -- MPP holds no mode 2
    let v := if bitsOf v 11 2 = 2 then bitsPut v 11 2 (bitsOf (csrRaw a 0x300) 11 2) else v
    put (csrRawPut 0x100 (v &&& sMask) (csrRawPut 0x300 (v &&& mMask) a))
  | 0x100 => put (csrRawPut 0x100 (v &&& sMask) a)
  | 0x200 => put (csrRawPut 0x200 (v &&& sMask) a)
  | 0x304 =>
    let s := siBits a
    put (csrRawPut 0x604 (v &&& hieBits) (csrRawPut 0x104 (merge s (csrRaw a 0x104) v)
      (csrRawPut 0x304 (v &&& (0x1F0888 &&& (2 ^ 64 - 1 - s))) a)))
  | 0x104 => put (csrRawPut 0x104 (merge (siBits a) (csrRaw a 0x104) v) a)
  | 0x344 => put (csrRawPut 0x645 (bitsPut (csrRaw a 0x645) 2 1 (v / 4)) (csrRawPut 0x144 (v &&& 0x222) a))
  | 0x144 => put (csrRawPut 0x144 (bitsPut (csrRaw a 0x144) 1 1 (v / 2)) a)
  | 0x303 => put (csrRawPut 0x303 (v &&& 0x1F0222) a)
  | 0x603 => put (csrRawPut 0x603 (v &&& vsBits) a)
  | 0x604 => put (csrRawPut 0x604 (v &&& hieBits) a)
  | 0x644 => put (csrRawPut 0x645 (bitsPut (csrRaw a 0x645) 2 1 (v / 4)) a)
  | 0x645 => put (csrRawPut 0x645 (v &&& vsBits) a)
  | 0x204 => put (csrRawPut 0x604 (merge (hideleg a) (csrRaw a 0x604) (2 * v)) a)
  | 0x244 => put (if (hideleg a).testBit 2 then csrRawPut 0x645 (bitsPut (csrRaw a 0x645) 2 1 (v / 2)) a else a)
  | 0x141 => put (csrRawPut 0x141 (v / 2 * 2) a)
  | 0x241 => put (csrRawPut 0x241 (v / 2 * 2) a)
  | 0x341 => put (csrRawPut 0x341 (v / 2 * 2) a)
  | 0x7C0 => put (if t = 0 then a else { a with mpw := v.testBit 1 })
  | 0x7C1 => put { a with wepc := BitVec.ofNat 64 v }
  | 0x7C2 =>
    -- PP holds no mode 2
    let v := if bitsOf v 1 2 = 2 then bitsPut v 1 2 (bitsOf a.wstatus.toNat 1 2) else v
    put { a with wstatus := BitVec.ofNat 5 v }
  | 0x5C0 => tenantTag t (v % 8) d
  | 0x607 | 0x64A | 0x301 => d
  | 0x180 => if [0, 8, 9].contains (v >>> 60) then put (csrRawPut 0x180 v a) else d
  | 0x280 => if [0, 8, 9].contains (v >>> 60) then put (csrRawPut 0x280 v a) else d
  | 0x680 => if [0, 8, 9].contains (v >>> 60) then put (csrRawPut 0x680 (merge (0x7F * 2 ^ 51) v 0) a) else d
  | m => if 0x3A0 ≤ m ∧ m < 0x3F0 then d else put (csrRawPut m v a)

/-! ### Traps and returns -/

def mst (a : Arch) : Nat := merge sMask (csrRaw a 0x300) (csrRaw a 0x100)

def mstPut (v : Nat) (a : Arch) : Arch := csrRawPut 0x100 (v &&& sMask) (csrRawPut 0x300 (v &&& mMask) a)

/-- The vector of a trap from a tvec value. -/
def tvec (v : Nat) (intr : Bool) (cause : Nat) : DWord :=
  BitVec.ofNat 64 (v / 4 * 4 + if intr && v % 4 == 1 then 4 * cause else 0)

/-- Whether a trap of this cause is an interrupt of the normal world, or an exception, that the present world's copy delegates
to S level. -/
def delegated (a : Arch) (intr : Bool) (cause : Nat) : Bool :=
  a.priv != 3 && (if intr then mideleg a else csrRaw a 0x302).testBit cause

/-- A trap into M-mode: W is copied to MPW and set (R290); the rest as the RISC-V specification has it. -/
def trapM (t : Nat) (intr : Bool) (cause tval : Nat) (a : Arch) : Arch :=
  let s := mst a
  let s' := bitsPut (bitsPut (bitsPut (bitsPut s 7 1 (bitsOf s 3 1)) 3 1 0) 11 2 a.priv) 39 1 (b2n a.v)
  let b := csrRawPut 0x341 a.pc.toNat (csrRawPut 0x342 (cause + b2n intr * 2 ^ 63) (csrRawPut 0x343 tval (mstPut s' a)))
  { b with priv := 3, v := false, mpw := a.w || t == 0, w := true, pc := tvec (csrRaw a 0x305) intr cause }

/-- A trap into S-mode of the present world (HS-mode in normal world). -/
def trapS (intr : Bool) (cause tval : Nat) (a : Arch) : Arch :=
  let s := csrRaw a 0x100
  let s' := bitsPut (bitsPut (bitsPut s 5 1 (bitsOf s 1 1)) 1 1 0) 8 1 (min a.priv 1)
  let h := csrRaw a 0x600
  let a' := if a.w then a
    else csrRawPut 0x600 (if a.v then bitsPut (bitsPut h 7 1 1) 8 1 (min a.priv 1) else bitsPut h 7 1 0)
      (csrRawPut 0x643 0 (csrRawPut 0x64A 0 a))
  let b := csrRawPut 0x141 a.pc.toNat (csrRawPut 0x142 (cause + b2n intr * 2 ^ 63) (csrRawPut 0x143 tval (csrRawPut 0x100 s' a')))
  { b with priv := 1, v := false, pc := tvec (csrRaw a 0x105) intr cause }

/-- A trap into VS-mode. -/
def trapVS (intr : Bool) (cause tval : Nat) (a : Arch) : Arch :=
  let s := csrRaw a 0x200
  let s' := bitsPut (bitsPut (bitsPut s 5 1 (bitsOf s 1 1)) 1 1 0) 8 1 (min a.priv 1)
  let b := csrRawPut 0x241 a.pc.toNat (csrRawPut 0x242 (cause + b2n intr * 2 ^ 63) (csrRawPut 0x243 tval (csrRawPut 0x200 s' a)))
  { b with priv := 1, v := true, pc := tvec (csrRaw a 0x205) intr cause }

/-- A trap taken at the level that delegation names; VS-mode sees a VS-level interrupt under its S-level number. -/
def trapTo (t : Nat) (intr : Bool) (cause tval : Nat) (a : Arch) : Arch :=
  if !delegated a intr cause then trapM t intr cause tval a
  else if a.v && (csrRaw a (if intr then 0x603 else 0x602)).testBit cause then
    trapVS intr (if intr && cause != 0 then cause - 1 else cause) tval a
  else trapS intr cause tval a

/-- MRET (R290, R291). -/
def retM (t : Nat) (a : Arch) : Arch :=
  let s := mst a
  let mpp := bitsOf s 11 2
  let toW := mpp == 3 || a.mpw || t == 0
  let s' := bitsPut (bitsPut (bitsPut (bitsPut s 3 1 (bitsOf s 7 1)) 7 1 1) 11 2 0) 39 1 0
  let s' := if mpp = 3 then s' else bitsPut s' 17 1 0
  let b := mstPut s' a
  { b with priv := mpp, v := mpp != 3 && s.testBit 39 && !toW, w := toW, mpw := true
           pc := BitVec.ofNat 64 (csrRaw a 0x341) }

/-- SRET. -/
def retS (a : Arch) : Arch :=
  if a.v then
    let s := csrRaw a 0x200
    { csrRawPut 0x200 (bitsPut (bitsPut (bitsPut s 1 1 (bitsOf s 5 1)) 5 1 1) 8 1 0) a with
      priv := bitsOf s 8 1, pc := BitVec.ofNat 64 (csrRaw a 0x241) }
  else
    let s := csrRaw a 0x100
    let h := csrRaw a 0x600
    let b := csrRawPut 0x100 (bitsPut (bitsPut (bitsPut s 1 1 (bitsOf s 5 1)) 5 1 1) 8 1 0) a
    let b := if a.w then b else csrRawPut 0x600 (bitsPut h 7 1 0) b
    { b with priv := bitsOf s 8 1, v := !a.w && h.testBit 7, pc := BitVec.ofNat 64 (csrRaw a 0x141) }

/-! ### Interrupts (R292) -/

/-- The interrupt belongs to normal world on trestle `t`. Causes 16 to 20 are the local interrupts, 9 the supervisor external; 2, 6,
10 and 12 are those of the H extension, which exists in normal world only. -/
def irqNormal (t cause : Nat) : Bool := t != 0 && [2, 6, 9, 10, 12, 16, 17, 18, 19].contains cause

/-- The interrupt is secure: it is taken into M-mode. The supervisor software and timer interrupts, 1 and 5, are of the world whose
copy of sip holds them (R291), and delegation places them. -/
def irqSecure (t cause : Nat) (a : Arch) : Bool :=
  !irqNormal t cause && !(a.priv != 3 && (cause == 1 || cause == 5))

/-- The interrupt is enabled for the hart as it stands: a normal-world one waits while W is 1, a secure one is taken into M-mode,
always below M. -/
def irqTaken (t cause : Nat) (a : Arch) : Bool :=
  let en := (merge (siBits a) (csrRaw a 0x304) (csrRaw a 0x104) ||| csrRaw a 0x604).testBit cause
  let s := mst a
  if irqSecure t cause a then en && (a.priv != 3 || s.testBit 3)
  else (!a.w || !irqNormal t cause) && en
    && (if !delegated a true cause then a.priv != 3 || s.testBit 3
        else if (csrRaw a 0x603).testBit cause then a.v && (a.priv == 0 || (csrRaw a 0x200).testBit 1)
        else a.v || a.priv == 0 || s.testBit 1)

/-- The interrupt is pending at trestle `t`. No register of the spec makes the machine software and the machine timer interrupt pending. -/
def irqPends (t cause : Nat) (d : Dev) : Bool := (csrRead t 0x344 d).testBit cause

/-- The interrupt that trestle `t` takes next: pending and enabled, in the order of the RISC-V specification, the local ones last, whose
place no rule gives. DESIGN CHOICE (notes/assumptions/75.md). -/
def irqNext (t : Nat) (d : Dev) : Option Nat :=
  [11, 9, 1, 5, 12, 10, 2, 6, 16, 17, 18, 19, 20].find? (fun c => irqPends t c d && irqTaken t c (tlOf t d).arch)

/-- What an HLV, HLVX or HSV raises elsewhere than in M-mode, in HS-mode, and in U-mode under hstatus.HU. -/
def hypTrap (a : Arch) : Option Nat :=
  if a.v then some 22
  else if a.priv = 0 ∧ (a.w = true ∨ (csrRaw a 0x600).testBit 9 = false) then some 2
  else none

/-! ### Address translation (R300) -/

/-- What an access is. -/
inductive AccType where
  | read | write | fetch
deriving DecidableEq, Repr

/-- The access fault, page fault and guest-page fault of a type. -/
def accFault : AccType → Nat
  | .read => 5 | .write => 7 | .fetch => 1
def pageFault : AccType → Nat
  | .read => 13 | .write => 15 | .fetch => 12
def guestFault : AccType → Nat
  | .read => 21 | .write => 23 | .fetch => 20

/-- What a page-table walk needs of its stage: whether it is the G stage, the access, its privilege, SUM and MXR. -/
structure WalkCtx where
  g : Bool
  ty : AccType
  priv : Nat
  sum : Bool
  mxr : Bool
deriving DecidableEq, Repr

/-- A leaf entry permits the access; A, and D for a write, must be set (R300). -/
def leafOk (c : WalkCtx) (pte : Nat) : Bool :=
  let u := pte.testBit 4
  let user := if c.g then u else if c.priv = 0 then u else (!u || (c.sum && c.ty != .fetch))
  user && pte.testBit 6
    && (match c.ty with
      | .read => pte.testBit 1 || (c.mxr && pte.testBit 3)
      | .write => pte.testBit 2 && pte.testBit 7
      | .fetch => pte.testBit 3)

/-- One stage of a walk: `lvl` the level, `tab` the address of its table, `idx` the index bits of the first level. The reader
answers an entry, or the fault of its own access. -/
def walk (c : WalkCtx) (rd : Nat → Except Nat Nat) (va : Nat) : Nat → Nat → Nat → Except Nat Nat
  | 0, _, _ => .error (if c.g then guestFault c.ty else pageFault c.ty)
  | n + 1, tab, w =>
    let pf := if c.g then guestFault c.ty else pageFault c.ty
    match rd (tab + 8 * bitsOf va (12 + 9 * n) w) with
    | .error e => .error e
    | .ok pte =>
      let ppn := bitsOf pte 10 44
      if !pte.testBit 0 || (!pte.testBit 1 && pte.testBit 2) || bitsOf pte 54 10 != 0 then .error pf
      else if !pte.testBit 1 && !pte.testBit 3 then
        if pte.testBit 4 || pte.testBit 6 || pte.testBit 7 then .error pf else walk c rd va n (ppn * 4096) 9
      else if !leafOk c pte || ppn % 2 ^ (9 * n) != 0 then .error pf
      else if 2 ^ 28 ≤ ppn then .error (accFault c.ty)
      else .ok (ppn * 4096 + va % 2 ^ (12 + 9 * n))

/-- Levels of a translation mode. -/
def modeLevels (mode : Nat) : Nat := if mode = 9 then 4 else 3

/-- A table entry read from memory with the attribute byte of the walk, through the region controllers. -/
def pteRead (m : List Host.Cell) (d : Dev) (attr : Nat) (ty : AccType) (a : Nat) : Except Nat Nat :=
  match targetOf a with
  | some c => if c ≠ 3 ∧ c ≠ 4 ∧ c ≠ 5 ∧ granted c a 8 0 attr d ∧ (badMeets a 8 d).isNone then .ok (leNat (memRead m a 8)) else .error (accFault ty)
  | none => .error (accFault ty)

/-- The G stage: a guest physical address to a physical one. -/
def gStage (m : List Host.Cell) (d : Dev) (a : Arch) (ty : AccType) (gpa : Nat) : Except Nat Nat :=
  let r := csrRaw a 0x680
  let n := modeLevels (r >>> 60)
  if r >>> 60 = 0 then (if gpa < 2 ^ 40 then .ok gpa else .error (accFault ty))
  else if 2 ^ (12 + 9 * n + 2) ≤ gpa then .error (guestFault ty)
  else walk { g := true, ty, priv := 0, sum := false, mxr := (csrRaw a 0x100).testBit 19 }
    (pteRead m d (attrOf false 0 1 false false) ty) gpa n (bitsOf r 0 44 * 4096) 11

/-- A sign-extended virtual address of a mode with `n` levels. -/
def canonical (n va : Nat) : Bool :=
  let b := 12 + 9 * n
  let top := va >>> (b - 1)
  top == 0 || top == 2 ^ (64 - (b - 1)) - 1

/-- A virtual address translated to a physical one, at privilege `priv` and virtualisation `v`; the fault otherwise. -/
def translate (m : List Host.Cell) (d : Dev) (a : Arch) (priv : Nat) (v : Bool) (ty : AccType) (va : Nat) : Except Nat Nat :=
  let st := csrRaw a (if v then 0x200 else 0x100)
  let r := csrRaw a (if v then 0x280 else 0x180)
  let n := modeLevels (r >>> 60)
  let c : WalkCtx := { g := false, ty, priv, sum := st.testBit 18, mxr := st.testBit 19 }
  if v then
    let attr := attrOf false a.wtenant.toNat 1 true false
    if r >>> 60 = 0 then gStage m d a ty va
    else if !canonical n va then .error (pageFault ty)
    else
      let rd (x : Nat) : Except Nat Nat := match gStage m d a .read x with
        | .ok p => pteRead m d attr ty p
        | .error e => .error (if e = guestFault .read then guestFault ty else accFault ty)
      match walk c rd va n (bitsOf r 0 44 * 4096) 9 with
      | .ok gpa => gStage m d a ty gpa
      | .error e => .error e
  else if priv = 3 ∨ r >>> 60 = 0 then (if va < 2 ^ 40 then .ok va else .error (accFault ty))
  else if !canonical n va then .error (pageFault ty)
  else walk c (pteRead m d (attrOf a.w 0 1 false false) ty) va n (bitsOf r 0 44 * 4096) 9

/-- Privilege and virtualisation of a data access: MPRV in M-mode, and HLV and HSV with SPVP (R300). -/
def dataMode (a : Arch) (hyp : Bool) : Nat × Bool :=
  let s := mst a
  if hyp then (b2n ((csrRaw a 0x600).testBit 8), true)
  else if a.priv = 3 ∧ s.testBit 17 = true then (bitsOf s 11 2, s.testBit 39 && bitsOf s 11 2 != 3 && !a.w)
  else (a.priv, a.v)

/-- The attribute byte of a trestle's access (R303). -/
def tlAttr (a : Arch) (priv : Nat) (v : Bool) (pa : Nat) : Nat :=
  attrOf a.w (if v then a.wtenant.toNat else 0) priv v (isIo pa)

end Sys2Proof.Machine
end

