-- ==== Sys2Proof/Machine/Trestle.lean ====
section
/-!
DEFINITION. Machine/Trestle.lean: paired execution (08): epochs and the store buffer, divergence and rollback, faults, restarts and
the comparator test; the gateway instructions (R293 to R298).
-/

namespace Sys2Proof.Machine

/-- The reset vector of every trestle: the boot ROM (notes/assumptions/22.md). -/
def resetVector : DWord := BitVec.ofNat 64 romBase

/-- Operating time in seconds. -/
def opSec (d : Dev) : Nat := opTime d

/-- A local interrupt of trestle `t` becomes pending; one for a stopped trestle is dropped (R277). -/
def localIrq (t i : Nat) (d : Dev) : Dev :=
  if tlState t d = 3 ∨ tlState t d = 4 then
    let x := tlOf t d
    send (.localIrq t i) (tlPut t { x with irq := x.irq ||| 2 ^ i } d)
  else d

/-! ### Tenants at a fault (R278, R306) -/

/-- Tenant `k` is marked faulted for trestle `t`; AIX answers for it (R337). -/
def tenantFault (k t : Nat) (d : Dev) : Dev :=
  if fget (F.WLD_TEN_STAT_STATE k) d ≠ 1 then d
  else
    let d := fput (F.WLD_TEN_STAT_BLOCKED k) true (fset (F.WLD_TEN_STAT_STATE k) 2 d)
    let d := fsat (F.WLD_TEN_STAT_FAULTS k) 1 d
    let d := each (below 5 (fun u => fbit (F.WLD_TEN_CFG_TLMASK k) u d && tlState u d == 3)) (fun u => localIrq u 18) d
    tenantAnswerAll k stDown (recordC 0x0806 k t d)

/-- The customer tenants that the image places on a trestle. -/
def tenantsOn (t : Nat) (d : Dev) : List Nat :=
  (below 8 (fun k => flag (F.WLD_TEN_CFG_EN k) d && fbit (F.WLD_TEN_CFG_TLMASK k) t d)).filter (· != 0)

/-! ### Into TEST, RUN and STOPPED -/

/-- The boot descriptor by which TL1 to TL4 start (R368); none from a customer area that cannot be used (R497). -/
def bootOf (t : Nat) (d : Dev) : Option BootDesc :=
  if t ≠ 0 ∧ flag F.UPD_STATUS_CUST_VALID d = true then d.cfg.boots.find? (fun b => b.tl == t) else none

/-- Where a released hart starts: by its descriptor in HS-mode of normal world at ENTRY, the boot ROM and the secure monitor passed
(R368), else at the reset vector. DESIGN CHOICE (notes/assumptions/27.md): these two take no instruction of their own. -/
def startArch (t : Nat) (d : Dev) : Arch :=
  match bootOf t d with
  | some b => { pc := BitVec.ofNat 64 b.entry, priv := 1, w := false }
  | none => { pc := resetVector }

/-- The hart of a trestle released at its reset vector, both caches invalidated (R279). -/
def tlRelease (t : Nat) (d : Dev) : Dev :=
  let x := tlOf t d
  let a := startArch t d
  tlStatePut t 3 (tlPut t { x with arch := a, shadow := a, epoch := 0, latch := none, load := none, repeats := 0, irq := 0
                                   icache := [], dcache := [], halted := false, haltDue := false, stepDue := false } d)

/-- TEST is entered; `after` says where a pass leads. -/
def tlTest (t after : Nat) (d : Dev) : Dev := tlStatePut t 2 (tlPut t { tlOf t d with after } d)

/-- The window and the limit of restarts (R279, R280). -/
def restartLimit (t : Nat) (d : Dev) : Nat × Nat :=
  if t = 0 then (60, max 1 (fget F.CPX_CTRL_TL0_RST_MAX d)) else (3600, max 1 (fget (F.TL_CFG_RST_MAX t) d))

/-- The restarts that lie in the window. -/
def restartsIn (t : Nat) (d : Dev) : List Nat :=
  (tlOf t d).restarts.filter (fun s => decide (opSec d ≤ s + (restartLimit t d).1))

/-- A restart: counted, recorded, and the comparator test run. -/
def tlRestart (t : Nat) (d : Dev) : Dev :=
  let l := restartsIn t d ++ [opSec d]
  let d := tlPut t { tlOf t d with restarts := l } d
  let d := recordC 0x0706 t l.length (fset (F.TL_STAT_RESTARTS t) (min 255 l.length) d)
  tlTest t 1 d

/-- STOPPED is entered. -/
def tlStopped (t why : Nat) (d : Dev) : Dev :=
  recordC 0x0707 t why (tlStatePut t 5 d)

/-! ### Faults (R276 to R280) -/

/-- The notice interrupt of every other customer trestle that takes notices (R277). -/
def notices (t : Nat) (d : Dev) : Dev :=
  each ((List.range 5).filter (fun u => u != 0 && u != t && flag (F.TL_CFG_NOTE_EN u) d)) (fun u => localIrq u 17) d

/-- The responses of trestle `t`'s reads at the bridges are discarded, and data held for it with them (R277). -/
def readsDiscard (t : Nat) (d : Dev) : Dev :=
  let kz (l : List KzAcc) : List KzAcc := l.map (fun x => if x.origin == .load t then { x with origin := .prefetch } else x)
  { d with brg := { d.brg with
      kz := d.brg.kz.map (fun e => (e.1, kz e.2)), port := kz d.brg.port
      peerOut := d.brg.peerOut.map (fun x => if x.origin == .load t then { x with origin := .prefetch } else x)
      held := d.brg.held.filter (fun h => h.tl != t) } }

/-- Both cores stop: uncommitted entries of the store buffer are discarded, requests and pending interrupts dropped. -/
def tlHalt (t : Nat) (keep : Bool) (d : Dev) : Dev :=
  let x := tlOf t d
  readsDiscard t (tlPut t { x with
    store := if keep then x.store.filter (·.committed) else [], load := none, latch := none, irq := 0,
    epoch := 0, halted := false, haltDue := false, stepDue := false } d)

/-- A trestle faults with a cause, and for causes 0 and 5 the group and bit of the mismatch. -/
def tlFault (t cause group bit : Nat) (d : Dev) : Dev :=
  let first := cause == 6 && (tlOf t d).after == 0
  let d := tlHalt t (cause != 4) d
  let d := fset (F.TL_STAT_CAUSE t) cause (tlStatePut t 6 d)
  let d := recordC 0x0701 t (cause + if cause = 0 ∨ cause = 5 then group * 256 + bit * 4096 else 0) d
  let d := notices t d
  let d := if t = 0 then d else each (tenantsOn t d) (fun k => tenantFault k t) d
  let d := if t = 0 then engineHold 2 d else d
  if first then d
  else if (restartLimit t d).2 ≤ (restartsIn t d).length then tlStopped t 1 d
  else if t = 0 ∨ flag (F.TL_CFG_AUTO t) d then tlRestart t d
  else d

/-! ### Epochs (R268, R271) -/

/-- An epoch commits: its stores are marked, its length kept, and the checkpoint of the next is taken (R268, R271). -/
def epochCommit (t : Nat) (d : Dev) : Dev :=
  let x := tlOf t d
  if x.epoch = 0 then tlPut t { x with shadow := x.arch } d
  else
    fset (F.TL_STAT_EPOCH_LEN t) (min 255 x.epoch)
      (tlPut t { x with store := x.store.map (fun e => { e with committed := true }), shadow := x.arch, epoch := 0, repeats := 0
                        latch := none } d)

/-- At an instruction boundary a halt that waits for normal world acts with W = 0, and one after a single step acts at once; a
halt ends the epoch (R284, R315). -/
def haltCheck (t : Nat) (d : Dev) : Dev :=
  let x := tlOf t d
  if x.stepDue || (x.haltDue && !x.arch.w) then
    let d := epochCommit t d
    let d := tlPut t { tlOf t d with haltDue := false, stepDue := false, halted := true } d
    fput F.DBG_STAT_HALT_PEND ((List.range 5).any (fun u => (tlOf u d).haltDue)) d
  else d

/-! ### Rollback (R272 to R275) -/

/-- A rollback begins; the one that would restart the epoch too often faults with cause 2 (R273). -/
def rollback (t : Nat) (d : Dev) : Dev :=
  let x := tlOf t d
  if max 1 (fget (F.TL_CFG_REPEAT_MAX t) d) ≤ x.repeats then tlFault t 2 0 0 d
  else
    let d := fsat (F.TL_CNT_A_ROLLBACK t) 1 d
    let latch : Option LoadLatch := match x.load with
      | some l => if isIo l.addr then some { addr := l.addr, data := l.data, error := l.error } else x.latch
      | none => x.latch
    tlStatePut t 4 (tlPut t { x with store := x.store.filter (·.committed), repeats := x.repeats + 1, latch
                                     load := none, epoch := 0 } d)

/-- The bits that the comparator checks in the group with code `g` (R263): 515 in all; codes 7 and 11 to 15 name no group. -/
def groupBits (g : Nat) : Nat := [64, 32, 70, 70, 77, 68, 6, 0, 48, 72, 8].getD g 0

/-- COMPARATOR_MISMATCH (R267, R273): a mismatch at `group` and `bit`, which the comparator checks; `halves` when the two halves of the
comparator disagree. -/
def mismatch (t group bit : Nat) (halves : Bool) (d : Dev) : Dev :=
  if tlState t d ≠ 3 ∨ groupBits group ≤ bit then d
  else
    let m := d.fcyc % 2 ^ 32
    let win := max 8 (fget (F.TL_CFG_WIN t) d)
    let x := tlOf t d
    let hit := x.wit.find? (fun w => decide ((m + 2 ^ 32 - w.stamp) % 2 ^ 32 ≤ win))
    let d := fset (F.TL_MISM_CYC_CYC t) m (fput (F.TL_MISM_ATTRIB t) hit.isSome
      (fset (F.TL_MISM_BIT t) bit (fset (F.TL_MISM_GROUP t) group d)))
    if halves then tlFault t 5 group bit d
    else match hit with
      | none => tlFault t 0 group bit d
      | some w =>
        let n := x.divs + 1
        let d := fsat (F.TL_CNT_A_DIVERGE t) 1 (tlPut t { x with divs := n } d)
        let d := if n = 1 then recordC 0x0702 t (w.din + group * 256) d else d
        if fget (F.TL_CFG_DIV_MAX t) d < n then tlFault t 1 group bit d else rollback t d

def execComparatorMismatch (t : Fin 5) (group : BitVec 4) (bit : BitVec 7) (halves : Bool) (s : State) :
    Host.Outcome State Fault Refusal := onDev (mismatch t.val group.toNat bit.toNat halves) s

/-- ROLLBACK_RESTART (R272): the state is restored and the cores restart; `parity`: a shadow register fails its check. -/
def rollbackRestart (t : Nat) (parity : Bool) (d : Dev) : Dev :=
  if tlState t d ≠ 4 then d
  else if parity then tlFault t 3 0 0 d
  else
    let x := tlOf t d
    let cyc := tabGet (fun _ => (0 : DWord)) x.arch.csr 0xB00
    let a := { x.shadow with csr := tabSet (fun _ => (0 : DWord)) x.shadow.csr 0xB00 cyc }
    haltCheck t (tlStatePut t 3 (tlPut t { x with arch := a } d))

def execRollbackRestart (t : Fin 5) (parity : Bool) (s : State) : Host.Outcome State Fault Refusal :=
  onDev (rollbackRestart t.val parity) s

/-- DIVERGENCE_INTERVAL (R273): the count starts again on every trestle. -/
def divergenceInterval (d : Dev) : Dev := each (List.range 5) (fun t d => tlPut t { tlOf t d with divs := 0 } d) d

def execDivergenceInterval (s : State) : Host.Outcome State Fault Refusal := onDev divergenceInterval s

/-- DIN_CHANGE (R265, R266): direct input `k` takes a level; `split` when the two synchronisers resolve it in different cycles. -/
def dinChange (t k : Nat) (level split : Bool) (d : Dev) : Dev :=
  if 48 ≤ fget (F.TL_DIN_SRC t (k / 4) (k % 4)) d then d
  else
    let x := tlOf t d
    let old := maskBit x.din k
    let stamp := d.fcyc % 2 ^ 32
    let d := tlPut t { x with din := maskPut x.din k level, wit := if split then ((⟨k, stamp⟩ : WitRec) :: x.wit).take 8 else x.wit } d
    let d := if split then
        fset (F.TL_WIT_CYC_CYC t) stamp (fput (F.TL_WIT_VALID t) true (fset (F.TL_WIT_DIN t) k d)) else d
    if old != level && fbit (F.TL_DIN_IE_IE t) k d then localIrq t 16 d else d

def execDinChange (t : Fin 5) (k : Fin 16) (level split : Bool) (s : State) : Host.Outcome State Fault Refusal :=
  onDev (dinChange t.val k.val level split) s

/-! ### Control and test (R279, R282, R283, R287) -/

/-- The trestles released between `was` and `d`. -/
def released (was d : Dev) : List Nat :=
  (List.range 5).filter (fun t => tlState t was != 3 && tlState t was != 4 && tlState t d == 3)

/-- The secure monitor's copy for a trestle with a boot descriptor: LEN bytes from FLASH_OFS to DEST (R368). -/
def monitorCopy (t : Nat) (m : List Host.Cell) (d : Dev) : List Host.Cell × Dev :=
  match bootOf t d with
  | some b => (memPlace b.dest (memRead m (flashBase + b.ofs) b.len) m, badCovered b.dest b.len d)
  | none => (m, d)

/-- The copies for the trestles released between `was` and `d`. -/
def monitorCopies (was d : Dev) (m : List Host.Cell) : List Host.Cell × Dev :=
  (released was d).foldl (fun md t => monitorCopy t md.1 md.2) (m, d)

/-- A change of the device, with the monitor's copies for the trestles that it releases. -/
def withMonitor (f : Dev → Dev) (m : List Host.Cell) (d : Dev) : List Host.Cell × Dev := monitorCopies d (f d) m

/-- TL_CTRL_RESTART: READY goes to RUN, STOPPED and FAULTED to TEST; ignored otherwise and for TL0. -/
def ctrlRestart (t : Nat) (d : Dev) : Dev :=
  if t = 0 then d
  else match tlState t d with
    | 1 => tlRelease t d
    | 5 | 6 => tlRestart t d
    | _ => d

def execTlCtrlRestart (t : Fin 5) (s : State) : Host.Outcome State Fault Refusal :=
  onBoth (withMonitor (ctrlRestart t.val)) s

/-- TL_CTRL_STOP (R282): as a fault under R277, with the notices, but no fault and no faulted tenant. -/
def ctrlStop (t : Nat) (d : Dev) : Dev :=
  if t = 0 ∨ tlState t d ≠ 3 then d else notices t (tlStopped t 0 (tlHalt t true d))

def execTlCtrlStop (t : Fin 5) (s : State) : Host.Outcome State Fault Refusal := onDev (ctrlStop t.val) s

/-- TL_CTRL_TEST (R283): the comparator test of a READY, STOPPED or FAULTED trestle. -/
def ctrlTest (t : Nat) (d : Dev) : Dev :=
  if t ≠ 0 ∧ (tlState t d = 1 ∨ tlState t d = 5 ∨ tlState t d = 6) then tlTest t (tlState t d + 10) d else d

def execTlCtrlTest (t : Fin 5) (s : State) : Host.Outcome State Fault Refusal := onDev (ctrlTest t.val) s

/-- TL_CTRL_CLR_CNT (R287). -/
def ctrlClr (t : Nat) (d : Dev) : Dev := regPut (R.TL_CNT_B t) 0 (regPut (R.TL_CNT_A t) 0 d)

def execTlCtrlClrCnt (t : Fin 5) (s : State) : Host.Outcome State Fault Refusal := onDev (ctrlClr t.val) s

/-- COMPARATOR_TEST_DONE (R283). The cycles that a failed test took are a free value. -/
def testDone (t : Nat) (r : TestResult) (d : Dev) : Dev :=
  if tlState t d ≠ 2 then d
  else match r with
    | .pass =>
      let d := fput (F.TL_STAT_TEST_OK t) true (regPut (R.TL_TEST t) 0 d)
      let d := fset (F.TL_TEST_TEST_CYC t) 4096 d
      match (tlOf t d).after with
      | 0 => if t = 0 then tlRelease t d else tlStatePut t 1 d
      | 1 => tlRelease t d
      | k => tlStatePut t (k - 10) d
    | .fail group bit pol delay =>
      let (n, d) := draw d
      let w := group.toNat + bit.toNat * 16 + b2n pol * 2 ^ 11 + b2n delay * 2 ^ 12
      let d := fset (F.TL_TEST_TEST_CYC t) (Config.freeWord n).toNat (regPut (R.TL_TEST t) (BitVec.ofNat 32 w) d)
      tlFault t 6 0 0 (recordC 0x0705 t w (fput (F.TL_STAT_TEST_OK t) false d))

/-! ### Execution (R268 to R271) -/

/-- A trap of trestle `t`: taken at the level that delegation names; the epoch ends before the handler, and counts an instruction
that raised an exception (R268). -/
def trap (t : Nat) (intr : Bool) (cause tval : Nat) (d : Dev) : Dev :=
  let x := tlOf t d
  let a := if intr && irqSecure t cause x.arch then trapM t intr cause tval x.arch else trapTo t intr cause tval x.arch
  -- an interrupt starts an epoch of its own: the one that a rollback restarted is not restarted again
  let repeats := if intr then 0 else x.repeats
  haltCheck t (epochCommit t (tlPut t { x with arch := a, load := none, repeats, epoch := x.epoch + b2n (!intr) } d))

/-- An instruction that has retired: counted in the epoch and, in normal world, in minstret (R299). The epoch ends after it when `ends`
holds, at its 256th instruction and at its 32nd store (R268). -/
def retired (t : Nat) (ends : Bool) (d : Dev) : Dev :=
  let x := tlOf t d
  let off := x.arch.w || (csrRaw x.arch 0x320).testBit 2
  let a := if off then x.arch else csrRawPut 0xB02 (csrRaw x.arch 0xB02 + 1) x.arch
  let stores := (x.store.filter (fun e => !e.committed)).length
  let d := tlPut t { x with epoch := x.epoch + 1, arch := a } d
  haltCheck t (if ends || decide (256 ≤ x.epoch + 1) || decide (32 ≤ stores) then epochCommit t d else d)

/-- The register writes of a retirement; x0 keeps 0. A floating-point register written or a flag accrued turns FS dirty. -/
def regWrites (r : Retired) (a : Arch) : Arch :=
  let a := match r.x with
    | some (i, v) => if i.val = 0 then a else { a with x := tabSet (fun _ => (0 : DWord)) a.x i.val v }
    | none => a
  let a := if r.fflags = 0 then a else fsDirty (csrRawPut 3 (csrRaw a 3 ||| r.fflags.toNat) a)
  match r.f with
  | some (i, v) => fsDirty { a with f := tabSet (fun _ => (0 : DWord)) a.f i.val v }
  | none => a

/-- The CSR access of a retirement: the old value to its register, then the write; the exception of a refused one. -/
def csrAccess (t : Nat) (c : CsrOp) (d : Dev) : Option Nat × Dev :=
  let n := c.num.toNat
  match csrTrap t n c.write.isSome d with
  | some e => (some e, d)
  | none =>
    let old := BitVec.ofNat 64 (csrRead t n d)
    let d := match c.write with
      | some v => csrWrite t n v.toNat d
      | none => d
    let x := tlOf t d
    (none, tlPut t { x with arch := regWrites { x := some (c.rd, old) } x.arch } d)

/-- The store of a retirement enters the buffer; the fault of its translation otherwise. -/
def storeEnter (t : Nat) (s : StoreOp) (m : List Host.Cell) (d : Dev) : Option (Nat × Nat) × Dev :=
  let x := tlOf t d
  let (priv, v) := dataMode x.arch s.hyp
  match if s.hyp then hypTrap x.arch else none with
  | some c => (some (c, 0), d)
  | none =>
  match translate m d x.arch priv v .write s.va.toNat with
  | .error c => (some (c, s.va.toNat), d)
  | .ok pa =>
    let e : SbEntry := { addr := pa, size := s.size, data := s.data.toNat % 2 ^ (8 * s.size), attr := tlAttr x.arch priv v pa }
    (none, tlPut t { x with store := x.store ++ [e] } d)

/-- The physical address that the instruction at the PC is fetched from, where the fetch is granted (R309). A fetch from a peripheral slot
is an access of 4 bytes, refused as any other (R7); no rule gives a fetch its width. DESIGN CHOICE (notes/assumptions/75.md). -/
def fetchPa (t : Nat) (m : List Host.Cell) (d : Dev) : Except (Nat × Dev) Nat :=
  let a := (tlOf t d).arch
  match translate m d a a.priv a.v .fetch a.pc.toNat with
  | .error c => .error (c, d)
  | .ok pa =>
    match targetOf pa with
    | none => .error (1, d)
    | some c =>
      let attr := tlAttr a a.priv a.v pa
      if !granted c pa 2 2 attr d then .error (1, refuse c pa 2 2 attr d)
      else if c = 3 ∧ (periRefuses pa 4 d).isSome then .error (1, d)
      else .ok pa

/-- The line of an address in normal memory is filled into a cache (R260): 64-byte lines, 32 KiB of them. Which line gives way is a
DESIGN CHOICE (notes/assumptions/75.md). -/
def lineFill (l : List Nat) (pa : Nat) : List Nat :=
  if isIo pa || l.contains (pa / 64) then l else (pa / 64 :: l).take 512

/-- The line fetched from stands in the instruction caches of both cores. -/
def fetchFill (t pa : Nat) (d : Dev) : Dev := tlPut t { tlOf t d with icache := lineFill (tlOf t d).icache pa } d

/-- The line loaded from stands in the data caches of both cores. -/
def loadFill (t pa : Nat) (d : Dev) : Dev := tlPut t { tlOf t d with dcache := lineFill (tlOf t d).dcache pa } d

/-- The number of the line that a refill event names by its address bits [31:6], where the cache holds it. -/
def lineNamed (l : List Nat) (line : Nat) : Option Nat := l.find? (fun k => k % 2 ^ 26 == line / 64)

/-- A parity error in a line that a core reads (R274): the line is invalidated in both cores' caches, and the trestle rolled back. -/
def cacheRefill (t : Nat) (trailing dataCache : Bool) (line : Nat) (d : Dev) : Dev :=
  let x := tlOf t d
  match lineNamed (if dataCache then x.dcache else x.icache) line with
  | none => d
  | some k =>
    let x := if dataCache then { x with dcache := x.dcache.erase k } else { x with icache := x.icache.erase k }
    rollback t (recordC 0x0703 t (b2n trailing + 2 * b2n dataCache + line / 64 * 64) (fsat (F.TL_CNT_B_REFILL t) 1 (tlPut t x d)))

/-- The exception of a refused fetch. -/
def fetchFault (t : Nat) (m : List Host.Cell) (d : Dev) : Option (Nat × Dev) :=
  match fetchPa t m d with
  | .error e => some e
  | .ok _ => none

/-- The memory check that a fetch fails (R405). -/
def fetchCheck : RunCheck → MemCheck
  | .romWord => .romParity
  | .sramWord lanes => .sramParity lanes
  | .dramBurst => .dramCrc
  | _ => .good

/-- Whether an instruction ends the epoch before it. -/
def endsBefore (r : Retired) (io : Bool) : Bool :=
  io || (match r.kind with
    | .atomic .. | .wfi => true
    | _ => false)

/-- Whether it ends the epoch after it. -/
def endsAfter (r : Retired) (io : Bool) : Bool :=
  io || (match r.kind with
    | .atomic .. | .fence | .mret | .sret => true
    | _ => false)

/-- The fault of an AMO, LR or SC, which needs read and write permission (R308): its cause, and the device after the refusal. -/
def atomicFault (t : Nat) (r : Retired) (m : List Host.Cell) (d : Dev) : Option (Nat × Nat × Dev) :=
  match r.kind with
  | .atomic lr va size _ =>
    let a := (tlOf t d).arch
    let ty : AccType := if lr then .read else .write
    let (priv, v) := dataMode a false
    match translate m d a priv v ty va.toNat with
    | .error c => some (c, va.toNat, d)
    | .ok pa =>
      let attr := tlAttr a priv v pa
      match targetOf pa with
      | none => some (accFault ty, va.toNat, d)
      | some c =>
        if !granted c pa size 0 attr d then some (accFault ty, va.toNat, refuse c pa 0 size attr d)
        else if !granted c pa size 1 attr d then some (accFault ty, va.toNat, refuse c pa 1 size attr d)
        else if c = 3 then (periRefuses pa size d).map (fun e =>
          (accFault ty, va.toNat, fset (F.BRG_LD_CAUSE_DETAIL t) 0 (fset (F.BRG_LD_CAUSE_CAUSE t) e d)))
        else if readFails c (checkNow .good pa size d) then some (accFault ty, va.toNat, memError pa (checkNow .good pa size d) d)
        else none
  | _ => none

/-- The exception of an instruction that its mode does not permit: MRET below M, SRET in U and under TSR and VTSR, and a floating-point
result with the unit off. -/
def modeTrap (r : Retired) (a : Arch) : Option Nat :=
  match r.kind with
  | .mret => if a.priv = 3 then none else some 2
  | .sret =>
    if a.priv = 0 then some (if a.v then 22 else 2)
    else if a.v then (if (csrRaw a 0x600).testBit 22 then some 22 else none)
    else if a.priv = 1 ∧ (csrRaw a 0x300).testBit 22 = true then some 2 else none
  | _ => if (r.f.isSome || r.fflags != 0) && fsOff a then some 2 else none

/-- One instruction retires on both cores and compares equal. -/
def runInstr (t : Nat) (r : Retired) (m : List Host.Cell) (d : Dev) : Dev :=
  match r.kind with
  | .trap c v => trap t false c.toNat v.toNat d
  | .custom0 => trap t false 2 0 d
  | _ =>
    match modeTrap r (tlOf t d).arch with
    | some c => trap t false c 0 d
    | none =>
    let st := match r.store with
      | some s =>
        let (priv, v) := dataMode (tlOf t d).arch s.hyp
        match translate m d (tlOf t d).arch priv v .write s.va.toNat with
        | .ok pa => isIo pa
        | .error _ => false
      | none => false
    let d := if endsBefore r st then epochCommit t d else d
    let (e1, d) := match r.csr with
      | some c => csrAccess t c d
      | none => (none, d)
    match e1 with
    | some e => trap t false e 0 d
    | none =>
      let (e2, d) := match r.store with
        | some s => storeEnter t s m d
        | none => (none, d)
      match e2 with
      | some (c, v) => trap t false c v d
      | none =>
        let x := tlOf t d
        let a := regWrites r x.arch
        let a := match r.kind with
          | .atomic _ _ _ resv => { a with resv }
          | _ => a
        let a := match r.kind with
          | .mret => retM t a
          | .sret => retS a
          | _ => { a with pc := r.next }
        retired t (endsAfter r st) (tlPut t { x with arch := a } d)

/-- An AMO, LR or SC. -/
def isAtomic (r : Retired) : Bool :=
  match r.kind with
  | .atomic .. => true
  | _ => false

/-- EXECUTE_INSTRUCTION (R259, R261): the instruction at the PC, with what it retires, and an error found while it runs. An AMO,
LR or SC waits until the epoch before it has committed and drained (R270). -/
def execInstr (t : Nat) (r : Retired) (chk : RunCheck) (m : List Host.Cell) (d : Dev) : Dev :=
  let x := tlOf t d
  -- a delay line carries in every cycle of RUN, whatever the cores do
  if chk = .delayLine then
    (if tlState t d = 3 then rollback t (recordC 0x0704 t 1 (fsat (F.TL_CNT_B_DLY_PAR t) 1 d)) else d)
  else if tlIdle t d = true ∨ x.load.isSome = true ∨ (r.store.isSome = true ∧ 32 ≤ x.store.length) then d
  else match chk with
    | .cacheLine tr dc line => cacheRefill t tr dc line.toNat d
    | .storeBuffer => rollback t (recordC 0x0704 t 0 (fsat (F.TL_CNT_B_SB_PAR t) 1 d))
    | .fetchParity =>
      match fetchPa t m d with
      | .error (c, d) => trap t false c x.arch.pc.toNat d
      | .ok pa => rollback t (recordC 0x0A11 pa (t + 8) (fsat F.BRG_CNT_PAR_FABRIC 1 d))
    | _ =>
      match fetchPa t m d with
      | .error (c, d) => trap t false c x.arch.pc.toNat d
      | .ok pa =>
        let k := checkNow (fetchCheck chk) pa 2 d
        if readFails ((targetOf pa).getD 9) k then trap t false 1 x.arch.pc.toNat (memError pa k d)
        else
          let d := fetchFill t pa d
          if isAtomic r && !x.store.isEmpty then epochCommit t d
          else match atomicFault t r m (if isAtomic r then epochCommit t d else d) with
            | some (c, v, d) => trap t false c v d
            | none => runInstr t r m d

def execExecuteInstruction (t : Fin 5) (r : Retired) (chk : RunCheck) (s : State) : Host.Outcome State Fault Refusal :=
  .next { s with dev := execInstr t.val r chk s.mem s.dev }

/-- INTERRUPT_TAKEN (R292): interrupt `cause` of trestle `t`, pending and enabled. The machine software and the machine timer interrupt
come with the command, since no register of the spec makes them pending. A load that is being retried is abandoned (R394). -/
def interruptTaken (t cause : Nat) (d : Dev) : Dev :=
  let x := tlOf t d
  let waits := match x.load with
    | some l => l.data.isNone && l.error.isNone && !(isIo l.addr && readMode (if targetOf l.addr = some 4 then 0 else 1) l.addr d != 0)
    | none => false
  let pending := cause == 3 || cause == 7 || irqPends t cause d
  if tlIdle t d = true ∨ waits = true ∨ !pending ∨ !irqTaken t cause x.arch then d
  else
    let d := tlPut t { x with irq := if cause = 16 ∨ cause = 17 ∨ cause = 18 then maskPut x.irq cause false else x.irq } d
    trap t true cause 0 d

def execInterruptTaken (t : Fin 5) (cause : BitVec 6) (s : State) : Host.Outcome State Fault Refusal :=
  onDev (interruptTaken t.val cause.toNat) s

/-! ### Gateway instructions (R293 to R298) -/

/-- The privilege rule of WGATE (R294): the exception elsewhere than in HS mode. -/
def wgateTrap (a : Arch) : Option Nat :=
  if a.v then some 22 else if a.w || a.priv != 1 then some 2 else none

/-- The reason of the first check of R294 that fails. -/
def wgateReason (rs1 : Nat) (m : List Host.Cell) (d : Dev) : Option Nat :=
  if 2 ^ 40 ≤ rs1 then some 3
  else if rs1 % 4 ≠ 0 then some 0
  else match targetOf rs1 with
    | none => some 1
    | some c =>
      match regionOf c rs1 4 d with
      | some n =>
        if !(granted c rs1 4 2 attrMaster d && flag (F.RC_CFG_S_X c n) d && flag (F.RC_CFG_GATE c n) d) then some 1
        else if memWord m rs1 ≠ 0x100B then some 2
        else none
      | none => some 1

/-- WGATE with `rs1` holding a physical address. It forms an epoch alone, and an interrupt pending and enabled is taken before it
(R298). -/
def wgate (t : Nat) (rs1 : DWord) (m : List Host.Cell) (d : Dev) : Dev :=
  if tlIdle t d = true then d
  else match irqNext t d with
  | some c => interruptTaken t c d
  | none =>
    let d := epochCommit t d
    match wgateTrap (tlOf t d).arch with
    | some c => trap t false c 0 d
    | none =>
      match wgateReason rs1.toNat m d with
      | some why =>
        trap t false 24 rs1.toNat
          (recordC 0x0801 rs1.toNat ((rs1.toNat >>> 32) % 256 + why * 256 + t * 2 ^ 16) d)
      | none =>
        let x := tlOf t d
        let s := mst x.arch
        let a := { mstPut (bitsPut s 3 1 0) x.arch with
          wepc := x.arch.pc + 4, wstatus := BitVec.ofNat 5 (1 + 1 * 2 + b2n (s.testBit 3) * 16), w := true, priv := 3, v := false
          pc := rs1 + 4 }
        retired t true (tlPut t { x with arch := a } d)

def execWgate (t : Fin 5) (rs1 : DWord) (s : State) : Host.Outcome State Fault Refusal :=
  .next { s with dev := wgate t.val rs1 s.mem s.dev }

/-- A secure interrupt pending and enabled is taken (R298). -/
def secureIrqTake (t : Nat) (d : Dev) : Dev :=
  match irqNext t d with
  | some c => if irqSecure t c (tlOf t d).arch then interruptTaken t c d else d
  | none => d

/-- WRET (R296): permitted in M-mode with W = 1 and ACT = 1. W stays 1 on TL0, which never leaves secure world, and where PP names M-mode,
which always runs with W = 1 (R289; notes/assumptions/74.md). A pending secure interrupt is taken before the next instruction (R298). -/
def wret (t : Nat) (d : Dev) : Dev :=
  let a := (tlOf t d).arch
  if tlIdle t d = true then d
  else if !(a.priv == 3 && a.w && a.wstatus.getLsbD 0) then trap t false 2 0 d
  else
    let d := epochCommit t d
    let x := tlOf t d
    let a := x.arch
    let st := a.wstatus.toNat
    let b := { mstPut (bitsPut (mst a) 3 1 (bitsOf st 4 1)) a with
      priv := bitsOf st 1 2, v := st.testBit 3 && t != 0 && bitsOf st 1 2 != 3, wstatus := BitVec.ofNat 5 (st / 2 * 2)
      w := t == 0 || bitsOf st 1 2 == 3, pc := a.wepc }
    secureIrqTake t (retired t true (tlPut t { x with arch := b } d))

def execWret (t : Fin 5) (s : State) : Host.Outcome State Fault Refusal := onDev (wret t.val) s

/-- WENTRY (R293): a no-op; the next instruction follows. -/
def wentry (t : Nat) (d : Dev) : Dev :=
  if tlIdle t d = true then d
  else
    let x := tlOf t d
    retired t false (tlPut t { x with arch := { x.arch with pc := x.arch.pc + 4 } } d)

def execWentry (t : Fin 5) (s : State) : Host.Outcome State Fault Refusal := onDev (wentry t.val) s

/-- WTENANT_WRITE (R302): a CSR write of WTENANT by the instruction at the PC. -/
def wtenantWrite (t : Nat) (tid : Nat) (d : Dev) : Dev :=
  if tlIdle t d = true then d
  else match csrTrap t 0x5C0 true d with
    | some c => trap t false c 0 d
    | none =>
      let d := tenantTag t tid d
      let x := tlOf t d
      retired t false (tlPut t { x with arch := { x.arch with pc := x.arch.pc + 4 } } d)

def execWtenantWrite (t : Fin 5) (tid : BitVec 3) (s : State) : Host.Outcome State Fault Refusal :=
  onDev (wtenantWrite t.val tid.toNat) s

end Sys2Proof.Machine
end

