-- ==== Sys2Proof/Machine/RegRead.lean ====
section
/-!
DEFINITION. Machine/RegRead.lean: what a register reads as where the register file does not hold its value: levels, masks and times that
follow from other state; and the reads that change state (R42, R132, R421).
-/

namespace Sys2Proof.Machine

/-- The load channels with a property, as a mask. -/
def chMask (p : Nat → Bool) : Nat := (below 32 p).foldl (fun m ch => m + 2 ^ ch) 0

/-- The switch of channel `ch` conducts now (OUT): in a running pattern for the duty's share of each period (R235). -/
def chConducts (ch : Nat) (d : Dev) : Bool :=
  let c := chan ch d
  flag (F.LSW_CH_STAT_OUT ch) d && (match c.patternAt with
    | some t => decide ((d.clk - t) * 10 % max 1 c.period * 1024 < c.duty * c.period)
    | none => true)

/-- The closed-form registers of LSW (R255, R258): the masks, BOUND, and ON of a bound channel (R229). -/
def lswView (a v : Nat) (d : Dev) : Nat :=
  if a = R.LSW_ON then chMask (fun ch => chIsOn ch d)
  else if a = R.LSW_FAULT then chMask (fun ch => regGet d (R.LSW_CH_FLT ch) != 0)
  else if a = R.LSW_LATCHED then chMask (fun ch => chState ch d == 4)
  else if a = R.LSW_SHED then chMask (fun ch => chState ch d == 6)
  else if 0x71000 ≤ a ∧ a < 0x73000 then
    let ch := (a - 0x71000) / 0x100
    if a = R.LSW_CH_STAT ch then bitsPut (bitsPut v 4 1 (b2n (isBound ch d))) 3 1 (b2n (chConducts ch d))
    else if a = R.LSW_CH_CMD ch ∧ chForeign ch d = true then bitsPut v 0 1 (b2n (coilOn ch d))
    else v
  else v

/-- HOLD_LEFT and STEP_MS (R220, R221). -/
def protView (a v : Nat) (d : Dev) : Nat :=
  if a = R.PROT_STATUS then
    bitsPut v 16 16 (if zone d = 6 then fget F.PROT_HOLD_HOLD_MS d - msSince d.prot.holdAt d else 0)
  else if 0x60100 ≤ a ∧ a < 0x60400 ∧ a % 16 = 8 then
    bitsPut v 16 16 (min 65535 (msSince (seqOf ((a - 0x60100) / 16) d).enterAt d))
  else v

/-- STATE of tenant 0 (R304), ENGINE of AIX, and the queues of imprecise bus errors (R413). -/
def busView (a v : Nat) (d : Dev) : Nat :=
  if a = R.WLD_TEN_STAT 0 then
    bitsPut v 0 3 (if tlState 0 d = 3 ∨ tlState 0 d = 4 then 1 else if tlState 0 d = 5 ∨ tlState 0 d = 6 then 2 else bitsOf v 0 3)
  else if a = R.AIX_STATUS then bitsPut v 0 1 (b2n (tlState 0 d == 3))
  else if a = R.CPX_STATUS then bitsPut v 15 1 (b2n (devFault d))
  else if 0x80100 ≤ a ∧ a < 0x80240 ∧ a % 0x40 = 8 then
    bitsPut v 24 8 (min 255 (restartsIn ((a - 0x80100) / 0x40) d).length)
  else if a = R.CPX_FCYC then d.fcyc % 2 ^ 32
  else if 0xB0200 ≤ a ∧ a < 0xB02A0 then
    let t := (a - 0xB0200) / 0x20
    if a = R.BE_N_LO t then (beWords false t d).1
    else if a = R.BE_N_HI t then (beWords false t d).2
    else if a = R.BE_S_LO t then (beWords true t d).1
    else if a = R.BE_S_HI t then (beWords true t d).2
    else v
  else v

/-- The recorder's levels (R482) and the CAN counters (R432). -/
def sideView (a v : Nat) (d : Dev) : Nat :=
  if a = R.REC_STATUS then
    bitsPut (bitsPut (bitsPut v 16 7 d.side.intake.length) 8 5 d.side.fallback.length) 3 1 (b2n (d.side.run.any (fun r => 0 < r.count)))
  else if a = R.REC_RUN_CNT then (match d.side.run <|> d.side.carried with
    | some r => r.count % 65536
    | none => 0)
  else if 0x100000 ≤ a ∧ a < 0x160000 ∧ a % 0x10000 = 0x1C then canTs d
  else if a = R.IOX_LSO_SAFE then (below 16 (fun k => !isBound (32 + k) d && v.testBit k)).foldl (fun m k => m + 2 ^ k) 0
  else if a = R.EST_STATUS then
    bitsPut v 1 1 (b2n (v.testBit 1 || (List.range 8).any (fun l => decide (d.fcyc < tabGet (fun _ => 0) d.est.laneAt l))))
  else v

/-- What register number `a` holds, before its access codes act. -/
def regNow (a : Nat) (d : Dev) : Nat :=
  let v := (regGet d a).toNat
  match a / 0x10000 with
  | 6 => protView a v d
  | 7 => lswView a v d
  | 8 | 9 | 10 | 11 => busView a v d
  | _ => sideView a v d

/-- Timestamp bits 47 to 32 for trestle `t`: as latched by its last read of ANG_NOW_LO; none has been latched: the present ones. -/
def nowHiRead (t : Nat) (d : Dev) : Nat :=
  match tabGet (fun _ => 0) d.ang.nowHi t with
  | 0 => tsNow d / 2 ^ 32
  | k + 1 => k

/-- The value of the register's read by trestle `t` with an attribute byte, and the device after it. Reserved offsets read 0. -/
def regRead (t attr a : Nat) (d : Dev) : Nat × Dev :=
  let s := attrWorld attr
  if (regRow a).isNone then (0, d)
  else if a = R.ANG_NOW_LO then (tsNow d % 2 ^ 32, nowLoRead t d)
  else if a = R.ANG_NOW_HI then (nowHiRead t d, d)
  else if a = R.KZC_ALERT_FIFO then
    ((match d.kzc.fifo with
      | [] => 0
      | e :: _ => e.word), alertRead t d)
  else if a = R.KZC_ALERT_TS_LO then ((tabGet (fun _ => 0) d.kzc.latch t - 1) % 2 ^ 32, d)
  else if a = R.KZC_ALERT_TS_HI then ((tabGet (fun _ => 0) d.kzc.latch t - 1) / 2 ^ 32, d)
  else if 0x100000 ≤ a ∧ a < 0x160000 ∧ (a % 0x10000 = 0x14C ∨ a % 0x10000 = 0x24C) then
    (regShown a s (regNow a d), txDonePop (a / 0x10000 - 16) (a % 0x10000 / 0x100 - 1) d)
  else (regShown a s (regNow a d), d)

end Sys2Proof.Machine
end

