-- ==== Sys2Proof/Machine/Peer.lean ====
section
/-!
DEFINITION. Machine/Peer.lean: the frames of the peer link (R399), and the outbound half of the peer bridge (R402, R404).
-/

namespace Sys2Proof.Machine

/-! ### The link -/

/-- PEER_LINK_CONTROL_FRAME: frames acknowledged, in whose room waiting ones leave, a measured round trip in ns if it brings one, and the partner's zone state, none in a
frame whose CRC is bad, which is discarded (R405). -/
def peerControl (acked : Nat) (rtt : Option (BitVec 16)) (zone : Option (Fin 7)) (d : Dev) : Dev :=
  if fget F.PEER_STATUS_LINK d = 0 then d
  else match zone with
    | none => fsat F.PEER_CNT_CRC_CNT 1 d
    | some z =>
      let d := framesDrain acked (partnerZonePut z.val { d with brg := { d.brg with unacked := d.brg.unacked - acked } })
      match rtt with
      | some r => fset F.PEER_RTT_RTT r.toNat d
      | none => d

def execPeerLinkControlFrame (acked : Fin 33) (rtt : Option (BitVec 16)) (zone : Option (Fin 7)) (s : State) :
    Host.Outcome State Fault Refusal := onBlk 12 (peerControl acked.val rtt zone) s

/-- PEER_RETRANSMIT: an unacknowledged frame is sent again with every later one; `n` frames in all. -/
def peerRetransmit (n : Nat) (d : Dev) : Dev :=
  let k := min n d.brg.unacked
  if k = 0 then d else send (.peerFrames k) (fsat F.PEER_CNT_RETX_CNT k d)

def execPeerRetransmit (n : Fin 33) (s : State) : Host.Outcome State Fault Refusal := onBlk 12 (peerRetransmit n.val) s

/-- PEER_IDLE_CONTROL. -/
def execPeerIdleControl (s : State) : Host.Outcome State Fault Refusal := onBlk 12 (toPartner .peerControl) s

/-- PEER_LANE: the link runs on the other lane alone. -/
def peerLane (lane : Nat) (d : Dev) : Dev :=
  let f := if lane = 0 then F.PEER_STATUS_LANE_0 else F.PEER_STATUS_LANE_1
  if flag f d then recordC 0x0A22 lane 0 (fput f false d) else d

def execPeerLane (lane : Fin 2) (s : State) : Host.Outcome State Fault Refusal := onBlk 12 (peerLane lane.val) s

/-- PEER_CLR: the peer counters cleared. -/
def peerClr (d : Dev) : Dev :=
  each [R.PEER_CNT_CRC, R.PEER_CNT_RETX, R.PEER_CNT_RETRY, R.PEER_CNT_ERR] (fun r => regPut r 0) d

def execPeerClr (s : State) : Host.Outcome State Fault Refusal := onBlk 12 peerClr s

/-! ### Outbound requests -/

/-- The list of outbound requests, and PEER_STATUS.OUT with it. -/
def peerOutPut (l : List PeerReq) (d : Dev) : Dev :=
  fset F.PEER_STATUS_OUT (min 8 l.length) { d with brg := { d.brg with peerOut := l } }

/-- The frame of a request, or of the half that is due. -/
def peerSend (x : PeerReq) (d : Dev) : Dev :=
  let size := if x.block then 64 else min 4 x.size
  toPartner (.peerRequest x.write (x.target + 4 * x.half) size (if x.write then (x.data >>> (32 * x.half)) % 2 ^ (8 * size) else 0)) d

/-- A request enters; it leaves at once when fewer than 8 are outstanding. -/
def peerEnter (x : PeerReq) (d : Dev) : Dev :=
  let n := d.brg.peerOut.length
  let d := peerOutPut (d.brg.peerOut ++ [x]) d
  if n < 8 then peerSend x d else d

/-- The request at place `i` is done; the first one held at the port takes its place. -/
def peerLeave (i : Nat) (d : Dev) : Dev :=
  let next := d.brg.peerOut[8]?
  let d := peerOutPut (d.brg.peerOut.eraseIdx i) d
  match next with
  | some x => peerSend x d
  | none => d

/-- PEER_ERROR: partner address, cause and the partner's cause. -/
def peerError (target cause detail : Nat) (d : Dev) : Dev :=
  recordC 0x0A23 target (cause + detail % 16 * 16) (fsat F.PEER_CNT_ERR_CNT 1 d)

/-- The request at place `i` fails. -/
def peerFail (i cause detail : Nat) (d : Dev) : Dev :=
  match d.brg.peerOut[i]? with
  | none => d
  | some x =>
    let d := peerError x.target cause detail (peerLeave i d)
    busDeliver x.origin x.write x.addr x.size x.attr x.mode 1 (.error cause detail (x.addr + 4 * x.half)) d

/-- The bytes of an access within its 64-byte block. -/
def blockData (a size : Nat) (bs : List Byte) : Nat := field bs (a % 64) size

/-- The peer bridge's prefetch buffer filled with a block. -/
def peerPfKeep (x : PeerReq) (bs : List Byte) (d : Dev) : Dev :=
  if x.stale then d else
  let buf := (x.addr / 64 * 64, (List.range 32).map (fun k => field bs (2 * k) 2))
  { d with brg := { d.brg with pf := tabSet (fun _ => (0, [])) d.brg.pf 16 buf } }

/-- A write goes to a 64-byte block of the peer window: the prefetch buffer does not keep it, nor take a read of it under way. -/
def peerPfWritten (a : Nat) (d : Dev) : Dev :=
  let b := d.brg
  let there (x : Nat) : Bool := x / 64 * 64 == a / 64 * 64
  let pf := if there (tabGet (fun _ => (0, ([] : List Nat))) b.pf 16).1 then tabDel b.pf 16 else b.pf
  { d with brg := { b with pf, peerOut := b.peerOut.map (fun x => if there x.addr then { x with stale := true } else x) } }

/-- PEER_RESPONSE (R402 to R404): the answer to the request at place `i`. -/
def peerResponse (i : Nat) (a : PeerAnswer) (d : Dev) : Dev :=
  match d.brg.peerOut[i]? with
  | none => d
  | some x =>
    if 8 ≤ i ∨ x.waits = true then d
    else match a with
      | .error c => peerFail i 9 c.toNat d
      | .retry =>
        let d := fsat F.PEER_CNT_RETRY_CNT 1 d
        if max 1 (fget F.PEER_CFG_RETRY_MAX d) ≤ x.tries then peerFail i 8 0 d
        else peerOutPut (listPut d.brg.peerOut i { x with waits := true }) d
      | .data bs =>
        if x.size = 8 ∧ x.half = 0 ∧ x.block = false then
          let x := { x with half := 1, low := field bs 0 4 }
          peerSend x (peerOutPut (listPut d.brg.peerOut i x) d)
        else
          let v := if x.block then blockData x.addr x.size bs
            else if x.size = 8 then x.low + field bs 0 4 * 2 ^ 32 else field bs 0 x.size
          let d := peerLeave i (if x.block then peerPfKeep x bs d else d)
          busDeliver x.origin x.write x.addr x.size x.attr x.mode 1 (.data v) d

/-- PEER_REQUEST_RETRY (R404): 20 µs after a RETRY answer the request is sent again. -/
def peerRetry (i : Nat) (d : Dev) : Dev :=
  match d.brg.peerOut[i]? with
  | some x =>
    if x.waits then
      let x := { x with waits := false, tries := x.tries + 1 }
      peerSend x (peerOutPut (listPut d.brg.peerOut i x) d)
    else d
  | none => d

def execPeerRequestRetry (i : Fin 8) (s : State) : Host.Outcome State Fault Refusal := onBlk 12 (peerRetry i.val) s

/-- A fabric access to the peer window (R390, R394, R402): refused, answered from the prefetch buffer, or sent. -/
def peerAccess (o : Origin) (write : Bool) (a size data attr : Nat) (d : Dev) : Option BusResult × Dev :=
  let n := bitsOf a 24 4
  let target := fget (F.PEER_MAP_BASE n) d * 2 ^ 24 + a % 2 ^ 24
  let no (cause : Nat) : Option BusResult × Dev := (some (.error cause 0 a), peerError target cause 0 d)
  if !(size == 1 || size == 2 || size == 4 || size == 8) || a % size != 0 then no 11
  else if !flag (F.PEER_MAP_EN n) d then no 1
  else if !peerUp d || fget F.PEER_STATUS_VER d != 2 then no 8
  else
    let mode := if write then 0 else readMode 1 a d
    let (start, ws) := tabGet (fun _ => (0, ([] : List Nat))) d.brg.pf 16
    if !write && mode == 2 && !ws.isEmpty && a / 64 * 64 == start then
      let bs := ws.flatMap (leBytes 2)
      (some (.data (blockData a size bs)), fsat F.BRG_CNT_PFHIT_CNT 1 d)
    else
      let d := if write then peerPfWritten a d else d
      let d := if mode = 0 then d else fsat F.BRG_CNT_RETRY_CNT 1 d
      let block := mode == 2
      (none, peerEnter { origin := o, write, addr := a, target := if block then target / 64 * 64 else target, size, data, attr,
                         mode, block } d)

end Sys2Proof.Machine
end

