-- ==== Sys2Proof/Machine/Crypto.lean ====
section
/-!
DEFINITION. Machine/Crypto.lean: SHA-384 and the verification of ECDSA over P-384, which R12, R317, R318 and R487 name, as FIPS 180-4 and
FIPS 186 define them (notes/assumptions/29.md).
-/

namespace Sys2Proof.Machine

/-! ### SHA-384 -/

/-- A word of 64 bits turned right by `n`. -/
def rotR64 (n x : Nat) : Nat := x / 2 ^ n + x % 2 ^ n * 2 ^ (64 - n)

/-- The four mixing functions by their two turns and a third amount, a turn (Σ) or a shift (σ). -/
def mixTurn (a b c x : Nat) : Nat := rotR64 a x ^^^ rotR64 b x ^^^ rotR64 c x
def mixShift (a b c x : Nat) : Nat := rotR64 a x ^^^ rotR64 b x ^^^ x / 2 ^ c

/-- The round constants: the fractions of the cube roots of the first 80 primes. -/
def sha384K : List Nat :=
  [0x428A2F98D728AE22, 0x7137449123EF65CD, 0xB5C0FBCFEC4D3B2F, 0xE9B5DBA58189DBBC, 0x3956C25BF348B538,
   0x59F111F1B605D019, 0x923F82A4AF194F9B, 0xAB1C5ED5DA6D8118, 0xD807AA98A3030242, 0x12835B0145706FBE,
   0x243185BE4EE4B28C, 0x550C7DC3D5FFB4E2, 0x72BE5D74F27B896F, 0x80DEB1FE3B1696B1, 0x9BDC06A725C71235,
   0xC19BF174CF692694, 0xE49B69C19EF14AD2, 0xEFBE4786384F25E3, 0x0FC19DC68B8CD5B5, 0x240CA1CC77AC9C65]
   ++ [0x2DE92C6F592B0275, 0x4A7484AA6EA6E483, 0x5CB0A9DCBD41FBD4, 0x76F988DA831153B5, 0x983E5152EE66DFAB,
   0xA831C66D2DB43210, 0xB00327C898FB213F, 0xBF597FC7BEEF0EE4, 0xC6E00BF33DA88FC2, 0xD5A79147930AA725,
   0x06CA6351E003826F, 0x142929670A0E6E70, 0x27B70A8546D22FFC, 0x2E1B21385C26C926, 0x4D2C6DFC5AC42AED,
   0x53380D139D95B3DF, 0x650A73548BAF63DE, 0x766A0ABB3C77B2A8, 0x81C2C92E47EDAEE6, 0x92722C851482353B]
   ++ [0xA2BFE8A14CF10364, 0xA81A664BBC423001, 0xC24B8B70D0F89791, 0xC76C51A30654BE30, 0xD192E819D6EF5218,
   0xD69906245565A910, 0xF40E35855771202A, 0x106AA07032BBD1B8, 0x19A4C116B8D2D0C8, 0x1E376C085141AB53,
   0x2748774CDF8EEB99, 0x34B0BCB5E19B48A8, 0x391C0CB3C5C95A63, 0x4ED8AA4AE3418ACB, 0x5B9CCA4F7763E373,
   0x682E6FF3D6B2B8A3, 0x748F82EE5DEFB2FC, 0x78A5636F43172F60, 0x84C87814A1F0AB72, 0x8CC702081A6439EC]
   ++ [0x90BEFFFA23631E28, 0xA4506CEBDE82BDE9, 0xBEF9A3F7B2C67915, 0xC67178F2E372532B, 0xCA273ECEEA26619C,
   0xD186B8C721C0C207, 0xEADA7DD6CDE0EB1E, 0xF57D4F7FEE6ED178, 0x06F067AA72176FBA, 0x0A637DC5A2C898A6,
   0x113F9804BEF90DAE, 0x1B710B35131C471B, 0x28DB77F523047D84, 0x32CAAB7B40C72493, 0x3C9EBE0A15C9BEBC,
   0x431D67C49C100D4C, 0x4CC5D4BECB3E42B6, 0x597F299CFC657E2A, 0x5FCB6FAB3AD6FAEC, 0x6C44198C4A475817]

/-- The initial value: the fractions of the square roots of the ninth to sixteenth primes. -/
def sha384Start : List Nat :=
  [0xCBBB9D5DC1059ED8, 0x629A292A367CD507, 0x9159015A3070DD17, 0x152FECD8F70E5939, 0x67332667FFC00B31,
   0x8EB44A8768581511, 0xDB0C2E0D64F98FA7, 0x47B5481DBEFA4FA4]

/-- One round on the working variables a to h. -/
def sha384Round (v : List Nat) (kw : Nat) : List Nat :=
  match v with
  | [a, b, c, d, e, f, g, h] =>
    let t1 := h + mixTurn 14 18 41 e + ((e &&& f) ^^^ ((2 ^ 64 - 1 - e) &&& g)) + kw
    let t2 := mixTurn 28 34 39 a + ((a &&& b) ^^^ (a &&& c) ^^^ (b &&& c))
    [(t1 + t2) % 2 ^ 64, a, b, c, (d + t1) % 2 ^ 64, e, f, g]
  | _ => v

/-- The message schedule and the rounds together: the next 16 schedule words, the constants left, the working variables. -/
def sha384Rounds : List Nat → List Nat → List Nat → List Nat
  | [], _, v => v
  | k :: ks, w, v =>
    match w with
    | [] => v
    | w0 :: rest =>
      let next := (w0 + mixShift 1 8 7 (rest.getD 0 0) + rest.getD 8 0 + mixShift 19 61 6 (rest.getD 13 0)) % 2 ^ 64
      sha384Rounds ks (rest ++ [next]) (sha384Round v (k + w0))

/-- `n` blocks of 128 bytes from the front of a padded message. -/
def sha384Blocks : Nat → List Byte → List Nat → List Nat
  | 0, _, h => h
  | n + 1, bs, h =>
    let w := (List.range 16).map (fun i => beNat ((bs.drop (8 * i)).take 8))
    sha384Blocks n (bs.drop 128) ((h.zip (sha384Rounds sha384K w h)).map (fun e => (e.1 + e.2) % 2 ^ 64))

/-- SHA-384: the digest, its first byte most significant. -/
def sha384 (msg : List Byte) : BitVec 384 :=
  let fill := (239 - msg.length % 128) % 128
  let padded := msg ++ (0x80 : Byte) :: List.replicate fill 0 ++ beBytes 16 (8 * msg.length)
  let h := sha384Blocks (padded.length / 128) padded sha384Start
  BitVec.ofNat 384 ((h.take 6).foldl (fun n x => n * 2 ^ 64 + x) 0)

/-! ### ECDSA over P-384 -/

/-- The field's prime, the group's order, the curve's b, and the base point. -/
def p384P : Nat := 0xFFFFFFFFFFFFFFFFFFFFFFFFFFFFFFFFFFFFFFFFFFFFFFFFFFFFFFFFFFFFFFFEFFFFFFFF0000000000000000FFFFFFFF
def p384N : Nat := 0xFFFFFFFFFFFFFFFFFFFFFFFFFFFFFFFFFFFFFFFFFFFFFFFFC7634D81F4372DDF581A0DB248B0A77AECEC196ACCC52973
def p384B : Nat := 0xB3312FA7E23EE7E4988E056BE3F82D19181D9C6EFE8141120314088F5013875AC656398D8A2ED19D2A85C8EDD3EC2AEF
def p384Gx : Nat := 0xAA87CA22BE8B05378EB1C71EF320AD746E1D3B628BA79B9859F741E082542A385502F25DBF55296C3A545E3872760AB7
def p384Gy : Nat := 0x3617DE4A96262C6F5D9E98BF9292DC29F8F41DBD289A147CE9DA3113B5F0B8C00A60B1CE1D7E819D7A431D7C90EA0E5F

/-- x to the low `k` bits of `e`, modulo m. -/
def powMod (m : Nat) : Nat → Nat → Nat → Nat
  | 0, _, _ => 1
  | k + 1, x, e => (if e % 2 = 1 then x else 1) * powMod m k (x * x % m) (e / 2) % m

/-- The inverse modulo a prime below 2^384. -/
def invMod (m x : Nat) : Nat := powMod m 384 (x % m) (m - 2)

/-- A point of the curve y² = x³ − 3x + b in Jacobian coordinates: x = X/Z², y = Y/Z³; Z = 0 is the point at infinity. -/
structure CurvePt where
  x : Nat
  y : Nat
  z : Nat
deriving DecidableEq, Repr

def subP (a b : Nat) : Nat := (a + p384P - b % p384P) % p384P
def mulP (a b : Nat) : Nat := a * b % p384P

/-- A point added to itself. -/
def ptDouble (a : CurvePt) : CurvePt :=
  let zz := mulP a.z a.z
  let yy := mulP a.y a.y
  let s := mulP (4 * a.x) yy
  let m := mulP (3 * subP a.x zz) (a.x + zz)
  let x := subP (mulP m m) (2 * s)
  { x, y := subP (mulP m (subP s x)) (8 * mulP yy yy), z := mulP (2 * a.y) a.z }

/-- The sum of two points. -/
def ptAdd (a b : CurvePt) : CurvePt :=
  if a.z = 0 then b else if b.z = 0 then a
  else
    let za := mulP a.z a.z
    let zb := mulP b.z b.z
    let u := mulP a.x zb
    let s := mulP a.y (mulP zb b.z)
    let h := subP (mulP b.x za) u
    let r := subP (mulP b.y (mulP za a.z)) s
    if h = 0 then (if r = 0 then ptDouble a else ⟨1, 1, 0⟩)
    else
      let hh := mulP h h
      let v := mulP u hh
      let x := subP (subP (mulP r r) (mulP h hh)) (2 * v)
      { x, y := subP (mulP r (subP v x)) (mulP s (mulP h hh)), z := mulP h (mulP a.z b.z) }

/-- u1 times `a` plus u2 times `b` over the low `k` bits, from the top bit down. -/
def ptMul2 (a b : CurvePt) (u1 u2 : Nat) : Nat → CurvePt → CurvePt
  | 0, r => r
  | k + 1, r =>
    let r := ptDouble r
    let r := if u1.testBit k then ptAdd r a else r
    ptMul2 a b u1 u2 k (if u2.testBit k then ptAdd r b else r)

/-- Whether a signature of 96 bytes, r then s, verifies with a public key of 97 bytes, 0x04, X and Y, over a digest. -/
def ecdsaOk (key : List Byte) (digest : BitVec 384) (sig : List Byte) : Bool :=
  let qx := beNat ((key.drop 1).take 48)
  let qy := beNat ((key.drop 49).take 48)
  let r := beNat (sig.take 48)
  let s := beNat ((sig.drop 48).take 48)
  let keyFits := key.length == 97 && key.head? == some 4 && decide (qx < p384P) && decide (qy < p384P)
    && mulP qy qy == (mulP (mulP qx qx) qx + (p384P - mulP 3 qx) + p384B) % p384P
  let sigFits := sig.length == 96 && decide (0 < r ∧ r < p384N) && decide (0 < s ∧ s < p384N)
  if keyFits && sigFits then
    let w := invMod p384N s
    let p := ptMul2 ⟨p384Gx, p384Gy, 1⟩ ⟨qx, qy, 1⟩ (digest.toNat * w % p384N) (r * w % p384N) 384 ⟨1, 1, 0⟩
    let zi := invMod p384P p.z
    p.z != 0 && mulP p.x (mulP zi zi) % p384N == r
  else false

end Sys2Proof.Machine
end

