-- ==== Sys2Proof/Machine/World.lean ====
section
/-!
DEFINITION. Machine/World.lean: the cabinet (R317 to R319), the secure blocks (R313), and debug (R284, R314 to R316, R324).
-/

namespace Sys2Proof.Machine

/-! ### The cabinet -/

/-- Cabinet slot `s`. -/
def cabOf (s : Nat) (d : Dev) : CabSlot := tabGet (fun _ => {}) d.worlds.cab s

/-- A slot changed, and its CAB_ATTR with it (R322). -/
def cabPut (s : Nat) (x : CabSlot) (d : Dev) : Dev :=
  let w := match x.bytes with
    | none => b2n x.lk * 4
    | some bs => 1 + b2n x.exp * 2 + b2n x.lk * 4 + bs.length % 128 * 8
  regPut (R.CAB_ATTR s) (BitVec.ofNat 32 w)
    { d with worlds := { d.worlds with cab := tabSet (fun _ => {}) d.worlds.cab s x } }

/-- The first `n` bytes of CAB_DATA. -/
def cabData (n : Nat) (d : Dev) : List Byte :=
  ((List.range 16).flatMap (fun w => leBytes 4 (fget (F.CAB_DATA_DATA w) d))).take n

/-- Bytes into CAB_DATA from its first; the words after them keep what they hold. -/
def cabShow (bs : List Byte) (d : Dev) : Dev :=
  each (List.range ((bs.length + 3) / 4)) (fun w d =>
    let old := (leBytes 4 (fget (F.CAB_DATA_DATA w) d)).drop (bs.length - 4 * w)
    fset (F.CAB_DATA_DATA w) (leNat ((bs.drop (4 * w)).take 4 ++ old)) d) d

/-- Bytes of a digest (R317). -/
def digestBytes (h : BitVec 384) : List Byte := beBytes 48 h.toNat

/-- HMAC-SHA-384 of FIPS 198-1 with a key of at most 128 bytes. -/
def hmac384 (key msg : List Byte) : List Byte :=
  let k := key ++ List.replicate (128 - key.length) 0
  digestBytes (sha384 (k.map (· ^^^ 0x5C) ++ digestBytes (sha384 (k.map (· ^^^ 0x36) ++ msg))))

/-- The cabinet cleared (R317). -/
def cabClearAll (d : Dev) : Dev := each (List.range 16) (fun s => cabPut s {}) d

/-- The cabinet as device reset and the return from S3 and S4 leave it (R317). -/
def cabLoad (d : Dev) : Dev :=
  each [0, 1, 2] (fun s => cabPut s { bytes := some (digestBytes (Config.otpSlot s)), exp := s != 2, lk := true }) (cabClearAll d)

/-- What an operation does: its error, or the device after it (R318). A slot is tested for emptiness before its EXP. -/
def cabDo (op : Nat) (d : Dev) : Except Nat Dev :=
  let s := fget F.CAB_CMD_SLOT d
  let len := fget F.CAB_CMD_LEN d
  let x := cabOf s d
  match op with
  | 0 => .ok d
  | 1 => match x.bytes with
    | none => .error 4
    | some bs => if x.exp then .ok (cabShow bs d) else .error 2
  | 2 =>
    if x.lk then .error 3
    else if len = 0 ∨ 64 < len then .error 5
    else .ok (cabPut s { bytes := some (cabData len d), exp := flag F.CAB_CMD_EXP d } d)
  | 3 => if x.bytes.isNone then .error 4 else .ok (cabPut s { x with lk := true } d)
  | 4 => if x.lk then .error 3 else .ok (cabPut s {} d)
  | 5 => match x.bytes with
    | none => .error 4
    | some key =>
      let dst := fget F.CAB_CMD_DST d
      if (cabOf dst d).lk then .error 3
      else if len = 0 ∨ 64 < len then .error 5
      else .ok (cabPut dst { bytes := some (hmac384 key (cabData len d)) } d)
  | _ => .error 6

/-- A CAB_CMD write of word `w` with operation `op` by trestle `t`; `busy`: it meets one that is running (R318, R319). -/
def cabCmd (t op w : Nat) (busy : Bool) (d : Dev) : Dev :=
  if busy then fset F.CAB_STAT_ERR 1 d
  else
    let d := regPut R.CAB_CMD (BitVec.ofNat 32 (bitsPut (w % 2 ^ 20) 0 4 op)) d
    let d := fset F.CAB_STAT_ERR 0 (fset F.CAB_STAT_OWNER t d)
    match cabDo op d with
    | .ok d => d
    | .error e => recordC 0x080B op (fget F.CAB_CMD_SLOT d + e * 16 + t * 256) (fset F.CAB_STAT_ERR e d)

def execCabRead (t : Fin 5) (w : BitVec 20) (busy : Bool) (s : State) : Host.Outcome State Fault Refusal :=
  onDev (cabCmd t.val 1 w.toNat busy) s

def execCabWrite (t : Fin 5) (w : BitVec 20) (busy : Bool) (s : State) : Host.Outcome State Fault Refusal :=
  onDev (cabCmd t.val 2 w.toNat busy) s

def execCabLock (t : Fin 5) (w : BitVec 20) (busy : Bool) (s : State) : Host.Outcome State Fault Refusal :=
  onDev (cabCmd t.val 3 w.toNat busy) s

def execCabClear (t : Fin 5) (w : BitVec 20) (busy : Bool) (s : State) : Host.Outcome State Fault Refusal :=
  onDev (cabCmd t.val 4 w.toNat busy) s

def execCabDerive (t : Fin 5) (w : BitVec 20) (busy : Bool) (s : State) : Host.Outcome State Fault Refusal :=
  onDev (cabCmd t.val 5 w.toNat busy) s

/-- CAB_UNDEFINED_OP: operations 6 to 15. -/
def execCabUndefinedOp (t : Fin 5) (op : Fin 10) (w : BitVec 20) (busy : Bool) (s : State) :
    Host.Outcome State Fault Refusal := onDev (cabCmd t.val (op.val + 6) w.toNat busy) s

/-! ### Secure blocks (R310, R312, R313) -/

/-- The bits of WLD_SECBLK that read 1 always: SYS, PROT, CPX, REC, UPD, DBG and CFG. -/
def secFixed : Nat := 0x19800141

/-- WLD_SECBLK_WRITE: ignored under WLD_CTRL.LOCK; bit 15 is reserved. -/
def secblkWrite (w : Nat) (d : Dev) : Dev :=
  if flag F.WLD_CTRL_LOCK d then d else fset F.WLD_SECBLK_SEC ((w &&& 0x1FFF7FFF) ||| secFixed) d

def execWldSecblkWrite (w : Word) (s : State) : Host.Outcome State Fault Refusal := onDev (secblkWrite w.toNat) s

/-! ### Debug -/

/-- Bit `i` of the effective enables: 0 S_INV, 1 S_NINV, 2 N_INV, 3 N_NINV (R324). -/
def dbgEff (i : Nat) (d : Dev) : Bool := fbit F.DBG_EFF_EFF i d

/-- The invasive (`inv`) or non-invasive enable of a world. -/
def dbgMay (inv secure : Bool) (d : Dev) : Bool := dbgEff ((if secure then 0 else 2) + if inv then 0 else 1) d

/-- A resume: a checkpoint first (R284). -/
def dbgResume (t : Nat) (step : Bool) (d : Dev) : Dev :=
  let x := tlOf t d
  if x.halted then tlPut t { x with halted := false, stepDue := step, shadow := x.arch } d else d

/-- DBG_EFF follows OTP and RT: a change is recorded, trestles that lose the enable of their world resume, halts that wait are
dropped with N_INV, and a boundary scan ends with S_INV (R315, R316, R324). -/
def dbgRefresh (d : Dev) : Dev :=
  let old := fget F.DBG_EFF_EFF d
  let new := fget F.DBG_OTP_OTP d &&& fget F.DBG_RT_RT d
  if new = old then d
  else
    let d := recordC 0x0809 old new (fset F.DBG_EFF_EFF new d)
    let d := each (List.range 5) (fun t d => if dbgMay true (tlOf t d).arch.w d then d else dbgResume t false d) d
    let d := if dbgEff 2 d then d
      else fput F.DBG_STAT_HALT_PEND false (each (List.range 5) (fun t d => tlPut t { tlOf t d with haltDue := false } d) d)
    if dbgEff 0 d then d else fput F.DBG_STAT_SCAN_ACT false d

/-- DBG_RT_WRITE. -/
def dbgRt (rt : Nat) (d : Dev) : Dev := dbgRefresh (fset F.DBG_RT_RT rt d)

def execDbgRtWrite (rt : BitVec 4) (s : State) : Host.Outcome State Fault Refusal := onBlk 27 (dbgRt rt.toNat) s

/-- DBG_PROG (R314, R324): ignored while BUSY, void without the key. -/
def dbgProg (raise key : Nat) (d : Dev) : Dev :=
  if flag F.DBG_STAT_BUSY d ∨ key ≠ 0xA7 then d
  else fput F.DBG_STAT_BUSY true { d with worlds := { d.worlds with raising := raise } }

def execDbgProg (raise : BitVec 4) (key : Byte) (s : State) : Host.Outcome State Fault Refusal :=
  onBlk 27 (dbgProg raise.toNat key.toNat) s

/-- OTP_PROGRAMMED (R324): bits are raised, never lowered; a programming that fails raises none. -/
def otpProgrammed (ok : Bool) (d : Dev) : Dev :=
  if !flag F.DBG_STAT_BUSY d then d
  else
    let r := d.worlds.raising
    let d := fput F.DBG_STAT_PROG_FAIL (!ok) (fput F.DBG_STAT_BUSY false { d with worlds := { d.worlds with raising := 0 } })
    let d := if ok then dbgRefresh (fset F.DBG_OTP_OTP (fget F.DBG_OTP_OTP d ||| r) d) else d
    recordC 0x080C r (b2n (!ok)) d

def execOtpProgrammed (ok : Bool) (s : State) : Host.Outcome State Fault Refusal := onBlk 27 (otpProgrammed ok) s

/-- A debug request refused (R315, R320). -/
def dbgRefuse (kind t : Nat) (secure : Bool) (d : Dev) : Dev := recordC 0x080A kind (t + b2n secure * 8) d

/-- HALT_REQUEST: at once with the enable of the trestle's world, at a later boundary where a load waits, during a rollback, or where secure world
runs under N_INV alone, else refused. -/
def haltRequest (t : Nat) (d : Dev) : Dev :=
  let x := tlOf t d
  if (tlState t d ≠ 3 ∧ tlState t d ≠ 4) ∨ x.halted = true then d
  else if dbgMay true x.arch.w d then
    if x.load.isSome || tlState t d == 4 then tlPut t { x with stepDue := true } d else haltCheck t (tlPut t { x with stepDue := true } d)
  else if x.arch.w && dbgEff 2 d then fput F.DBG_STAT_HALT_PEND true (tlPut t { x with haltDue := true } d)
  else dbgRefuse 0 t x.arch.w d

def execHaltRequest (t : Fin 5) (s : State) : Host.Outcome State Fault Refusal := onBlk 27 (haltRequest t.val) s

/-- RESUME_REQUEST: `step` asks for a single step. -/
def execResumeRequest (t : Fin 5) (step : Bool) (s : State) : Host.Outcome State Fault Refusal :=
  onBlk 27 (dbgResume t.val step) s

/-- The value a debug register access reads; memory is read by `debugMem`. -/
def dbgGet (t : Nat) (r : DebugReg) (d : Dev) : DWord :=
  let a := (tlOf t d).arch
  match r with
  | .x i => if i.val = 0 then 0 else tabGet (fun _ => (0 : DWord)) a.x i.val
  | .f i => tabGet (fun _ => (0 : DWord)) a.f i.val
  | .csr n => BitVec.ofNat 64 (csrRead t n.toNat d)
  | .pc | .mem _ _ => a.pc

/-- A debug register write, which reaches both cores (R284); memory is written by `debugMem`. -/
def dbgSet (t : Nat) (r : DebugReg) (v : DWord) (d : Dev) : Dev :=
  let x := tlOf t d
  match r with
  | .x i => tlPut t { x with arch := regWrites { x := some (i, v) } x.arch } d
  | .f i => tlPut t { x with arch := regWrites { f := some (i, v) } x.arch } d
  | .csr n => csrWrite t n.toNat v.toNat d
  | .pc => tlPut t { x with arch := { x.arch with pc := v } } d
  | .mem _ _ => d

/-- BOUNDARY_SCAN_INSTRUCTION (R316). -/
def tapInstr (i : TapInstr) (d : Dev) : Dev :=
  match i with
  | .bypass | .idcode | .sample => fput F.DBG_STAT_SCAN_ACT false d
  | .extest | .clamp | .highz =>
    if dbgEff 0 d && (zone d == 0 || zone d == 1) then fput F.DBG_STAT_SCAN_ACT true d
    else dbgRefuse 3 0 false (fput F.DBG_STAT_SCAN_ACT false d)

def execBoundaryScanInstruction (i : TapInstr) (s : State) : Host.Outcome State Fault Refusal := onBlk 27 (tapInstr i) s

end Sys2Proof.Machine
end

