-- ==== Sys2Proof/Machine/Reset.lean ====
section
/-!
DEFINITION. Machine/Reset.lean: device reset (R365, R512): what survives it, and what each cause leaves.
-/

namespace Sys2Proof.Machine

/-! ### What survives -/

/-- Registers of one-time memory, which no reset changes (R314, R324, R490, R504). -/
def otpRegs : List Nat := [R.DBG_OTP, R.UPD_SVN_LO, R.UPD_SVN_HI]

/-- Registers that the hutch holds through every device reset but a power-on (R455, R464, R465, R470). -/
def hutchRegs : List Nat :=
  [R.PWR_ELAPSED_S, R.PWR_ELAPSED_MS, R.PWR_CAL_ENTRY, R.PWR_CAL_EXIT, R.PWR_OPSEC, R.TWP_ADDR, R.NSM_XWAKE, R.REC_PCYC,
   R.REC_OPBASE]

/-- Fields that the hutch holds in registers with other fields. -/
def hutchFields : List Fld :=
  [F.PWR_STATUS_LAST, F.PWR_STATUS_HCLK, F.PWR_STATUS_XTAL_STOP, F.PWR_STATUS_CAL_SPREAD, F.PWR_STATUS_ELAPSED_VALID,
   F.TWP_STATUS_MATCH]

/-- Registers copied from one device to another. -/
def keepRegs (l : List Nat) (old d : Dev) : Dev := each l (fun r => regPut r (regGet old r)) d

def keepFields (l : List Fld) (old d : Dev) : Dev := each l (fun f => fset f (fget f old)) d

/-- The memories that lose their contents with the rails: system SRAM, the estimator store, DRAM (R448). -/
def volatile (a : Nat) : Bool := targetOf a == some 1 || targetOf a == some 2 || targetOf a == some 8

/-- The memories as a loss of the rails leaves them. -/
def memLose (m : List Host.Cell) : List Host.Cell := m.filter (fun c => !volatile c.1)

/-- What has run since power-on, what has left the block, and what flash holds of a customer update. -/
def devBare (d : Dev) : Dev :=
  { clk := d.clk, free := d.free, out := d.out, upd := { staged := d.upd.staged, cust := d.upd.cust } }

/-- The sideboard's hutch state: the fallback area, and the run to be closed when the ring opens (R473, R480). -/
def sideKeep (old d : Dev) : Dev :=
  let side : Sideboard := { fallback := old.side.fallback, newestAt := old.side.newestAt
                            carried := match old.side.run with
                              | some r => some r
                              | none => old.side.carried }
  fput F.REC_STATUS_FALLBACK (!old.side.fallback.isEmpty) { d with side }

/-- A device reset with a cause from 1 to 7 (R365): every field takes its reset value but those that the hutch and one-time
memory hold. -/
def deviceReset (cause : Nat) (old : Dev) : Dev :=
  let d := keepFields hutchFields old (keepRegs (otpRegs ++ hutchRegs) old (devBare old))
  let d := sideKeep old d
  let pwr : Pwr := { wakes := old.pwr.wakes, past := old.pwr.past, wokeAt := old.clk, clocks := old.pwr.clocks }
  let nsm : Nsm := { tsBase := old.clk }
  -- a word of memory stays bad over a reset (R407)
  fset F.SYS_RST_CAUSE_CAUSE cause { d with pwr, nsm, brg := { bad := old.brg.bad } }

/-- The release of power-on reset (R365, R455): hutch state takes its power-on values; `xtal` when the crystal oscillates. -/
def powerOn (xtal : Bool) (old : Dev) : Dev :=
  let d := keepRegs otpRegs old (devBare old)
  let pwr : Pwr := { wokeAt := old.clk }
  let nsm : Nsm := { tsBase := old.clk }
  fput F.PWR_STATUS_HCLK xtal { d with pwr, nsm }

/-! ### The rows -/


/-- Device resets that only VAUX ends are outranked by it (R512): with VAUX down nothing else releases the device. -/
def resetUnlessDown (cause : Nat) (d : Dev) : Dev := if d.pwr.down then d else deviceReset cause d

/-- RST_N_RESET. -/
def execRstNReset (s : State) : Host.Outcome State Fault Refusal := onDev (resetUnlessDown 1) s

/-- GROUND_RETURN_RESET: after loss of ground (R251). -/
def execGroundReturnReset (s : State) : Host.Outcome State Fault Refusal :=
  onDev (fun d => if d.lsw.noGround then resetUnlessDown 2 d else d) s

/-- The device is past the seal of S3 or S4. -/
def asleep (d : Dev) : Bool := d.pwr.sealed && decide (3 ≤ d.pwr.target)

/-- BROWN_OUT (R512): the device is held in reset until VAUX rises again; in S3 and S4 it sleeps on, and a wake waits for that. -/
def brownOut (d : Dev) : Dev :=
  if asleep d then { d with pwr := { d.pwr with low := true } }
  else
    let d := deviceReset 0 { d with pwr := { d.pwr with past := none } }
    { d with pwr := { d.pwr with down := true } }

def execBrownOut (s : State) : Host.Outcome State Fault Refusal := onDev brownOut s

/-- HUTCH_RETENTION_LOSS (R512): every hutch state is lost, the fallback area among it; the next release is a power-on. -/
def hutchLoss (d : Dev) : Dev :=
  let d := powerOn false d
  { d with pwr := { d.pwr with down := true } }

def execHutchRetentionLoss (s : State) : Host.Outcome State Fault Refusal :=
  .next { s with mem := memLose s.mem, dev := hutchLoss s.dev }

/-- SYS_RESET: a write of SYS_RESET.KEY from secure world; values other than 0x5D are ignored. -/
def execSysReset (key : Byte) (s : State) : Host.Outcome State Fault Refusal :=
  onDev (fun d => if key = 0x5D then resetUnlessDown 4 d else d) s

/-- TL0_STOPPED_RESET (R280): with CPX_CTRL.TL0_RESET 1, the device resets 1.0 s after TL0 entered STOPPED. -/
def execTl0StoppedReset (s : State) : Host.Outcome State Fault Refusal :=
  onDev (fun d => if tlState 0 d == 5 && flag F.CPX_CTRL_TL0_RESET d then resetUnlessDown 3 (send (.deviceReset 3) d) else d) s

/-! ### A block's reset (R461) -/

/-- The registers of peripheral slot `i` at their reset values; those that the hutch or one-time memory holds stay. -/
def regsReset (i : Nat) (d : Dev) : Dev :=
  { d with regs := d.regs.filter (fun e => e.1 / 0x10000 != i || otpRegs.contains e.1 || e.1 == R.NSM_XWAKE) }

/-- The accesses in the Kazilo bridge end with cause 1 when it is reset. -/
def bridgeEnd (d : Dev) : Dev :=
  let l := (List.range 16).flatMap (kzQueue · d) ++ d.brg.port
  let b : Bridges := { peerOut := d.brg.peerOut, peerIn := d.brg.peerIn, unacked := d.brg.unacked, waiting := d.brg.waiting
                       results := d.brg.results, bad := d.brg.bad }
  let d := each (List.range 16) (fun n d => chainPut n { chainOf n d with svc := none } d) { d with brg := b }
  each l (fun x d => if x.need ≤ x.piece then d
    else busDeliver x.origin x.write x.addr x.size x.attr 0 0 (.error 1 0 x.addr) d) d

/-- The requests in the peer bridge end with cause 8, as at the loss of the link (R402). -/
def peerEnd (d : Dev) : Dev :=
  let l := d.brg.peerOut
  let d := { d with brg := { d.brg with peerOut := [], peerIn := [], unacked := 0, waiting := [] } }
  each l (fun x d => busDeliver x.origin x.write x.addr x.size x.attr 0 1 (.error 8 0 x.addr) d) d

/-- What the block of slot `i` holds beyond its registers, at reset. -/
def hiddenReset (i : Nat) (d : Dev) : Dev :=
  match i with
  | 3 => { d with acq := {} }
  | 4 => { d with kzc := {} }
  | 5 => { d with est := {} }
  | 7 => { d with lsw := { noGround := d.lsw.noGround } }
  | 10 => { d with aix := {} }
  | 11 => bridgeEnd d
  | 12 => peerEnd d
  | 22 => { d with nsm := { d.nsm with seenAt := [] } }
  | 24 => d
  | 25 => { d with prot := { d.prot with lsoShut := 0 } }
  | n => if 16 ≤ n ∧ n ≤ 21 then { d with nsm := { d.nsm with cans := tabDel d.nsm.cans (n - 16) } } else d

/-- The block of slot `i` held at, or returned to, its reset values. With DBG the runtime enables go first, with what a change of
DBG_EFF brings (R324). -/
def blockReset (i : Nat) (d : Dev) : Dev := hiddenReset i (regsReset i (if i = 27 then dbgRt 0 d else d))

end Sys2Proof.Machine
end

