-- ==== Sys2Proof/Machine/Power.lean ====
section
/-!
DEFINITION. Machine/Power.lean: performance levels, sleep and wake (14): R445 to R463.
-/

namespace Sys2Proof.Machine

def pwrPut (p : Pwr) (d : Dev) : Dev := { d with pwr := p }

/-! ### Performance levels (R446, R447) -/

/-- PWR_PL_WRITE: a change begins unless the level is in effect; a write during a change is held, the later one replacing it. -/
def plWrite (lv : Nat) (d : Dev) : Dev :=
  if flag F.PWR_PL_BUSY d then pwrPut { d.pwr with plNext := some lv } d
  else
    let d := fset F.PWR_PL_TARGET lv d
    fput F.PWR_PL_BUSY (decide (lv % 4 ≠ fget F.PWR_PL_CUR d)) d

def execPwrPlWrite (lv : Fin 4) (s : State) : Host.Outcome State Fault Refusal := onDev (plWrite lv.val) s

/-- Every running trestle stops at an epoch commit (R450). -/
def trestlesStop (d : Dev) : Dev := each (below 5 (fun t => tlState t d == 3)) epochCommit d

/-- A request for sleep; when entry begins the trestles stop. -/
def sleepBegin (st : Nat) (nsm : Bool) (d : Dev) : Dev :=
  let d' := sleepRequest st nsm d
  if d.pwr.target = 0 ∧ d'.pwr.target ≠ 0 then trestlesStop d' else d'

/-- PL_CHANGE: the running change is complete; a held write, or else a held sleep request, is carried out. -/
def plChange (d : Dev) : Dev :=
  if !flag F.PWR_PL_BUSY d then d
  else
    let old := fget F.PWR_PL_CUR d
    let new := fget F.PWR_PL_TARGET d
    let d := recordC 0x0C01 old new (fput F.PWR_PL_BUSY false (fset F.PWR_PL_CUR new d))
    let d := match d.pwr.plNext with
      | some lv => plWrite lv (pwrPut { d.pwr with plNext := none } d)
      | none => d
    match d.pwr.sleepNext with
    | some (st, nsm) =>
      if flag F.PWR_PL_BUSY d then d else sleepBegin st nsm (pwrPut { d.pwr with sleepNext := none } d)
    | none => d

/-! ### Entry (R449 to R451) -/

/-- PWR_SLEEP_GO: a write of PWR_SLEEP with GO; a state outside 1 to 4 makes it void. -/
def sleepGo (st : Nat) (d : Dev) : Dev :=
  if 1 ≤ st ∧ st ≤ 4 then sleepBegin st false (fset F.PWR_SLEEP_STATE st d) else d

def execPwrSleepGo (st : BitVec 3) (s : State) : Host.Outcome State Fault Refusal := onDev (sleepGo st.toNat) s

/-- The transceivers as a sleep state has them (R448). -/
def sleepXcvrs (st : Nat) (d : Dev) : Dev :=
  let now := (List.range 6).map (fun n => fget (F.CAN_XCVR_STATE n) d)
  let d := pwrPut { d.pwr with xcvrs := if st = 2 then now else [] } d
  match st with
  | 2 | 3 => each (below 6 (fun n => fget (F.CAN_XCVR_STATE n) d < 2)) (fun n => xcvrTo n 2) d
  | 4 => each (List.range 6) (fun n => xcvrTo n 3) d
  | _ => d

/-- The Aidex sessions closed for S3 and S4 (R450); the wake records each with cause 3 (R356). -/
def sessionsShut (d : Dev) : Dev :=
  { d with pwr := { d.pwr with shut := d.aix.sessions.map (·.1) }, aix := { d.aix with sessions := [] } }

/-- SLEEP_SEAL: once the stores have drained, the lasting actions of the target state. `fEntry` is the frequency that step 3 has
measured, mHz; with a crystal it is not measured. -/
def sleepSeal (fEntry : Nat) (d : Dev) : Dev :=
  if d.pwr.target = 0 ∨ d.pwr.sealed = true then d
  else
    let d := trestlesStop d
    if (List.range 5).any (fun t => !(tlOf t d).store.isEmpty) then d
    else
      let st := d.pwr.target
      let d := if 2 ≤ st then fset F.PWR_CAL_ENTRY_F (if flag F.PWR_STATUS_HCLK d then 0 else fEntry) d else d
      let d := fset F.PWR_STATUS_LAST st (pwrPut { d.pwr with sealed := true, cycle := cycleNow d } d)
      let d := if 3 ≤ st then cabClearAll (sessionsShut d) else d
      let d := sleepXcvrs st d
      if (st = 4 ∨ (st = 3 ∧ flag F.NSM_REG_REG_S3 d = false)) ∧ flag F.NSM_REG_LEVEL d = true then
        send (.regEn false) (fput F.NSM_REG_LEVEL false d)
      else d

def execSleepSeal (fEntry : Word) (s : State) : Host.Outcome State Fault Refusal := onDev (sleepSeal fEntry.toNat) s

/-! ### Wake sources (R385, R456, R457) -/

/-- A wake source asserts: remembered while the device enters or is in a sleep, and collected between a release and
SYS_WAKE_ACK. Switch inputs 0 to 47, and 48 the wake port. -/
def wakeSource (i : Nat) (d : Dev) : Dev :=
  let d := if d.pwr.target = 0 then d else pwrPut { d.pwr with srcs := maskPut d.pwr.srcs i true } d
  if d.pwr.target = 0 ∧ d.pwr.collect = true then
    if i < 32 then fbitPut F.SYS_WAKE_MASK_LO_MASK i true d
    else if i < 48 then fbitPut F.SYS_WAKE_MASK_HI_MASK (i - 32) true d
    else fput F.SYS_WAKE_MASK_HI_TWP true d
  else d

/-- Switch input `i` is a wake source: by the copy in the hutch, or the register while the device runs. -/
def wakeInput (i : Nat) (d : Dev) : Bool := maskBit d.pwr.wakes i || flag (F.IOX_SW_CFG_WAKE i) d

/-- SWITCH_WAKE. -/
def execSwitchWake (i : Fin 48) (s : State) : Host.Outcome State Fault Refusal :=
  onDev (fun d => if wakeInput i.val d then wakeSource i.val d else d) s

/-- The matcher serves the port: from the first step of entry until the wake has been served (R457). -/
def matcherOn (d : Dev) : Bool := d.pwr.target != 0 || (d.pwr.collect && d.pwr.past.isSome)

/-- TWP_ADDRESS_MATCH; `data` when a data byte follows, which the matcher refuses. -/
def addressMatch (data : Bool) (d : Dev) : Dev :=
  if matcherOn d then
    let d := wakeSource 48 (fput F.TWP_STATUS_MATCH true d)
    if data then fsat F.TWP_CNT_NACK_CNT 1 d else d
  else d

def execTwpAddressMatch (data : Bool) (s : State) : Host.Outcome State Fault Refusal := onDev (addressMatch data) s

/-- SYS_WAKE_ACK: collection ends until the next release. -/
def wakeAck (d : Dev) : Dev := pwrPut { d.pwr with collect := false } d

def execSysWakeAck (s : State) : Host.Outcome State Fault Refusal := onDev wakeAck s

/-- HUTCH_CLOCK (R458): the crystal has stopped; recorded at once, or at return when it stops in a sleep. -/
def hutchClock (d : Dev) : Dev :=
  if !flag F.PWR_STATUS_HCLK d then d
  else
    let d := fput F.PWR_STATUS_XTAL_STOP true (fput F.PWR_STATUS_HCLK false d)
    if d.pwr.sealed then pwrPut { d.pwr with clocks := d.pwr.clocks ++ [0] } d
    else recordC 0x0C05 0 (fget F.PWR_CAL_ENTRY_F d) d

def execHutchClock (s : State) : Host.Outcome State Fault Refusal := onDev hutchClock s

/-! ### Elapsed time (R458 to R460) -/

/-- The elapsed time of a sleep as a fraction of seconds: from the ticks, and without a crystal from both calibrations. -/
def sleepLength (m : SleepMeas) (d : Dev) : Nat × Nat :=
  if flag F.PWR_STATUS_HCLK d || d.pwr.clocks.contains 0 then (m.ticks.toNat, 32768)
  else (m.ticks.toNat * 2000, max 1 (fget F.PWR_CAL_ENTRY_F d + m.fExit.toNat))

/-- The calibrations differ by more than 0.5 % of f_entry. -/
def calSpread (fEntry fExit : Nat) : Bool := decide (fEntry < 200 * ((fExit - fEntry) + (fEntry - fExit)))

/-- The registers of a sleep that has ended, and operating time with it; answers the elapsed time, 0 after S4. -/
def elapsedPut (m : SleepMeas) (d : Dev) : (Nat × Nat) × Dev :=
  if d.pwr.target = 4 then
    ((0, 1), fput F.PWR_STATUS_ELAPSED_VALID false (fput F.PWR_STATUS_CAL_SPREAD false
      (fset F.PWR_ELAPSED_S_S 0 (fset F.PWR_ELAPSED_MS_MS 0 d))))
  else
    let (n, q) := sleepLength m d
    let rc := !flag F.PWR_STATUS_HCLK d && !d.pwr.clocks.contains 0
    let spread := rc && calSpread (fget F.PWR_CAL_ENTRY_F d) m.fExit.toNat
    let d := if flag F.PWR_STATUS_HCLK d then d else fset F.PWR_CAL_EXIT_F m.fExit.toNat d
    let d := if spread then pwrPut { d.pwr with clocks := d.pwr.clocks ++ [1] } d else d
    let d := fput F.PWR_STATUS_ELAPSED_VALID true (fput F.PWR_STATUS_CAL_SPREAD spread d)
    let d := fset F.PWR_ELAPSED_S_S (n / q) (fset F.PWR_ELAPSED_MS_MS (n * 1000 / q % 1000) d)
    ((n, q), fset F.PWR_OPSEC_SEC (fget F.PWR_OPSEC_SEC d + n / q) d)

/-- The cycle number after a sleep (R65): the one held, the elapsed time in nominal cycles rounded up, and 1. -/
def wakeCycle (held n q nom : Nat) : Nat := (held + (n * nom + q * 1000000 - 1) / (q * 1000000) + 1) % 2 ^ 32

/-! ### Return (R451, R453, R454) -/

/-- SYS_WAKE from the sources: the lowest switch input, the wake port after them; the others count as collected. -/
def wakeKind (srcs : Nat) : Nat × Nat :=
  match below 48 (fun i => maskBit srcs i) with
  | i :: _ => (1, i)
  | [] => (2, 0)

def wakeLatch (srcs : Nat) (d : Dev) : Dev :=
  let (kind, src) := wakeKind srcs
  let rest := maskPut srcs (if kind = 1 then src else 48) false
  let d := fset F.SYS_WAKE_SRC src (fset F.SYS_WAKE_KIND kind d)
  let d := fput F.SYS_WAKE_MASK_HI_TWP (maskBit rest 48)
    (fset F.SYS_WAKE_MASK_HI_MASK (bitsOf rest 32 16) (fset F.SYS_WAKE_MASK_LO_MASK rest d))
  pwrPut { d.pwr with collect := true, srcs := 0, wokeAt := d.clk } d

/-- Every enabled chain goes to LINKUP (R453). -/
def chainsAgain (d : Dev) : Dev :=
  each (chainsOn d) (fun n d => chainPut n { chainOf n d with next := some 1, run := none } d) d

/-- Trip inputs and analog limits are evaluated as at the start of PROT (R453). -/
def protAgain (d : Dev) : Dev :=
  if !d.prot.runs then d
  else each (List.range 8) ainLimit (each (below 48 (fun i => fget (F.IOX_SW_CFG_ROLE i) d == 3)) inputActs d)

/-- No string is measured yet after a return (R145): the bits of ACQ_UNMEAS are set until a close at which it is. -/
def stringsAgain (d : Dev) : Dev :=
  each (below 48 (fun k => !(membersOf k d).isEmpty)) (fun k d =>
    mask48BitPut F.ACQ_UNMEAS_LO_UNMEAS F.ACQ_UNMEAS_HI_UNMEAS k true (strPut k { strOf k d with once := false, unmeas := 0 } d)) d

/-- ANG starts again after S2 (R65): the new cycle number, count 0, FREE; ONCE slots that it passes fire late. What only a reset or an
accepted set clears stays (R42, R45, R68), and so does the late run (R70). -/
def angRestart (new secs : Nat) (d : Dev) : Dev :=
  let old := tsNow d
  let held := d.pwr.cycle
  let a : Ang := { acc := new * 2 ^ 48, incBase := incOf (fget F.ANG_NOM_FREQ_NOM d), win := d.ang.win, winSeen := d.ang.winSeen
                   trimUse := d.ang.trimUse, ptpUse := d.ang.ptpUse, ptpNext := d.ang.ptpNext, slotAt := d.ang.slotAt
                   nowHi := d.ang.nowHi, lateRun := d.ang.lateRun, lateFirst := d.ang.lateFirst, decimGood := d.ang.decimGood }
  let src := angSrc d
  let rot := flag F.ANG_STATUS_ROT_ERR d
  let win := flag F.ANG_STATUS_WIN_ERR d
  let d := angPut a (fset F.ANG_FREQ_MEAS_FREQ 0 (regPut R.ANG_STATUS (regReset R.ANG_STATUS) d))
  let d := fput F.ANG_STATUS_WIN_ERR win (fput F.ANG_STATUS_ROT_ERR rot d)
  let d := record 0x020E held new secs (angRate d)
  let d := if src = 0 then d else recordC 0x0201 src 0 d
  let d := if src = 4 then recordC 0x0208 (fget F.ANG_HOLD_CYC_CYC d) 0 d else d
  let passed := below 32 (fun n => slotArmed n d && fget (F.SLOT_CTRL_MODE n) d == 0
    && decide (0 ≤ tsOrder (slotTarget n d) old ∧ tsOrder (slotTarget n d) (tsNow d) < 0))
  each passed (fun n d => slotFire n true d) d

/-- Return from S1 or S2. -/
def wakeResume (m : SleepMeas) (d : Dev) : Dev :=
  let st := d.pwr.target
  let saved := d.pwr.xcvrs
  let (e, d) := if st = 2 then elapsedPut m d else ((0, 1), d)
  let secs := if st = 2 then e.1 / e.2 else 0xFFFFFFFF
  let clocks := d.pwr.clocks
  let d := wakeLatch d.pwr.srcs d
  let d := fput F.PWR_INT_STAT_WAKE true (fset F.PWR_STATUS_PSTATE 0
    (pwrPut { d.pwr with target := 0, sealed := false, clocks := [], xcvrs := [] } d))
  let d := recordC 0x0C04 st secs d
  let d := each clocks (fun c d => recordC 0x0C05 c (fget F.PWR_CAL_ENTRY_F d) d) d
  let d := if st = 2 then
      let d := angRestart (wakeCycle d.pwr.cycle e.1 e.2 (fget F.ANG_NOM_FREQ_NOM d)) secs d
      let d := { d with est := { d.est with woken := d.est.inited } }
      each (List.range 6) (fun n d =>
        let s := saved[n]?.getD 2
        if s < 2 then xcvrTo n s d else d) d
    else d
  -- R182: after a wake every position of a secondary is unaligned
  let d : Dev := { d with est := { d.est with alignAll := true } }
  let d := if d.pair.role = 4 then alignEnd (markAll d) else d
  protAgain (chainsAgain (stringsAgain d))

/-- Return from S3 or S4: a device reset with cause 6 or 7. The cycle number goes on under R65; the ANG_NOM_FREQ that multiplies the
elapsed time is the one in force after the wake's device reset, its reset value: R65 does not say which. DESIGN CHOICE
(notes/assumptions/62.md). -/
def wakeReset (m : SleepMeas) (d : Dev) : Dev :=
  let st := d.pwr.target
  let held := d.pwr.cycle
  let srcs := d.pwr.srcs
  let sessions := d.pwr.shut
  let low := !flag F.NSM_REG_LEVEL d
  let (e, d) := elapsedPut m d
  let clocks := d.pwr.clocks
  let d := deviceReset (st + 3) d
  let new := wakeCycle held e.1 e.2 (fget F.ANG_NOM_FREQ_NOM d)
  let past : SleepPast := { state := st, oldCycle := held, newCycle := new, clocks, sessions
                            seconds := if st = 4 then 0xFFFFFFFF else e.1 / e.2 }
  let d := pwrPut { d.pwr with past := some past, clocks := [] } { d with ang := { d.ang with acc := new * 2 ^ 48 } }
  let d := wakeLatch srcs d
  if low then send (.regEn true) d else d

/-- Entry abandoned for a wake decision before the seal. -/
def sleepAbandon (d : Dev) : Dev :=
  let (kind, src) := wakeKind d.pwr.srcs
  let d := recordC 0x0C03 d.pwr.target (kind * 256 + src * 65536) d
  let d := if d.pwr.nsm then nsmTo 1 d else d
  fset F.PWR_STATUS_PSTATE 0 (pwrPut { d.pwr with target := 0, srcs := 0 } d)

/-- WAKE_DECISION: none without a source that has asserted. -/
def wakeDecision (m : SleepMeas) (ms : List Host.Cell) (d : Dev) : List Host.Cell × Dev :=
  if d.pwr.target = 0 ∨ d.pwr.srcs = 0 then (ms, d)
  else if !d.pwr.sealed then (ms, sleepAbandon d)
  else if d.pwr.target ≤ 2 then
    let d := wakeResume m d
    (if d.pair.role = 4 then unalignedSweep d ms else ms, d)
  else if d.pwr.low then (ms, pwrPut { d.pwr with lowWake := d.pwr.lowWake <|> some m } d)
  else (memLose ms, wakeReset m d)

/-- POWER_ON_RESET: VAUX has risen through 16 V. In S3 and S4, the hutch retained, it is no power-on: the device sleeps on, or a wake
decided below 16 V starts the boot (R512). DESIGN CHOICE (notes/assumptions/83.md). -/
def vauxRise (xtal : Bool) (ms : List Host.Cell) (d : Dev) : List Host.Cell × Dev :=
  if asleep d then
    let d' := pwrPut { d.pwr with low := false } d
    match d.pwr.lowWake with
    | some m => (memLose ms, wakeReset m d')
    | none => (ms, d')
  else (memLose ms, powerOn xtal d)

def execPowerOnReset (xtal : Bool) (s : State) : Host.Outcome State Fault Refusal := onBoth (vauxRise xtal) s

/-! ### Cutting blocks (R313, R461, R462) -/

/-- The bits that a control has: 0 clock gates, 1 block resets, 2 power switches. -/
def cutMask (kind : Nat) : Nat := if kind = 2 then 0x003F6030 else 0x0B7F7CB8

def cutField (kind : Nat) : Fld :=
  match kind with
  | 0 => F.PWR_CG_CG
  | 1 => F.PWR_RST_RST
  | _ => F.PWR_PSW_PSW

/-- The blocks that stay whole while the zone is neither in CONFIG_HOLD nor DISARMED: ACQ, KZC, LSW, PEER, NSM, IOX. -/
def cutKept : List Nat := [3, 4, 7, 12, 22, 25]

/-- A write of a control by trestle `t` with an attribute byte. -/
def cutWrite (kind t attr w : Nat) (d : Dev) : Dev :=
  let f := cutField kind
  let old := fget f d
  let bars := (below 29 (fun i => maskBit w i && !maskBit old i && cutKept.contains i && maskBit (cutMask kind) i))
  if !bars.isEmpty && zone d != 0 && zone d != 1 then
    each bars (fun i d => recordC 0x0C06 i (kind + b2n (attrWorld attr) * 256) d) d
  else
    each (below 29 (fun i => maskBit (cutMask kind) i && maskBit w i != maskBit old i)) (fun i d =>
      if fbit F.WLD_SECBLK_SEC i d && !attrWorld attr then
        recordC 0x0804 i (kind + attrTenant attr * 256 + t * 4096) d
      else
        let d := fbitPut f i (maskBit w i) d
        if kind = 0 then d else blockReset i d) d

def execPwrCgWrite (t : Fin 5) (attr : Byte) (w : Word) (s : State) : Host.Outcome State Fault Refusal :=
  onDev (cutWrite 0 t.val attr.toNat w.toNat) s

def execPwrRstWrite (t : Fin 5) (attr : Byte) (w : Word) (s : State) : Host.Outcome State Fault Refusal :=
  onDev (cutWrite 1 t.val attr.toNat w.toNat) s

def execPwrPswWrite (t : Fin 5) (attr : Byte) (w : Word) (s : State) : Host.Outcome State Fault Refusal :=
  onDev (cutWrite 2 t.val attr.toNat w.toNat) s

end Sys2Proof.Machine
end

