-- ==== Sys2Proof/Machine/Tenant.lean ====
section
/-!
DEFINITION. Machine/Tenant.lean: reset and release of customer tenants (R304 to R306).
-/

namespace Sys2Proof.Machine

/-- The state of tenant `k` (R304). -/
def tenState (k : Nat) (d : Dev) : Nat := fget (F.WLD_TEN_STAT_STATE k) d

/-- What tenant `k`'s loads still bring is discarded. -/
def loadsDrop (k : Nat) (d : Dev) : Dev :=
  each (List.range 5) (fun t d =>
    match (tlOf t d).load with
    | some l => if attrV l.attr && attrTenant l.attr == k then tlPut t { tlOf t d with load := none } d else d
    | none => d) d

/-- The ANG slots that tenant `k` owns (R311). -/
def slotsOf (k : Nat) (d : Dev) : List Nat :=
  (below 32 (fun n => 8 ≤ n && fget (F.WLD_SLOT_OWN_OWN (n / 8) (n % 8)) d == k))

/-- Local interrupt 18 on every trestle of the tenant's TLMASK. -/
def tenantIrq (k : Nat) (d : Dev) : Dev :=
  each (below 5 (fun u => fbit (F.WLD_TEN_CFG_TLMASK k) u d)) (fun u => localIrq u 18) d

/-- TENANT_RESET (R305), `t` the requesting trestle: ignored for T0, in NONE and in RESET. -/
def tenantReset (t k : Nat) (d : Dev) : Dev :=
  if k = 0 ∨ (tenState k d ≠ 1 ∧ tenState k d ≠ 2) then d
  else
    let d := fput (F.WLD_TEN_STAT_BLOCKED k) true d
    let d := kzCancel k (loadsDrop k d)
    let d := each (slotsOf k d) (fun n => fput (F.SLOT_CTRL_EN n) false) d
    let d := drawerEmpty k d
    let d := fsat (F.WLD_TEN_STAT_RESETS k) 1 (fset (F.WLD_TEN_STAT_STATE k) 3 d)
    let d := { d with worlds := { d.worlds with resetAt := tabSet (fun _ => 0) d.worlds.resetAt k d.clk } }
    recordC 0x0807 k t (tenantIrq k d)

def execTenantReset (t : Fin 5) (k : Fin 8) (s : State) : Host.Outcome State Fault Refusal :=
  onDev (tenantReset t.val k.val) s

/-- TENANT_RELEASE: FAULTED when a trestle of TLMASK is FAULTED or STOPPED, and blocked still; else ACTIVE. -/
def tenantRelease (k : Nat) (d : Dev) : Dev :=
  if k = 0 ∨ tenState k d ≠ 3 then d
  else
    let bad := (List.range 5).any (fun u => fbit (F.WLD_TEN_CFG_TLMASK k) u d && (tlState u d == 5 || tlState u d == 6))
    let d := fset (F.WLD_TEN_STAT_STATE k) (if bad then 2 else 1) (fput (F.WLD_TEN_STAT_BLOCKED k) bad d)
    recordC 0x0808 k (msSince (tabGet (fun _ => 0) d.worlds.resetAt k) d) d

def execTenantRelease (k : Fin 8) (s : State) : Host.Outcome State Fault Refusal := onDev (tenantRelease k.val) s

end Sys2Proof.Machine
end

