-- ==== Sys2Proof/Machine/RegEffect.lean ====
section
/-!
DEFINITION. Machine/RegEffect.lean: a write to a peripheral register: its fields by their access codes (RegWrite.lean), and what the
block does on it, by the same operations that the register's own commands use. Bits of one write act from the lowest up
(notes/assumptions/29.md).
-/

namespace Sys2Proof.Machine

/-- `f` where bit `i` of the word is 1. -/
def onBit (w i : Nat) (f : Dev → Dev) (d : Dev) : Dev := if w.testBit i then f d else d

/-- All 32 bits. -/
def allBits : Nat := 0xFFFFFFFF

/-- The bits of register `a` that a write leaves to the register's own operation, or that are fixed. -/
def regKeep (a : Nat) : Nat :=
  match a / 0x10000 with
  | 0 => if a = R.SYS_RESET then allBits else 0
  | 1 => if [R.PWR_PL, R.PWR_SLEEP, R.PWR_CG, R.PWR_RST, R.PWR_PSW].contains a then allBits else 0
  | 2 => if 0x20100 ≤ a ∧ a < 0x20300 then allBits else 0
  | 5 => if a = R.EST_CTRL then 1 else 0
  | 7 => if 0x71000 ≤ a ∧ a < 0x73000 then
      (if a % 0x100 = 0x10 then 1 else if a % 0x100 = 0x08 then 0x7FF else 0) else 0
  | 9 => if a = R.WLD_SECBLK ∨ a = R.CAB_CMD ∨ a = R.WLD_SLOT_OWN 0 ∨ a = R.WLD_TEN_CFG 0 then allBits
      else if 0x90100 ≤ a ∧ a < 0x90180 ∧ a % 0x10 = 0 then 2
      else if 0x91F00 ≤ a ∧ a < 0x92000 ∧ a % 0x10 = 4 then 0xFF01FC00 else 0
  | 10 => if a = R.AIX_CMT then 0x10000 else if a = R.AIX_CTRL then 0x10
      else if a = R.AIX_DCFG 0 then 1
      else if 0xA0308 ≤ a ∧ a < 0xA0340 ∧ a % 8 = 0 then 2
      else if 0xA1000 ≤ a ∧ a % 0x100 ∈ [0x00, 0x04, 0x10, 0x14] then allBits else 0
  | 11 => if 0xB0200 ≤ a ∧ a % 0x20 = 0x14 then allBits else 0
  | 22 => if a = R.NSM_CTRL then 1 else if 0x160200 ≤ a ∧ a < 0x160300 then allBits else 0
  | 23 => if 0x170100 ≤ a ∧ a % 0x40 = 0x10 then allBits else 0
  | 27 => if a = R.DBG_RT ∨ a = R.DBG_PROG then allBits else 0
  | n => if 16 ≤ n ∧ n ≤ 21 ∧ a % 0x10000 = 0x10 then 3 else 0

/-- The fields of a register written. -/
def fieldsWrite (a : Nat) (secure : Bool) (w : Nat) (d : Dev) : Dev :=
  let old := (regGet d a).toNat
  let d := if a = R.ACQ_CTRL then balKeep d else d
  regPut a (BitVec.ofNat 32 (merge (regKeep a % 2 ^ 32) (regAfter a secure w d) old)) d

/-- SYS and PWR. -/
def effectPwr (t attr a w : Nat) (d : Dev) : Dev :=
  let s := attrWorld attr
  if a = R.SYS_WAKE_ACK then onBit w 0 wakeAck d
  else if a = R.SYS_RESET then (if s && w % 256 == 0x5D then resetUnlessDown 4 d else d)
  else if a = R.PWR_PL then (if s then plWrite (w % 4) d else d)
  else if a = R.PWR_SLEEP then
    (if !s ∨ w % 8 = 0 ∨ 4 < w % 8 then d
     else if w.testBit 3 then sleepGo (w % 8) d else fset F.PWR_SLEEP_STATE (w % 8) d)
  else if a = R.PWR_CG then cutWrite 0 (t % 8) attr w d
  else if a = R.PWR_RST then cutWrite 1 (t % 8) attr w d
  else if a = R.PWR_PSW then cutWrite 2 (t % 8) attr w d
  else d

/-- ANG: source selection, rates, PTP and the slots. -/
def effectAng (attr a w : Nat) (d : Dev) : Dev :=
  if a = R.ANG_CTRL then angSelect (if w.testBit 6 then 3 else 0) d
  else if a = R.ANG_NOM_FREQ then (if angSrc d = 0 then incPut (incOf (fget F.ANG_NOM_FREQ_NOM d)) d else d)
  else if a = R.ANG_JUMP then angRate d
  else if a = R.ANG_PTP_COMMIT then onBit w 0 ptpCommit d
  else if 0x20100 ≤ a ∧ a < 0x20300 then slotWrite ((a - 0x20100) / 16) (a % 16 / 4) w d
  else d

/-- KZC, EST, PROT, LSW and IOX. -/
def effectPlant (a w : Nat) (d : Dev) : Dev :=
  match a / 0x10000 with
  | 4 =>
    if a = R.KZC_INT_STAT then alertLevel d
    else if 0x40100 ≤ a ∧ a < 0x40500 ∧ a % 0x40 = 0 then
      let n := (a - 0x40100) / 0x40
      onBit w 10 (chClrCnt n) (onBit w 9 (fillCmd n) (onBit w 8 (enumCmd n) d))
    else d
  | 5 =>
    if a = R.EST_CTRL then onBit w 2 estClrCnt (estEnable (w.testBit 0) d)
    else if a = R.EST_LANE then laneRestore (bitsOf w 8 8) d
    else if a = R.EST_CELL_INIT then onBit w 17 (cellInit (w % 0x8000) (w.testBit 15) (w.testBit 16)) d
    else d
  | 6 =>
    if a = R.PROT_CMD then onBit w 3 reconf (onBit w 2 zclr (onBit w 1 protDisarm (onBit w 0 protArm d)))
    else if a = R.PROT_KICK then kick (w % 256) d
    else if 0x60100 ≤ a ∧ a < 0x60400 ∧ a % 16 = 12 then
      let n := (a - 0x60100) / 16
      onBit w 0 (strClose n) (onBit w 1 (strOpen n) (onBit w 2 (strClr n) d))
    else d
  | 7 =>
    if 0x71000 ≤ a ∧ a < 0x73000 then
      let ch := (a - 0x71000) / 0x100
      match a % 0x100 with
      | 0x00 => chApply ch d
      | 0x08 => chPwmDuty ch (w % 0x800) d
      | 0x10 => onBit w 1 (chCmdClr ch) (chCmdOn ch (w.testBit 0) d)
      | _ => d
    else d
  | 25 =>
    if a = R.IOX_LSO_OUT then each (List.range 16) lsoApply d
    else if 0x190100 ≤ a ∧ a < 0x1901C0 then
      let i := (a - 0x190100) / 4
      switchEdge i (maskBit d.prot.swRaw i) d
    else d
  | _ => d

/-- CPX, and the worlds. -/
def effectWorld (t attr a w : Nat) (d : Dev) : Dev :=
  let s := attrWorld attr
  if 0x80100 ≤ a ∧ a < 0x80240 ∧ a % 0x40 = 0 then
    let u := (a - 0x80100) / 0x40
    -- TEST beside RESTART is ignored (R288)
    let d := onBit w 1 (ctrlStop u) (onBit w 0 (ctrlRestart u) d)
    onBit w 3 (ctrlClr u) (if w.testBit 0 then d else onBit w 2 (ctrlTest u) d)
  else if a = R.WLD_SECBLK then (if s then secblkWrite w d else d)
  else if a = R.CAB_CMD then (if s then cabCmd (t % 8) (w % 16) (w % 2 ^ 20) false d else d)
  else if 0x90100 ≤ a ∧ a < 0x90180 then
    let k := (a - 0x90100) / 16
    match a % 16 with
    | 0 => if k ≠ 0 ∧ flag (F.WLD_TEN_CFG_EN k) d = true ∧ tenState k d = 0 then
        fput (F.WLD_TEN_STAT_BLOCKED k) false (fset (F.WLD_TEN_STAT_STATE k) 1 d) else d
    -- secure world and the hypervisor only, RELEASE read likewise (R305). DEDUCED (notes/assumptions/79.md)
    | 8 => if attrV attr then d
      else if w.testBit 0 then tenantReset (t % 8) k d else onBit w 1 (tenantRelease k) d
    | _ => d
  else if a = R.DBG_RT then (if s then dbgRt (w % 16) d else d)
  else if a = R.DBG_PROG then (if s then dbgProg (w % 16) (bitsOf w 24 8) d else d)
  else d

/-- ETH_CNT_CLR (R364): the counters of port `e` cleared. -/
def ethClr (e : Nat) (d : Dev) : Dev :=
  each [R.ETH_CNT_RX e, R.ETH_CNT_FCS e, R.ETH_CNT_DROP e, R.ETH_CNT_TX e] (fun r => regPut r 0) d

def execEthCntClr (e : Fin 2) (s : State) : Host.Outcome State Fault Refusal := onBlk (13 + e.val) (ethClr e.val) s

/-- A ring base of drawer `k` (R363). -/
def ringBase (a k w : Nat) (d : Dev) : Dev :=
  if valueTaken a w && !flag (F.DRW_CTRL_EN k) d then regPut a (BitVec.ofNat 32 w) d else d

/-- AIX, BRG, PEER and ETH. -/
def effectLink (t attr a w : Nat) (m : List Host.Cell) (d : Dev) : Dev :=
  let s := attrWorld attr
  if a = R.AIX_CTRL then (if s then onBit w 4 aixClr d else d)
  else if 0xA1100 ≤ a ∧ a < 0xA1800 then
    let k := (a - 0xA1000) / 0x100
    match a % 0x100 with
    | 0x00 => ringBase a k w d
    | 0x04 => ringBase a k w d
    | 0x10 => drwReqCons k (w % 32) d
    | 0x14 => tenantReply k (w % 32) m d
    | _ => d
  else if a = R.BRG_CLR then onBit w 0 brgClr d
  else if 0xB0100 ≤ a ∧ a < 0xB0180 ∧ a % 16 = 8 then pfEmpty d
  else if 0xB0200 ≤ a ∧ a < 0xB02A0 then
    let u := (a - 0xB0200) / 0x20
    match a % 0x20 with
    | 0x08 => onBit w 0 (bePop false u) d
    | 0x14 => if s then onBit w 0 (bePop true u) d else d
    | _ => d
  else if a = R.PEER_CLR then onBit w 0 peerClr d
  else if a = R.ETH_CNT_CLR 0 then onBit w 0 (ethClr 0) d
  else if a = R.ETH_CNT_CLR 1 then onBit w 0 (ethClr 1) d
  else d

/-- The CAN channels, NSM and REC. -/
def effectNet (a w : Nat) (m : List Host.Cell) (d : Dev) : Dev :=
  let n := a / 0x10000 - 16
  if a < 0x160000 then
    match a % 0x10000 with
    -- AUTO_RECOV set in bus-off starts recovery as RECOVER does (R422)
    | 0x00 => if w.testBit 4 || flag (F.CAN_CTRL_AUTO_RECOV n) d then canRecover n d else d
    | 0x10 => xcvrTo n (w % 4) d
    | 0x54 => onBit w 0 (canCntClr n) d
    | 0x140 => txCmd n 0 (w % 0x1000) (bitsOf w 12 7) (w.testBit 19) d
    | 0x240 => txCmd n 1 (w % 0x1000) (bitsOf w 12 7) (w.testBit 19) d
    | 0x148 => canCancel n 0 (w % 256) (w.testBit 8) none d
    | 0x248 => canCancel n 1 (w % 256) (w.testBit 8) none d
    | 0x15C => onBit w 0 (rxPop n 0) d
    | 0x25C => onBit w 0 (rxPop n 1) d
    | _ => d
  else if a = R.NSM_CTRL then nsmEval (nsmEnable (w.testBit 0) d)
  else if 0x160200 ≤ a ∧ a < 0x160300 then onBit w 2 (nodeUncap ((a - 0x160200) / 4)) d
  else if 0x161000 ≤ a ∧ a < 0x161800 ∧ a % 0x100 = 0 then nsmEval d
  else if 0x170100 ≤ a ∧ a < 0x170240 then
    let u := (a - 0x170100) / 0x40
    match a % 0x40 with
    | 0x0C => subCmd u (w % 0x10000) (w.testBit 16) d
    | 0x10 => rdSeq u w m d
    | _ => d
  else d

/-- What the block does on a write of word `w` to register `a`, its fields set. -/
def regEffect (t attr a w : Nat) (m : List Host.Cell) (d : Dev) : Dev :=
  match a / 0x10000 with
  | 0 | 1 => effectPwr t attr a w d
  | 2 => effectAng attr a w d
  | 4 | 5 | 6 | 7 | 25 => effectPlant a w d
  | 8 | 9 | 27 => effectWorld t attr a w d
  | 10 | 11 | 12 | 13 | 14 => effectLink t attr a w m d
  | 16 | 17 | 18 | 19 | 20 | 21 | 22 | 23 => effectNet a w m d
  | _ => d

/-- A normal-world write of `w` to a SEC field of a block it reaches (R9): recorded, the field unchanged; a sleep request is recorded
as CUT_REFUSED in its place (R313, R449). -/
def secRefused (t attr a w : Nat) (d : Dev) : Dev :=
  if a == R.PWR_SLEEP && w.testBit 3 && !attrWorld attr then recordC 0x0804 1 (3 + attrTenant attr * 256 + t % 8 * 4096) d
  else if attrWorld attr || !secTouched a || a == R.PWR_CG || a == R.PWR_RST || a == R.PWR_PSW then d
  else recordC 0x0803 (0x20000000 + a) (attr % 256 + t % 8 * 256) d

/-- A write of word `w` by trestle `t` (8: another master, which the records name as 0) with an attribute byte to register
number `a`: none at a reserved offset (R7) and in a block that is held in reset (R461). -/
def regWrite (t attr a w : Nat) (m : List Host.Cell) (d : Dev) : Dev :=
  if (regRow a).isNone || fbit F.PWR_RST_RST (a / 0x10000) d then d
  else regEffect t attr a w m (fieldsWrite a (attrWorld attr) w (secRefused t attr a w d))

end Sys2Proof.Machine
end

