-- ==== Sys2Proof/Machine/Bus.lean ====
section
/-!
DEFINITION. Machine/Bus.lean: accesses of a master to the address map (R3, R307 to R309, R396 to R398, R405 to R407), the loads and
stores of the trestles (R262, R269, R270), system-bus accesses of the debug module (R315), and inbound peer requests (R403, R404).
-/

namespace Sys2Proof.Machine

/-! ### Accesses -/

/-- A read by `t` (0 to 4 a trestle, 8 another master) of target `c` with an attribute byte: its result, or none while a bridge works on
it. No cause is stated for a failed memory check of a read; it is a free value. -/
def busReadAt (c : Nat) (o : Origin) (t attr a size : Nat) (chk : MemCheck) (m : List Host.Cell) (d : Dev) : Option BusResult × Dev :=
  if !granted c a size 0 attr d then (some (.error 0 0 a), refuse c a 0 size attr d)
  else if c = 3 then
    match periRefuses a size d with
    | some e => (some (.error e 0 a), d)
    | none =>
      let (v, d) := regRead t attr (regOf a) d
      (some (.data v), d)
  else if c = 4 then (if cut 11 d then (some (.error 1 0 a), d) else kzAccess o false a size 0 attr d)
  else if c = 5 then (if cut 12 d then (some (.error 1 0 a), d) else peerAccess o false a size 0 attr d)
  else if readFails c (checkNow chk a size d) then
    let (n, d) := draw d
    (some (.error ((Config.freeWord n).toNat % 16) 0 a), memError a (checkNow chk a size d) d)
  else (some (.data (leNat (memRead m a size))), d)

/-- A read: of the target that holds every byte of it, with cause 1 where none does. -/
def busRead (o : Origin) (t attr a size : Nat) (chk : MemCheck) (m : List Host.Cell) (d : Dev) : Option BusResult × Dev :=
  match accessTarget a size with
  | none => (some (.error 1 0 a), d)
  | some c => busReadAt c o t attr a size chk m d

/-- A write of the low `size` bytes of `data`; the result, the memories and the device. Boot ROM and the execute-in-place window take
no data from a write (notes/assumptions/28.md); a write that covers part of a bad DRAM burst fails (R406), one that covers a bad word in
full restores it (R407); the estimator store takes none while the bench is enabled (R173), with a bus error whose
cause no rule states: a free value (notes/assumptions/72.md). -/
def busWrite (o : Origin) (t attr a size data : Nat) (chk : MemCheck) (m : List Host.Cell) (d : Dev) :
    Option BusResult × List Host.Cell × Dev :=
  match accessTarget a size with
  | none => (some (.error 1 0 a), m, d)
  | some c =>
    if !granted c a size 1 attr d then (some (.error 0 0 a), m, refuse c a 1 size attr d)
    else if chk = .targetParity then (some (.error 6 0 a), m, d)
    else if c = 3 then
      match periRefuses a size d with
      | some e => (some (.error e 0 a), m, d)
      | none =>
        let (m, d) := withMonitor (regWrite t attr (regOf a) (data % 2 ^ 32) m) m d
        (some (.data 0), m, d)
    else if c = 4 then
      if cut 11 d then (some (.error 1 0 a), m, d)
      else
        let (r, d) := kzAccess o true a size data attr d
        (r, m, d)
    else if c = 5 then
      if cut 12 d then (some (.error 1 0 a), m, d)
      else
        let (r, d) := peerAccess o true a size data attr d
        (r, m, d)
    else if c = 0 ∨ c = 6 then (some (.data 0), m, d)
    else if c = 2 ∧ flag F.EST_CTRL_EN d = true then
      let (n, d) := draw d
      (some (.error ((Config.freeWord n).toNat % 16) 0 a), m, d)
    else if c = 8 ∧ checkNow chk a size d = .dramCrc ∧ (size < 64 ∨ a % 64 ≠ 0) then (some (.error 7 0 a), m, memError a .dramCrc d)
    else (some (.data 0), memWrite a (leBytes size data) m, badCovered a size d)

/-- SRC of a bus error at address `a` (R413). -/
def errSrc (cause a : Nat) : Nat :=
  if cause = 0 then 2 else if targetOf a = some 4 then 0 else if targetOf a = some 5 then 1 else 3

/-- A posted write of trestle `t`: a failure known at once is captured (R396). -/
def postedWrite (t attr a size data : Nat) (chk : MemCheck) (m : List Host.Cell) (d : Dev) : List Host.Cell × Dev :=
  let (r, m, d) := busWrite (.store t) t attr a size data chk m d
  match r with
  | some (.error c x e) => (m, beCapture t { addr := e, attr, cause := c, src := errSrc c e, detail := x } d)
  | _ => (m, d)

/-! ### Loads (R262, R270, R394, R396, R406) -/

/-- A load that fails: the cause kept, and a load access fault with the address of the failing piece. -/
def loadFault (t cause detail tval : Nat) (d : Dev) : Dev :=
  trap t false 5 tval (fset (F.BRG_LD_CAUSE_DETAIL t) detail (fset (F.BRG_LD_CAUSE_CAUSE t) cause d))

/-- What the load finds in the epoch store buffer: the bytes of every buffered store over those of memory (R269). -/
def bufferOver (sb : List SbEntry) (a size v : Nat) : Nat :=
  leNat ((List.range size).map (fun i =>
    sb.foldl (fun (b : Byte) e =>
      if e.addr ≤ a + i ∧ a + i < e.addr + e.size then BitVec.ofNat 8 (e.data >>> (8 * (a + i - e.addr))) else b)
      (BitVec.ofNat 8 (v >>> (8 * i)))))

/-- Read data held for a presentation of trestle `t` (R394): its place. -/
def heldFor (t attr a size : Nat) (d : Dev) : Option Nat :=
  d.brg.held.findIdx? (fun h => h.tl == t && h.attr == attr && h.addr == a && h.size == size)

/-- A read of the trestle that a bridge still works on, to be presented again. -/
def queuedFor (t attr a size : Nat) (d : Dev) : Bool :=
  (if targetOf a = some 4 then (kzQueue (kzChain a) d ++ d.brg.port).any (fun x =>
      x.origin == .load t && !x.write && x.attr == attr && x.addr == a && x.size == size && decide (x.piece < x.need))
    else d.brg.peerOut.any (fun x => x.origin == .load t && !x.write && x.attr == attr && x.addr == a && x.size == size))

/-- The load takes its result: data waits for its return, an error is raised at once. -/
def loadTakes (t va : Nat) (l : BusLoad) (r : Option BusResult) (d : Dev) : Dev :=
  let put (l : BusLoad) (d : Dev) : Dev := tlPut t { tlOf t d with load := some l } d
  match r with
  | some (.error c x e) => loadFault t c x (va + e - l.addr) d
  | some (.data v) =>
    if isIo l.addr then put { l with data := some v } d
    else put { l with data := some (bufferOver (tlOf t d).store l.addr l.op.size v) } (loadFill t l.addr d)
  | none => put l d

/-- A load issued to the fabric at its physical address. -/
def loadSend (t : Nat) (l : BusLoad) (chk : MemCheck) (m : List Host.Cell) (d : Dev) : Dev :=
  let va := l.op.va.toNat
  match heldFor t l.attr l.addr l.op.size d with
  | some i =>
    let h := d.brg.held[i]?
    let d := { d with brg := { d.brg with held := d.brg.held.eraseIdx i } }
    let c := (targetOf l.addr).getD 9
    -- a tenant blocked since then is refused (R304)
    if !granted c l.addr l.op.size 0 l.attr d then loadTakes t va l (some (.error 0 0 l.addr)) (refuse c l.addr 0 l.op.size l.attr d)
    else loadTakes t va l (h.map (fun h =>
      match h.error with
      | some (c, x, e) => .error c x e
      | none => .data (h.data.getD 0))) d
  | none =>
    if queuedFor t l.attr l.addr l.op.size d then loadTakes t va l none (fsat F.BRG_CNT_RETRY_CNT 1 d)
    else
      -- the load stands before the bridge can answer it
      let d := tlPut t { tlOf t d with load := some l } d
      let (r, d) := busRead (.load t) t l.attr l.addr l.op.size chk m d
      loadTakes t va l r d

/-- The exception of a load that its mode does not permit: HLV outside its modes, a floating-point load with the unit off. -/
def loadTrap (l : LoadOp) (a : Arch) : Option Nat := if l.hyp then hypTrap a else if l.fp && fsOff a then some 2 else none

/-- LOAD: the instruction at the PC of trestle `t` is a load. An I/O load begins an epoch, and one whose data a rollback has left in the
load latch takes it from there (R270). -/
def loadIssue (t : Nat) (l : LoadOp) (chk : MemCheck) (m : List Host.Cell) (d : Dev) : Dev :=
  if tlIdle t d || (tlOf t d).load.isSome then d
  else
    match fetchPa t m d with
    | .error (c, d) => trap t false c (tlOf t d).arch.pc.toNat d
    | .ok pc =>
      let d := fetchFill t pc d
      let a := (tlOf t d).arch
      let (priv, v) := dataMode a l.hyp
      match loadTrap l a with
      | some c => trap t false c 0 d
      | none =>
      match translate m d a priv v .read l.va.toNat with
      | .error c => trap t false c l.va.toNat d
      | .ok pa =>
        let d := if isIo pa then epochCommit t d else d
        let b : BusLoad := { op := l, addr := pa, attr := tlAttr a priv v pa }
        match (tlOf t d).latch with
        | some k =>
          -- issued once: the answer is in the latch, or still to come to a load that waits
          let waits := readMode (if targetOf pa = some 4 then 0 else 1) pa d == 0
          if isIo pa && k.addr == pa && (k.data.isSome || k.error.isSome || waits) then
            tlPut t { tlOf t d with load := some { b with data := k.data, error := k.error } } d
          else loadSend t b chk m d
        | none => loadSend t b chk m d

def execLoad (t : Fin 5) (l : LoadOp) (chk : MemCheck) (s : State) : Host.Outcome State Fault Refusal :=
  .next { s with dev := loadIssue t.val l chk s.mem s.dev }

/-- The value a load writes: sign- or zero-extended, or boxed for a floating-point register (R12). -/
def loadValue (l : LoadOp) (v : Nat) : DWord :=
  let n := 8 * l.size
  if l.fp then (if l.size < 8 then BitVec.ofNat 64 (2 ^ 64 - 2 ^ n + v % 2 ^ n) else BitVec.ofNat 64 v)
  else if l.signed then BitVec.ofInt 64 (toSigned n v) else BitVec.ofNat 64 (v % 2 ^ n)

/-- The load retires. -/
def loadRetire (t : Nat) (l : BusLoad) (v : Nat) (d : Dev) : Dev :=
  let x := tlOf t d
  let w := loadValue l.op v
  let a := regWrites (if l.op.fp then { f := some (l.op.rd, w) } else { x := some (l.op.rd, w) }) x.arch
  retired t (isIo l.addr) (tlPut t { x with arch := { a with pc := l.op.next }, load := none } d)

/-- LOAD_DATA_RETURN: the data or the error of trestle `t`'s load reaches it; `parity`: a data byte fails its parity (R406). A
presentation that finds no data counts as a retry answer. -/
def loadReturn (t : Nat) (parity : Bool) (d : Dev) : Dev :=
  match (tlOf t d).load with
  | none => d
  | some l =>
    if tlIdle t d then d
    else match l.error, l.data with
      | some (c, x, e), _ => loadFault t c x (l.op.va.toNat + e - l.addr) d
      | none, none =>
        let target := if targetOf l.addr = some 4 then 0 else 1
        if readMode target l.addr d = 0 then d else fsat F.BRG_CNT_RETRY_CNT 1 d
      | none, some v =>
        if !parity then loadRetire t l v d
        else
          let d := fsat F.BRG_CNT_PAR_FABRIC 1 d
          if isIo l.addr then loadFault t 6 0 l.op.va.toNat d
          else rollback t (recordC 0x0A11 l.addr t d)

def execLoadDataReturn (t : Fin 5) (parity : Bool) (s : State) : Host.Outcome State Fault Refusal :=
  onDev (loadReturn t.val parity) s

/-! ### Stores (R269) -/

/-- STORE_DRAIN: the oldest committed entry of trestle `t`'s store buffer leaves; one that fails its parity check faults (R275). -/
def storeDrain (t : Nat) (chk : MemCheck) (parity : Bool) (m : List Host.Cell) (d : Dev) : List Host.Cell × Dev :=
  let x := tlOf t d
  match x.store with
  | [] => (m, d)
  | e :: rest =>
    if !e.committed then (m, d)
    else if parity then (m, tlFault t 4 0 0 d)
    else postedWrite t e.attr e.addr e.size e.data chk m (tlPut t { x with store := rest } d)

/-! ### The debug module -/

/-- SYSTEM_BUS_ACCESS: with WORLD 1 under the secure enable that matches the access, else with WORLD 0 and V 0 under the normal one,
else refused. -/
def systemBus (write : Bool) (a size data : Nat) (chk : MemCheck) (m : List Host.Cell) (d : Dev) : List Host.Cell × Dev :=
  if !dbgMay write true d && !dbgMay write false d then (m, send (.debugData 0 none) (dbgRefuse 2 0 false d))
  else
    let attr := attrOf (dbgMay write true d) 0 3 false (isIo a)
    let answer (r : Option BusResult) (d : Dev) : Dev :=
      match r with
      | some (.data v) => send (.debugData 0 (some (BitVec.ofNat 64 v))) d
      | some (.error _ _ _) => send (.debugData 0 none) d
      | none => d
    if write then
      let (r, m, d) := busWrite .debug 8 attr a size data chk m d
      (m, answer r d)
    else
      let (r, d) := busRead .debug 8 attr a size chk m d
      (m, answer r d)

/-- A debug access to memory through the halted hart `t`: at its privilege, through its translation, with its attribute byte. -/
def debugMem (t va size : Nat) (v : Option DWord) (m : List Host.Cell) (d : Dev) : List Host.Cell × Dev :=
  let a := (tlOf t d).arch
  let (priv, vm) := dataMode a false
  let answer (r : Option BusResult) (d : Dev) : Dev :=
    match r with
    | some (.data w) => if v.isNone then send (.debugData t (some (BitVec.ofNat 64 w))) d else d
    | some (.error _ _ _) => send (.debugData t none) d
    | none => d
  match translate m d a priv vm (if v.isNone then .read else .write) va with
  | .error _ => (m, send (.debugData t none) d)
  | .ok pa =>
    let attr := tlAttr a priv vm pa
    match v with
    | none =>
      let (r, d) := busRead .debug t attr pa size .good m d
      (m, answer r d)
    | some w =>
      let (r, m, d) := busWrite .debug t attr pa size (w.toNat % 2 ^ (8 * size)) .good m d
      (m, answer r d)

/-- ABSTRACT_COMMAND: the PC of a running hart may be sampled under the non-invasive enable; every other access is invasive and
needs a halted hart. -/
def abstractCommand (t : Nat) (r : DebugReg) (v : Option DWord) (m : List Host.Cell) (d : Dev) : List Host.Cell × Dev :=
  let x := tlOf t d
  let sample := r == .pc && v.isNone && !x.halted
  if !dbgMay (!sample) x.arch.w d then (m, send (.debugData t none) (dbgRefuse 1 t x.arch.w d))
  else if !sample && !x.halted then (m, send (.debugData t none) d)
  else match r with
    | .mem va size => debugMem t va.toNat size v m d
    | _ => (m, match v with
      | none => send (.debugData t (some (dbgGet t r d))) d
      | some v => dbgSet t r v d)

def execAbstractCommand (t : Fin 5) (r : DebugReg) (v : Option DWord) (s : State) : Host.Outcome State Fault Refusal :=
  onBlkBoth 27 (abstractCommand t.val r v) s

/-! ### Inbound peer requests -/

/-- This member acts as primary for the rule of R404. -/
def actsPrimary (d : Dev) : Bool :=
  d.pair.role == 3 || ((d.pair.role == 1 || d.pair.role == 2) && !d.pair.slotB)

def peerInPut (l : List PeerIn) (d : Dev) : Dev :=
  fput F.PEER_STATUS_IN_BUSY (!l.isEmpty) { d with brg := { d.brg with peerIn := l } }

/-- The attribute byte of inbound requests. -/
def peerAttr (a : Nat) (d : Dev) : Nat := fget F.PEER_IN_ATTR_ATTR d + b2n (isIo a) * 128

/-- An inbound request to the Kazilo window enters the bridge when its turn comes; any other ends with its completion. -/
def peerInStart (m : List Host.Cell) (d : Dev) : Dev :=
  match d.brg.peerIn with
  | [] => d
  | x :: rest =>
    if targetOf x.addr ≠ some 4 then d
    else
      let (r, d) := if x.write then
          let (r, _, d) := busWrite .peer 8 (peerAttr x.addr d) x.addr x.size x.data .good m d
          (r, d)
        else busRead .peer 8 (peerAttr x.addr d) x.addr x.size .good m d
      match r with
      | some (.data v) => peerInPut ({ x with result := some (some v, 0) } :: rest) d
      | some (.error c _ _) => peerInPut ({ x with result := some (none, c) } :: rest) d
      | none => d

/-- PEER_REQUEST: an inbound request passes its CRC check. -/
def peerRequest (write : Bool) (a size data : Nat) (m : List Host.Cell) (d : Dev) : Dev :=
  if !peerUp d || fget F.PEER_STATUS_VER d != 2 then d
  else if actsPrimary d && !d.brg.peerOut.isEmpty then toPartner .peerRetry (fsat F.PEER_CNT_RETRY_CNT 1 d)
  else if !flag F.PEER_CTRL_IN_EN d || targetOf a == some 5 then toPartner (.peerResponse none 0) d
  else
    let first := d.brg.peerIn.isEmpty
    let d := peerInPut (d.brg.peerIn ++ [{ write, addr := a, size, data }]) d
    if first then peerInStart m d else d

def execPeerRequest (write : Bool) (a : BitVec 40) (size : Fin 65) (data : BitVec 64) (s : State) :
    Host.Outcome State Fault Refusal :=
  onBlk 12 (peerRequest write a.toNat size.val data.toNat s.mem) s

/-- PEER_INBOUND_COMPLETE: the request under way ends at this member's fabric, and its response leaves unless the link has been down
since. One that waits for the Kazilo bridge ends when the bridge has answered. -/
def peerInDone (chk : MemCheck) (m : List Host.Cell) (d : Dev) : List Host.Cell × Dev :=
  match d.brg.peerIn with
  | [] => (m, d)
  | x :: rest =>
    let finish (v : Option Nat) (c : Nat) (m : List Host.Cell) (d : Dev) : List Host.Cell × Dev :=
      let d := if x.dead then d else toPartner (.peerResponse v c) d
      (m, peerInStart m (peerInPut rest d))
    match x.result with
    | some (v, c) => finish v c m d
    | none =>
      if targetOf x.addr = some 4 then (m, d)
      else
        let (r, m, d) := if x.write then busWrite .peer 8 (peerAttr x.addr d) x.addr x.size x.data chk m d
          else
            let (r, d) := busRead .peer 8 (peerAttr x.addr d) x.addr x.size chk m d
            (r, m, d)
        match r with
        | some (.error c _ _) => finish none c m d
        | some (.data v) => finish (some v) 0 m d
        | none => (m, d)

end Sys2Proof.Machine
end

