-- ==== Sys2Proof/Machine/Update.lean ====
section
/-!
DEFINITION. Machine/Update.lean: field update (16): images, delta records, banks, activation, satellites, one part at a time.
-/

namespace Sys2Proof.Machine

def updPut (u : Upd) (d : Dev) : Dev := { d with upd := u }

def updState (d : Dev) : Nat := fget F.UPD_STATUS_STATE d

/-! ### Places in flash (R486, R496) -/

def bankBase (b : Nat) : Nat := flashBase + b * 0x1000000
def custBase : Nat := flashBase + 0x2000000
def stageBase : Nat := flashBase + 0x3000000

/-- Result block `i` of the staging area. -/
def stageBlock (i : Nat) : Nat := stageBase + 0x1000 + 4096 * i

/-- The largest image of a class (R485). -/
def classLimit : Nat → Nat
  | 0 => 0x40000
  | 1 => 0x100000
  | 2 => 0x800000
  | 3 => 0x40000
  | 4 => 0x40000
  | 5 => 0x40000
  | _ => 0xC00000

/-- Where a bank that the device builds holds the header of class `c`; its image starts 4 KiB on. -/
def headerOfs (c : Nat) : Nat := 0x1000 + ((List.range c).map (fun i => classLimit i + 0x1000)).foldl (· + ·) 0

/-- A flash region erased. -/
def memErase (a n : Nat) (m : List Host.Cell) : List Host.Cell := memBelow a m ++ memFrom (a + n) m

/-! ### Bank directories -/

/-- A field of bank `b`'s directory. -/
def dirField (m : List Host.Cell) (b i n : Nat) : Nat := leNat (memRead m (bankBase b + i) n)

/-- MAGIC and DIR_CRC of a bank's directory are right. -/
def dirOk (m : List Host.Cell) (b : Nat) : Bool :=
  dirField m b 0 4 == 0x4B425A47
    && crc32c (memRead m (bankBase b) 8 ++ memRead m (bankBase b + 16) 160) == dirField m b 12 4

def bankSeq (m : List Host.Cell) (b : Nat) : Nat := dirField m b 4 4

/-- STATE of a bank: 0 BUILDING, 1 TRIAL, 2 CONFIRMED, 3 RETIRED. -/
def bankState (m : List Host.Cell) (b : Nat) : Nat :=
  match dirField m b 8 1 with
  | 0xFF => 0
  | 0x7F => 1
  | 0x3F => 2
  | _ => 3

def bankTries (m : List Host.Cell) (b : Nat) : Nat := dirField m b 9 1

/-- A bank's STATE programmed. -/
def bankMark (b st : Nat) (m : List Host.Cell) : List Host.Cell := memPut (bankBase b + 8) (BitVec.ofNat 8 st) m

/-- A field of a bank's entry of class `c`. -/
def entryField (m : List Host.Cell) (b c i n : Nat) : Nat := dirField m b (16 + 32 * c + i) n

/-- The header and the image of class `c` in bank `b`. -/
def bankHeader (m : List Host.Cell) (b c : Nat) : List Byte := memRead m (bankBase b + entryField m b c 0 4) 320

def bankImage (m : List Host.Cell) (b c : Nat) : List Byte :=
  memRead m (bankBase b + entryField m b c 4 4) (min (entryField m b c 8 4) (classLimit c))

/-- An entry of a directory. -/
def entryBytes (hdrOfs len crc ver svn : Nat) : List Byte :=
  leBytes 4 hdrOfs ++ leBytes 4 (hdrOfs + 0x1000) ++ leBytes 4 len ++ leBytes 4 crc ++ leBytes 4 ver ++ leBytes 1 svn
    ++ List.replicate 11 0

/-- A directory with its entries, 160 bytes. -/
def dirBytes (seq : Nat) (entries : List Byte) : List Byte :=
  let a := leBytes 4 0x4B425A47 ++ leBytes 4 seq
  a ++ [0xFF, 0xFF, 0xFF, 0xFF] ++ leBytes 4 (crc32c (a ++ entries)) ++ entries

/-! ### Images -/

/-- The digest of a public key is the one that the class's key slot holds (R317, R485). -/
def keyOk (hdr : List Byte) (c : Nat) (d : Dev) : Bool :=
  (cabOf (if c ≤ 1 then 0 else 1) d).bytes == some (digestBytes (sha384 ((hdr.drop 112).take 97)))

/-- The signature over the header verifies (R487). -/
def sigOk (hdr : List Byte) : Bool :=
  ecdsaOk ((hdr.drop 112).take 97) (sha384 (hdr.take 216)) ((hdr.drop 216).take 96)

/-- RESULT_HASH of a header is that of an image. -/
def hashOk (hdr img : List Byte) : Bool := (hdr.drop 64).take 48 == digestBytes (sha384 img)

/-- The OTP security version of a class. -/
def svnField (c : Nat) : Fld := if c < 4 then ⟨R.UPD_SVN_LO, 8 * c, 7⟩ else ⟨R.UPD_SVN_HI, 8 * (c - 4), 7⟩

/-- The check of a bank's image of class `c` at boot (R501): none when it passes, else 1, or 3 for its security version. -/
def bootCheck (m : List Host.Cell) (b c : Nat) (d : Dev) : Option Nat :=
  let hdr := bankHeader m b c
  if !keyOk hdr c d || !sigOk hdr || !hashOk hdr (bankImage m b c) then some 1
  else if field hdr 9 1 < fget (svnField c) d then some 3
  else none

/-- The running image of a class: VERSION, CRC, length and address (R487). -/
def runningImage (c : Nat) (m : List Host.Cell) (d : Dev) : Option (Nat × Nat × Nat × Nat) :=
  let b := fget F.UPD_STATUS_BANK d
  if d.upd.rom then none
  else if c < 5 then
    some (entryField m b c 16 4, entryField m b c 12 4, min (entryField m b c 8 4) (classLimit c),
      bankBase b + entryField m b c 4 4)
  else if c = 6 ∧ flag F.UPD_STATUS_CUST_VALID d = true then
    let h := memRead m custBase 320
    some (field h 12 4, field h 32 4, min (field h 24 4) (classLimit 6), custBase + 0x1000)
  else none

/-- The member acts under the pair's rules: pair mode, and not LONE (R499). -/
def updPaired (d : Dev) : Bool := d.pair.mode != 0 && d.pair.role != 5

/-- The lowest MAXVER that a satellite of an enabled chain gave (R489). -/
def lowestMaxVer (d : Dev) : Nat :=
  (chainsOn d).foldl (fun v n => (below (min 48 (fget (F.KZC_CH_CTRL_COUNT n) d)) (fun p => (posOf n p d).maxVer != 0)).foldl
    (fun v p => min v (posOf n p d).maxVer) v) 2

/-- The version rules of R489; `ver` is the Aidex version of the session. None when they hold, else the status. -/
def versionRules (hdr : List Byte) (ver : Nat) (d : Dev) : Option Nat :=
  let c := field hdr 8 1
  let within (lo hi v : Nat) : Bool := decide (field hdr lo 1 ≤ v ∧ v ≤ field hdr hi 1)
  if field hdr 44 2 ≠ 0x7100 ∨ fget F.SYS_ID_STEPPING d < field hdr 46 1 then some stVersion
  else if d.upd.rom then none
  else if c = 2 ∧ (within 36 37 ver = false ∨ within 42 43 2 = false) then some stVersion
  else if c = 4 ∧ d.pair.mode ≠ 0 then
    if max (field hdr 40 1) (fget F.UPD_PARTNER_PEER_MIN d) ≤ min (field hdr 41 1) (fget F.UPD_PARTNER_PEER_MAX d) then none
    else some stVersion
  else if c = 5 ∧ (field hdr 38 1 = 0 ∨ 2 < field hdr 38 1 ∨ lowestMaxVer d < field hdr 38 1) then some stVersion
  else none

/-! ### UPDATE_BEGIN (R488) -/

/-- The length, block count and base of a header fit its class. -/
def headerFits (hdr : List Byte) : Bool :=
  let c := field hdr 8 1
  let len := field hdr 24 4
  decide (1 ≤ len ∧ len ≤ classLimit c) && field hdr 28 4 == (len + 4095) / 4096 && (c != 5 || field hdr 16 4 == 0)
    && (field hdr 16 4 != 0 || field hdr 20 4 == 0)

/-- The checks of UPDATE_BEGIN in their order; the first that fails gives the status. -/
def beginCheck (cls : Nat) (hdr : List Byte) (ver : Nat) (m : List Host.Cell) (d : Dev) : Option Nat :=
  if updState d ≠ 0 then some stState
  else if hdr.length ≠ 320 ∨ field hdr 0 4 ≠ 0x57465A47 ∨ field hdr 8 1 ≠ cls ∨ 6 < cls then some stParam
  else if field hdr 4 2 ≠ 1 then some stVersion
  else if !keyOk hdr cls d then some (if cls ≤ 1 then stHeader else stSign)
  else if cls ≤ 1 ∧ sigOk hdr = false then some stHeader
  else if field hdr 9 1 < fget (svnField cls) d then some stRollback
  else if !headerFits hdr || (d.upd.rom && decide (5 ≤ cls)) then some stParam
  else
    let base := field hdr 16 4
    let right := match runningImage cls m d with
      | some (v, c, _, _) => base == v && field hdr 20 4 == c
      | none => false
    if base ≠ 0 ∧ right = false then some stVersion else versionRules hdr ver d

/-- A change of the update state, reported to the partner (R499). -/
def updStateTo (st : Nat) (d : Dev) : Dev :=
  let d := fset F.UPD_STATUS_STATE st d
  let r : UpdReport := { peerMin := 1, peerMax := 2, state := st, trial := flag F.UPD_STATUS_TRIAL d
                         ucode := BitVec.ofNat 32 (fget (F.UPD_VER_VER 3) d) }
  if d.pair.mode = 0 then d else toPartner (.updReport r) d

/-- UPDATE_BEGIN: its status; on success the update is ERASING. -/
def updBegin (cls : Nat) (hdr : List Byte) (ver : Nat) (m : List Host.Cell) (d : Dev) : Nat × Dev :=
  match beginCheck cls hdr ver m d with
  | some st => (st, recordC 0x0E02 cls st d)
  | none =>
    let d := fset F.UPD_DONE_DONE 0 (fset F.UPD_BLOCKS_BLOCKS (field hdr 28 4) (fset F.UPD_STATUS_CLASS cls d))
    (stOk, recordC 0x0E01 cls (field hdr 12 4) (updStateTo 1 (updPut { d.upd with header := hdr, part := none } d)))

/-- STAGING_ERASE_DONE: the staging record and the blocks needed are erased; the update is OPEN. -/
def stagingErased (m : List Host.Cell) (d : Dev) : List Host.Cell × Dev :=
  if updState d ≠ 1 then (m, d)
  else (memErase stageBase (0x1000 + 4096 * fget F.UPD_BLOCKS_BLOCKS d) m,
    updStateTo 2 (updPut { d.upd with staged := none } d))

def execStagingEraseDone (s : State) : Host.Outcome State Fault Refusal := onBlkBoth 24 stagingErased s

/-! ### UPDATE_BLOCK (R490 to R492) -/

/-- A block of the base image; bytes beyond the image are 0. -/
def baseBlock (i : Nat) (base : Nat × Nat × Nat × Nat) (m : List Host.Cell) : List Byte :=
  let n := min 4096 (base.2.2.1 - 4096 * i)
  memRead m (base.2.2.2 + 4096 * i) n ++ List.replicate (4096 - n) 0

/-- A completed block: programmed when its CRC is right, else discarded. -/
def blockDone (bs : List Byte) (crc : Nat) (m : List Host.Cell) (d : Dev) : Nat × List Host.Cell × Dev :=
  let i := fget F.UPD_DONE_DONE d
  let d := updPut { d.upd with part := none } d
  if crc32c bs = crc then (stOk, memPlace (stageBlock i) bs m, fset F.UPD_DONE_DONE (i + 1) d)
  else (stBlock, m, recordC 0x0E03 i (crc32c bs) d)

/-- The blocks of a COPY_RUN, one after the other until one fails. -/
def copyRun (base : Nat × Nat × Nat × Nat) : List (Nat × Nat) → List Host.Cell → Dev → Nat × List Host.Cell × Dev
  | [], m, d => (stOk, m, d)
  | (i, crc) :: rest, m, d =>
    let (st, m, d) := blockDone (baseBlock i base m) crc m d
    if st = stOk then copyRun base rest m d else (st, m, d)

/-- A record that R491 refuses. -/
def recordBad (block : Nat) (rec : List Byte) (base : Option (Nat × Nat × Nat × Nat)) (d : Dev) : Bool :=
  let op := field rec 0 1
  let flags := field rec 1 1
  let param := field rec 2 2
  let arg := field rec 4 4
  let n := rec.length - 8
  let done := fget F.UPD_DONE_DONE d
  let last := flags.testBit 0
  let nbase := match base with
    | some b => (b.2.2.1 + 4095) / 4096
    | none => 0
  decide (done < block ∨ rec.length < 8 ∨ 3 < op ∨ 1 < flags)
    || (op != 2 && d.upd.part.isSome)
    || (match op with
      | 0 => param != 0 || n != (if last then 4 else 0) || decide (nbase ≤ arg)
      | 1 => param != 0 || n != (if last then 4 else 0) || decide (255 < arg)
      | 2 => arg != 0 || (last && decide (n < 4)) || decide (4096 < param + (if last then n - 4 else n))
      | _ => !last || decide (param = 0 ∨ 354 < param) || n != 4 * param
          || decide (fget F.UPD_BLOCKS_BLOCKS d < block + param ∨ nbase < arg + param))

/-- A record taken: the block in progress after it. -/
def recordApply (rec : List Byte) (base : Option (Nat × Nat × Nat × Nat)) (m : List Host.Cell) (d : Dev) :
    Nat × List Host.Cell × Dev :=
  let param := field rec 2 2
  let arg := field rec 4 4
  let last := (field rec 1 1).testBit 0
  let data := rec.drop 8
  let body := if last then data.take (data.length - 4) else data
  let crc := field data (data.length - 4) 4
  match field rec 0 1, base with
  | 3, some b => copyRun b ((List.range param).map (fun i => (arg + i, field data (4 * i) 4))) m d
  | op, _ =>
    let old := d.upd.part.getD (List.replicate 4096 0)
    let bs := match op, base with
      | 0, some b => baseBlock arg b m
      | 1, _ => List.replicate 4096 (BitVec.ofNat 8 arg)
      | _, _ => old.take param ++ body ++ old.drop (param + body.length)
    if last then blockDone bs crc m d else (stOk, m, updPut { d.upd with part := some bs } d)

/-- UPDATE_BLOCK: its status, the memories and the device after it. -/
def updBlock (block : Nat) (rec : List Byte) (m : List Host.Cell) (d : Dev) : Nat × List Host.Cell × Dev :=
  if updState d = 0 then (stState, m, d)
  else if updState d = 1 then (stBusy, m, d)
  else if block < (if updState d = 2 then fget F.UPD_DONE_DONE d else field d.upd.header 28 4) then (stOk, m, d)
  else if updState d ≠ 2 then (stState, m, d)
  else
    let base := if field d.upd.header 16 4 = 0 then none else runningImage (fget F.UPD_STATUS_CLASS d) m d
    if recordBad block rec base d then (stParam, m, d)
    else
      let (st, m, d) := recordApply rec base m d
      (st, m, if fget F.UPD_DONE_DONE d = fget F.UPD_BLOCKS_BLOCKS d then updStateTo 3 d else d)

/-! ### Activation (R494 to R496, R499, R502) -/

/-- The reason why this member must not activate or let its partner activate: 0 trial, 1 pending, 2 activating, 3 satellites. -/
def ownBar (d : Dev) : Option Nat :=
  if flag F.UPD_STATUS_TRIAL d then some 0 else if updState d = 5 then some 1 else none

/-- The reason in what the partner has reported. -/
def partnerBar (d : Dev) : Option Nat :=
  if flag F.UPD_PARTNER_TRIAL d then some 0
  else match fget F.UPD_PARTNER_STATE d with
    | 5 => some 1
    | 4 => some 2
    | 6 => some 3
    | _ => none

/-- The pair rules for an own activation (R499). -/
def pairBar (d : Dev) : Option Nat :=
  match ownBar d with
  | some r => some r
  | none =>
    if !updPaired d then none
    else if !peerUp d then some 5
    else if flag F.UPD_STATUS_HOLD d then some ((partnerBar d).getD 2)
    else partnerBar d

/-- A customer activation waits for the boot; a satellite activation begins in DISARMED alone (R494). -/
def zonePermits (c : Nat) (when1 : Bool) (d : Dev) : Bool :=
  if c = 6 then true else if c = 5 then zone d == 1 else decide (c < 5) && (when1 || zone d == 0 || zone d == 1)

/-- UPDATE_ACTIVATE up to the grant (R494, R495): none when it goes on, else its status. A PEER activation with the peer link down is
refused before its range is looked at (R489). In ROM recovery the pair rules do not apply. -/
def activateCheck (when1 : Bool) (ver : Nat) (d : Dev) : Option Nat × Dev :=
  let c := fget F.UPD_STATUS_CLASS d
  if updState d ≠ 3 then (some stState, d)
  else if c = 5 ∧ when1 = true then (some stParam, d)
  else if !zonePermits c when1 d then (some stState, d)
  else if c = 4 ∧ d.pair.mode ≠ 0 ∧ d.upd.rom = false ∧ peerUp d = false then
    (some stState, recordC 0x0E0E 0 ((pairBar d).getD 5) d)
  else match versionRules d.upd.header ver d with
    | some st => (some st, d)
    | none =>
      if d.upd.rom then (none, d)
      else match pairBar d with
        | some r => (some stState, recordC 0x0E0E 0 r d)
        | none => (none, d)

/-- The activation starts; in a pair the partner is asked first. -/
def activateStart (when1 : Bool) (d : Dev) : Dev :=
  let ask := updPaired d && !d.upd.rom
  let d := updStateTo 4 (updPut { d.upd with when1, asked := ask } d)
  if ask then toPartner .activationRequest d else d

/-- The staged result. -/
def stagedImage (m : List Host.Cell) (d : Dev) : List Byte := memRead m (stageBlock 0) (field d.upd.header 24 4)

/-- A class copied from one bank to another. -/
def copyClass (from_ to_ c : Nat) (src m : List Host.Cell) : List Host.Cell :=
  memPlace (bankBase to_ + headerOfs c + 0x1000) (bankImage src from_ c)
    (memPlace (bankBase to_ + headerOfs c) (bankHeader src from_ c) m)

/-- The entry of class `c` in a bank that is built from bank `b`. -/
def entryCopy (m : List Host.Cell) (b c : Nat) : List Byte :=
  entryBytes (headerOfs c) (entryField m b c 8 4) (entryField m b c 12 4) (entryField m b c 16 4) (entryField m b c 20 1)

/-- The entry of the staged class. -/
def entryStaged (hdr : List Byte) (c : Nat) : List Byte :=
  entryBytes (headerOfs c) (field hdr 24 4) (field hdr 32 4) (field hdr 12 4) (field hdr 9 1)

/-- The inactive bank built from the active one and the staged class (R496). -/
def buildBank (m : List Host.Cell) (d : Dev) : List Host.Cell :=
  let a := fget F.UPD_STATUS_BANK d
  let b := 1 - a
  let hdr := d.upd.header
  let c := field hdr 8 1
  let img := stagedImage m d
  let out := (List.range 5).foldl (fun o k => if k = c then o else copyClass a b k m o) (memErase (bankBase b) 0x1000000 m)
  let out := memPlace (bankBase b + headerOfs c + 0x1000) img (memPlace (bankBase b + headerOfs c) hdr out)
  let entries := (List.range 5).flatMap (fun k => if k = c then entryStaged hdr c else entryCopy m a k)
  memPlace (bankBase b) (dirBytes ((bankSeq m a + 1) % 2 ^ 32) entries) out

/-- A newer sequence number by signed difference. -/
def seqHigher (a b : Nat) : Bool := decide (0 < sdiff32 a b)

/-- The bank that ROM recovery builds (R502): the one that its first activation has chosen, the bank with the lower BANK_SEQ, or bank A
when neither has a valid directory. -/
def romBank (m : List Host.Cell) (d : Dev) : Nat :=
  d.upd.romAt.getD (match dirOk m 0, dirOk m 1 with
    | true, true => if seqHigher (bankSeq m 0) (bankSeq m 1) then 1 else 0
    | true, false => 1
    | _, _ => 0)

/-- Its BANK_SEQ: one above the highest found when it was chosen. -/
def romSeq (m : List Host.Cell) (d : Dev) : Nat :=
  match d.upd.romAt with
  | some b => bankSeq m b
  | none =>
    let top := if dirOk m 0 && (!dirOk m 1 || seqHigher (bankSeq m 0) (bankSeq m 1)) then bankSeq m 0
      else if dirOk m 1 then bankSeq m 1 else 0
    (top + 1) % 2 ^ 32

/-- A class is present in the bank that ROM recovery builds. -/
def romHas (m : List Host.Cell) (d : Dev) (c : Nat) : Bool :=
  match d.upd.romAt with
  | some b => entryField m b c 16 4 != 0xFFFFFFFF
  | none => false

/-- ROM recovery adds the staged class to its bank. -/
def romBuild (m : List Host.Cell) (d : Dev) : List Host.Cell × Dev :=
  let b := romBank m d
  let seq := romSeq m d
  let hdr := d.upd.header
  let c := field hdr 8 1
  let img := stagedImage m d
  let entries := (List.range 5).flatMap (fun k => if k = c then entryStaged hdr c
    else if romHas m d k then memRead m (bankBase b + 16 + 32 * k) 32 else List.replicate 32 0xFF)
  let m := memErase (bankBase b) (if d.upd.romAt.isSome then 0x1000 else 0x1000000) m
  let m := memPlace (bankBase b + headerOfs c) hdr (memErase (bankBase b + headerOfs c) (0x1000 + classLimit c) m)
  (memPlace (bankBase b) (dirBytes seq entries) (memPlace (bankBase b + headerOfs c + 0x1000) img m),
    updPut { d.upd with romAt := some b } d)

/-- The trestles that hold a boot descriptor (R368). -/
def bootTrestles (d : Dev) : List Nat := d.cfg.boots.map (·.tl)

/-- Steps 2 and 3 of R495: the result checked and prepared; a failure leaves the state COMPLETE. -/
def activatePrepare (m : List Host.Cell) (d : Dev) : Nat × List Host.Cell × Dev :=
  let hdr := d.upd.header
  let c := field hdr 8 1
  let img := stagedImage m d
  if crc32c img ≠ field hdr 32 4 ∨ hashOk hdr img = false ∨ (2 ≤ c ∧ sigOk hdr = false) then (stSign, m, updStateTo 3 d)
  else if d.upd.rom then (stOk, romBuild m d)
  else if c < 5 then (stOk, buildBank m d, d)
  else if c = 6 ∧ d.upd.when1 = false then
    let stop := (bootTrestles d).filter (fun t => tlState t d == 3)
    let d := each stop ctrlStop d
    let m := memPlace (custBase + 0x1000) img (memPlace custBase hdr (memErase custBase 0x1000000 m))
    (stOk, m, fput F.UPD_STATUS_CUST_VALID false (updPut { d.upd with cust := 1, stopped := stop } d))
  else (stOk, m, d)

/-! ### Satellites (R498) -/

/-- The positions of chain `n` still to be programmed, from `p` on. -/
def satNeeds (n p : Nat) (d : Dev) : List Nat :=
  let ver := field d.upd.header 12 4 % 65536
  (positionsOf n d).filter (fun q => decide (p ≤ q) && mastersPos n q d && fget (F.ACQ_POS_STATE n q) d != 2
    && (posOf n q d).fw != ver)

def satPut (n : Nat) (x : Option SatRun) (d : Dev) : Dev :=
  updPut { d.upd with sats := match x with
    | some r => tabPut d.upd.sats n r
    | none => tabDel d.upd.sats n } d

/-- An access to a loader word of position `p` enters the bridge queue. -/
def satAccess (n p : Nat) (write : Bool) (word data : Nat) (d : Dev) : Dev :=
  kzEnter { origin := .update n, write, addr := 0x40000000 + n * 2 ^ 24 + p * 2 ^ 18 + word * 2, size := 2, data
            attr := attrMaster, need := 1, total := 1 } d

/-- The access of the step that a chain has reached; SWAP waits for DISARMED. -/
def satGo (n : Nat) (m : List Host.Cell) (d : Dev) : Dev :=
  match d.upd.sats.find? (fun e => e.1 == n) with
  | none => d
  | some (_, r) =>
    let hdr := d.upd.header
    let w (word data : Nat) : Dev := satAccess n r.pos true word data (satPut n (some { r with busy := true }) d)
    let poll : Dev := satAccess n r.pos false 0x1FF01 0 (satPut n (some { r with busy := true }) d)
    if r.busy then d
    else match r.step with
      | 0 => w 0x1FF00 1
      | 1 => poll
      | 2 => w 0x1FF02 0
      | 3 => w 0x1FF03 0
      | 4 => w 0x1FF04 (leNat (memRead m (stageBlock 0 + 2 * r.words) 2))
      | 5 => w 0x1FF05 (field hdr 32 2)
      | 6 => w 0x1FF06 (field hdr 34 2)
      | 7 => w 0x1FF07 (field hdr 24 2)
      | 8 => w 0x1FF08 (field hdr 26 2)
      | 9 => w 0x1FF00 2
      | 10 => poll
      | 11 => if zone d = 1 then w 0x1FF00 3 else d
      | _ => d

/-- SAT_PROGRAM ends when no chain holds a position. -/
def satEnd (d : Dev) : Dev :=
  if updState d = 6 ∧ d.upd.sats.isEmpty = true then
    updStateTo 0 (updPut { d.upd with cancel := false } d)
  else d

/-- The chain takes its next position from `p` on, or has done. -/
def satNext (n p : Nat) (m : List Host.Cell) (d : Dev) : Dev :=
  match (if d.upd.cancel then [] else satNeeds n p d) with
  | q :: _ => satGo n m (satPut n (some { pos := q }) d)
  | [] => satEnd (satPut n none d)

/-- A position is finished, with its record. -/
def satFinish (n : Nat) (r : SatRun) (ok : Bool) (err : Nat) (m : List Host.Cell) (d : Dev) : Dev :=
  let d := finc F.UPD_DONE_DONE d
  let ver := field d.upd.header 12 4
  let d := if ok then recordC 0x0E0A (n + r.pos * 16) ver (fset (F.UPD_VER_VER 5) ver d)
    else recordC 0x0E0B (n + r.pos * 16) err d
  satNext n (r.pos + 1) m d

/-- A step has failed: again from ERASE, or the position is given up. -/
def satFail (n : Nat) (r : SatRun) (err : Nat) (m : List Host.Cell) (d : Dev) : Dev :=
  if r.fails < fget F.UPD_CFG_SAT_RETRY d then satGo n m (satPut n (some { pos := r.pos, fails := r.fails + 1 }) d)
  else satFinish n r false err m d

/-- The outcome of an access of chain `n`: the next step. -/
def satResult (n : Nat) (res : SvcResult) (m : List Host.Cell) (d : Dev) : Dev :=
  match d.upd.sats.find? (fun e => e.1 == n) with
  | none => d
  | some (_, r) =>
    let r := { r with busy := false }
    let next (r : SatRun) : Dev := satGo n m (satPut n (some r) d)
    match res.error with
    | some _ => satFail n r 0xF m d
    | none =>
      let stat := res.data.headD 0
      let words := (field d.upd.header 24 4 + 1) / 2
      match r.step with
      | 1 | 10 =>
        if stat.testBit 0 then next r
        else if stat.testBit (if r.step = 1 then 1 else 2) && stat / 16 % 16 == 0 then next { r with step := r.step + 1 }
        else satFail n r (stat / 16 % 16) m d
      | 4 => if r.words + 1 < words then next { r with words := r.words + 1 } else next { r with step := 5, words := 0 }
      | 11 =>
        let d := posPut n r.pos { posOf n r.pos d with fw := 0x10000 } d
        satPut n (some { r with step := 12 }) d
      | k => next { r with step := k + 1 }

/-- Once a frame: chains that wait for DISARMED go on, and a satellite that has been numbered again is compared. -/
def satFrame (m : List Host.Cell) (d : Dev) : Dev :=
  each d.upd.sats (fun e d =>
    let (n, r) := e
    if r.step = 11 then satGo n m d
    else if r.step = 12 then
      let fw := (posOf n r.pos d).fw
      if fw = 0x10000 then (if fget (F.ACQ_POS_STATE n r.pos) d = 2 then satFail n r 0xF m d else d)
      else if fw = field d.upd.header 12 4 % 65536 then satFinish n r true 0 m d
      else satFail n r 0 m d
    else d) d

/-- SAT_PROGRAM begins on every chain. -/
def satStart (m : List Host.Cell) (d : Dev) : Dev :=
  let n := ((chainsOn d).map (fun n => (satNeeds n 0 d).length)).foldl (· + ·) 0
  let d := updStateTo 6 (fset F.UPD_DONE_DONE 0 (fset F.UPD_BLOCKS_BLOCKS n d))
  let d := each (chainsOn d) (fun n d => satNext n 0 m d) d
  satEnd d

/-! ### Taking effect (R495) -/

/-- The result made effective after the commit. A device reset that follows is the answer's flag. -/
def activateEffect (m : List Host.Cell) (d : Dev) : Bool × List Host.Cell × Dev :=
  let hdr := d.upd.header
  let c := field hdr 8 1
  let ver := field hdr 12 4
  let when1 := d.upd.when1
  let told (d : Dev) : Dev := recordC 0x0E04 (c + b2n when1 * 256) ver d
  if d.upd.rom then
    if (List.range 5).all (romHas m d) && !when1 then (true, bankMark (romBank m d) 0x7F m, told (updStateTo 0 d))
    else (false, m, told (updStateTo 0 d))
  else if c < 5 then
    let m := bankMark (1 - fget F.UPD_STATUS_BANK d) 0x7F m
    -- IDLE before the device reset is not reported: the activation ends with the confirmation or a fallback (R499)
    if when1 then (false, m, told (updStateTo 5 d)) else (true, m, told (fset F.UPD_STATUS_STATE 0 d))
  else if c = 5 then (false, m, told (satStart m d))
  else if when1 then (false, m, told (updStateTo 5 (updPut { d.upd with staged := some hdr } d)))
  else
    let d := fset (F.UPD_VER_VER 6) ver (fput F.UPD_STATUS_CUST_VALID true (updPut { d.upd with cust := 2 } d))
    let (m, d) := withMonitor (fun d => each d.upd.stopped ctrlRestart d) m d
    let d := recordC 0x0E0C ver 0 d
    (false, m, told (updStateTo 0 (updPut { d.upd with stopped := [] } d)))

/-- An activation ended before its commit: the state is COMPLETE again. -/
def activateAbort (d : Dev) : Dev := if updState d = 4 then updStateTo 3 (updPut { d.upd with asked := false } d) else d

/-! ### UPDATE_CANCEL (R493, R500) -/

def updCancel (m : List Host.Cell) (d : Dev) : Nat × List Host.Cell × Dev :=
  let st := updState d
  let c := fget F.UPD_STATUS_CLASS d
  let told (d : Dev) : Dev := recordC 0x0E05 c st d
  let idle (d : Dev) : Dev := updStateTo 0 (updPut { d.upd with header := [], part := none } d)
  match st with
  | 1 | 2 | 3 => (stOk, m, told (idle d))
  | 5 =>
    if c < 5 then (stOk, bankMark (1 - fget F.UPD_STATUS_BANK d) 0x1F m, told (idle d))
    else (stOk, m, told (idle (updPut { d.upd with staged := none } d)))
  | 6 => (stOk, m, told (updPut { d.upd with cancel := true } d))
  | _ => (stState, m, d)

/-! ### Confirmation (R501) -/

/-- BANK_CONFIRMED: the trial bank is confirmed, and OTP takes the security versions of its classes where they are higher. -/
def bankConfirmed (m : List Host.Cell) (d : Dev) : List Host.Cell × Dev :=
  if !flag F.UPD_STATUS_TRIAL d || !d.pwr.booted || tlState 0 d != 3 then (m, d)
  else
    let b := fget F.UPD_STATUS_BANK d
    let m := bankMark b 0x3F m
    let d := recordC 0x0E07 b (bankSeq m b) (fput F.UPD_STATUS_TRIAL false d)
    let d := each (List.range 5) (fun c d =>
      let v := min 127 (entryField m b c 20 1)
      if fget (svnField c) d < v then recordC 0x0E09 c v (fset (svnField c) v d) else d) d
    (m, updStateTo (updState d) d)

def execBankConfirmed (s : State) : Host.Outcome State Fault Refusal := onBlkBoth 24 bankConfirmed s

/-! ### One part at a time (R499) -/

/-- ACTIVATION_REQUEST: granted unless a condition holds for this member; `same` when both requests share a peer-link frame. -/
def activationRequest (same : Bool) (d : Dev) : Dev :=
  let bar := match ownBar d with
    | some r => some r
    | none =>
      if d.upd.asked then (if same then (if d.pair.slotB then none else some 4) else some 2)
      else if updState d = 4 then some 2
      else if updState d = 6 then some 3
      else none
  match bar with
  | some r => toPartner (.activationAnswer false r) (recordC 0x0E0E 1 r d)
  | none => toPartner (.activationAnswer true 0) (fput F.UPD_STATUS_HOLD true d)

def execActivationRequest (same : Bool) (s : State) : Host.Outcome State Fault Refusal := onBlk 24 (heardThen (activationRequest same)) s

/-- PARTNER_UPDATE_REPORT: kept; a hold ends with the partner's activation. -/
def partnerReport (r : UpdReport) (d : Dev) : Dev :=
  let busy := r.trial || r.state == 4 || r.state == 5 || r.state == 6
  let d := fset F.UPD_PARTNER_PEER_MIN r.peerMin (fset F.UPD_PARTNER_PEER_MAX r.peerMax (fset F.UPD_PARTNER_STATE r.state d))
  let d := fput F.UPD_PARTNER_VALID true (fput F.UPD_PARTNER_TRIAL r.trial (fset F.UPD_PARTNER_UCODE_VER r.ucode.toNat d))
  if busy then d else fput F.UPD_STATUS_HOLD false d

def execPartnerUpdateReport (r : UpdReport) (s : State) : Host.Outcome State Fault Refusal := onBlk 24 (heardThen (partnerReport r)) s

/-- The partner is lost: a hold it was granted ends (R499). -/
def updLost (d : Dev) : Dev := fput F.UPD_STATUS_HOLD false d

end Sys2Proof.Machine
end

