-- ==== Sys2Proof/Machine/Pair.lean ====
section
/-!
DEFINITION. Machine/Pair.lean: role negotiation, the loss of the partner, and the peer link going up and down (01, R399, R401).
-/

namespace Sys2Proof.Machine

def pairPut (p : Pair) (d : Dev) : Dev := { d with pair := p }

/-- The member cannot be primary: it reports a trestle fault or configuration hold (R26). -/
def selfBarred (d : Dev) : Bool := devFault d || zone d == 0

/-- The partner monitor pulses (R24, R226). -/
def monitorPulses (d : Dev) : Bool := (List.range 48).any (fun i => fget (F.IOX_SW_CFG_ROLE i) d == 1 && swLevel i d)

/-- The own role message (R26, R36). -/
def roleMessage (restart : Bool) (d : Dev) : Dev :=
  toPartner (.roleMessage { slotB := d.pair.slotB, prefers := d.pair.prefers, barred := selfBarred d, fromLone := d.pair.fromLone
                            restart, role := d.pair.role, zone := zone d, crc := BitVec.ofNat 32 (fget F.CFG_CRC_CRC d)
                            cycle := BitVec.ofNat 32 (cycleNow d) }) d

/-- What a change of role does to chain `n` (R28, R115): a new secondary listens on a chain that it mastered from A, and a new primary takes
one that it listened on or mastered from B through LINKUP; the rest that waited for a role in LINKUP move. A LONE member of slot B that
stays primary keeps its chains. DEDUCED where R115 has no row (notes/assumptions/69.md). -/
def chainRole (new n : Nat) (d : Dev) : Dev :=
  match new, chState3 n d with
  | 4, 2 | 4, 3 | 4, 4 | 4, 5 | 4, 8 => chainPut n { chainOf n d with next := some 6, run := none } d
  | 3, 6 => chNext n 1 d
  | 3, 7 => if d.pair.fromLone then d else chNext n 1 d
  | _, _ => linkupMove n d

/-- A role state entered: recorded, and the chains that waited for a role in LINKUP move (R25, R115). A member that leaves
SECONDARY has no unaligned positions (R182); one that becomes SECONDARY marks every position when it must. -/
def roleTo (new : Nat) (d : Dev) : Dev :=
  let old := d.pair.role
  if new = old then d
  else
    let d := record 0x0A40 old new (cycleNow d) (pairPut { d.pair with role := new } d)
    let d := if old = 4 then alignEnd (unalignedCount { d with est := { d.est with unaligned := [], alignReq := [], xfer := none } }) else d
    let d := if new = 4 ∧ d.est.alignAll = true then markAll d else d
    each (chainsOn d) (chainRole new) d

/-- Whether this member is to be primary, by the first rule of R26 that separates the two; a returning member joins a PRIMARY (R27). -/
def negotiated (d : Dev) : Option Bool :=
  match d.pair.report with
  | none => none
  | some r =>
    if r.slotB = d.pair.slotB then none
    else if r.role = 3 then some false
    else if selfBarred d && r.barred then none
    else if selfBarred d then some false
    else if r.barred then some true
    else if d.pair.fromLone != (r.fromLone || r.role == 5) then some d.pair.fromLone
    else if d.pair.prefers != r.prefers then some d.pair.prefers
    else some (!d.pair.slotB)

/-- NEGOTIATE goes on: the exchange is repeated, and the member that becomes secondary acknowledges the grant. -/
def negotiate (d : Dev) : Dev :=
  let d := roleMessage false d
  if negotiated d = some false then toPartner .grantAck d else d

/-- The configuration CRCs differ (R23), and the slots are equal (R26): recorded once. -/
def pairTell (r : RoleReport) (d : Dev) : Dev :=
  let own := fget F.CFG_CRC_CRC d
  let bad := r.crc.toNat != own
  let d := if bad && !d.pair.mismatchTold then record 0x0A45 own r.crc.toNat 0 d else d
  let d := pairPut { d.pair with mismatchTold := bad } d
  if d.pair.role = 2 ∧ r.slotB = d.pair.slotB ∧ d.pair.conflictTold = false then
    record 0x0A47 (b2n d.pair.slotB) (cycleNow d) 0 (pairPut { d.pair with conflictTold := true } d)
  else d

/-- ROLE_EXCHANGE: a role message of the partner. The secondary's part of the commit is the primary's report of its role. -/
def roleExchange (r : RoleReport) (m : List Host.Cell) (d : Dev) : List Host.Cell × Dev :=
  if d.pair.mode = 0 ∨ peerUp d = false then (m, d)
  else
    let d := partnerZonePut r.zone (pairPut { d.pair with report := some r, partnerCrc := some r.crc.toNat } d)
    let d := pairTell r d
    match d.pair.role with
    | 5 => (m, if r.barred then d else negotiate (roleTo 2 (pairPut { d.pair with fromLone := true } d)))
    | 3 | 4 => (m, if r.restart then negotiate (roleTo 2 (pairPut { d.pair with fromLone := false, prefers := !r.prefers } d)) else d)
    | 2 =>
      if r.role = 3 ∧ negotiated d = some false then
        let all := d.est.alignAll
        let d := relabelTo r.cycle.toNat (roleTo 4 (pairPut { d.pair with fromLone := false } d))
        (if all then unalignedSweep d m else m, d)
      else (m, negotiate d)
    | _ => (m, d)

/-- ROLE_GRANT_ACK: the commit of negotiation at the primary. -/
def grantAck (d : Dev) : Dev :=
  if d.pair.role = 2 ∧ negotiated d = some true then roleMessage false (pairPut { (roleTo 3 d).pair with fromLone := false } (roleTo 3 d)) else d

/-- ALONE_WAIT_TIMEOUT (R25). -/
def aloneTimeout (d : Dev) : Dev := if d.pair.role = 1 ∧ peerUp d = false ∧ monitorPulses d = false then roleTo 5 d else d

def execAloneWaitTimeout (s : State) : Host.Outcome State Fault Refusal := onDev aloneTimeout s

/-- A close that the partner has not confirmed is abandoned (R31, R215). -/
def closesAbandon (d : Dev) : Dev :=
  match d.prot.hs with
  | some h => if h.phase = 0 then abandon h.string 0 (hsPut none d) else d
  | none => d

/-- An activation that waits for the partner is refused (R499). -/
def activationRefused (reason : Nat) (d : Dev) : Dev :=
  if d.upd.asked then recordC 0x0E0E 0 reason (activateAbort d) else d

/-- By which condition of R36 the partner is lost: 0 link and monitor, 1 monitor, 2 link alone while no pulse was expected; none while
neither holds. -/
def lostBy (d : Dev) : Option Nat :=
  if peerUp d then (if monitorExpected d.clk d && !monitorPulses d then some 1 else none)
  else if !d.pair.monitorDue then some 2
  else if monitorPulses d then none else some 0

/-- The partner is lost: this member stands alone. -/
def standAlone (cause : Nat) (d : Dev) : Dev :=
  let d := record 0x0A41 cause (cycleNow d) 0 d
  let d := closesAbandon (activationRefused 5 (updLost d))
  let d := roleTo 5 (pairPut { d.pair with report := none, partnerCrc := none, fromLone := false, digests := [], sets := [] } d)
  peerAngleLost (partnerZonePut 0 d)

/-- PARTNER_LOST (R36), by the condition that the sender names; without effect while that condition does not hold. -/
def partnerLost (cause : Nat) (d : Dev) : Dev :=
  if 2 ≤ d.pair.role ∧ d.pair.role ≤ 4 ∧ lostBy d = some cause then standAlone cause d else d

/-- PEER_LINK_UP (R401), with version 1 or 2 and one or two lanes. A device configured as single ignores the link (R23). -/
def linkUp (ver : Nat) (two : Bool) (d : Dev) : Dev :=
  if d.pair.mode = 0 ∨ flag F.PEER_CTRL_EN d = false ∨ peerUp d = true then d
  else
    let d := fput F.PEER_STATUS_LANE_0 true (fput F.PEER_STATUS_LANE_1 two d)
    let d := fset F.PEER_STATUS_VER ver (fset F.PEER_STATUS_LINK 2 d)
    let d := recordC 0x0A20 ver (if two then 2 else 1) { d with brg := { d.brg with unacked := 0, waiting := [] } }
    let d := updStateTo (updState d) (fput F.UPD_PARTNER_VALID false d)
    let d := if d.pair.role = 1 then roleTo 2 d else d
    roleMessage false d

def execPeerLinkUp (ver : Fin 2) (two : Bool) (s : State) : Host.Outcome State Fault Refusal :=
  onBlk 12 (linkUp (ver.val + 1) two) s

/-- Every outstanding request ends with cause 8 (R402). -/
def requestsEnd : Nat → Dev → Dev
  | 0, d => d
  | n + 1, d => if d.brg.peerOut.isEmpty then d else requestsEnd n (peerFail 0 8 0 d)

/-- PEER_LINK_DOWN: 500 µs without a valid frame. -/
def linkDown (d : Dev) : Dev :=
  if !peerUp d then d
  else
    let n := d.brg.peerOut.length
    -- the last valid frame was 500 µs ago
    let d := pairPut { d.pair with monitorDue := monitorExpected (d.clk - 500 * tickUs) d } d
    let d := regPut R.PEER_STATUS (regReset R.PEER_STATUS) d
    let d := recordC 0x0A21 d.brg.unacked n d
    let d := requestsEnd n { d with brg := { d.brg with unacked := 0, waiting := [] } }
    let d := { d with brg := { d.brg with peerIn := (d.brg.peerIn.take 1).map (fun x => { x with dead := true }) } }
    let d := closesAbandon (activationRefused 5 (peerAngleLost d))
    let d := if d.pair.role = 4 then alignEnd (markAll d) else d
    if paired d && monitorPulses d then record 0x0A42 (cycleNow d) 0 0 d else d

/-- The marks of a secondary whose link went down reach the store (R182). -/
def linkDownBoth (m : List Host.Cell) (d : Dev) : List Host.Cell × Dev :=
  let was := peerUp d
  let d := linkDown d
  (if was && d.pair.role == 4 then unalignedSweep d m else m, d)

end Sys2Proof.Machine
end

