-- ==== Sys2Proof/Machine/CfgCheck.lean ====
section
/-!
DEFINITION. Machine/CfgCheck.lean: the configuration image and its checks (R369 to R376, R383).
-/

namespace Sys2Proof.Machine

/-! ### The image (R371 to R373, R383) -/

/-- A directory entry: type, flags, place, length and CRC (none in format 1), and the offset of the entry. -/
structure Sect where
  typ : Nat
  flags : Nat
  ofs : Nat
  len : Nat
  crc : Option Nat
  dir : Nat
deriving DecidableEq, Repr

def imgFormat (img : List Byte) : Nat := field img 4 2

/-- Header length and size of a directory entry by format. -/
def hdrLen (img : List Byte) : Nat := if imgFormat img = 1 then 32 else 64
def dirLen (img : List Byte) : Nat := if imgFormat img = 1 then 12 else 16

def imgCount (img : List Byte) : Nat := field img 20 2

def sectAt (img : List Byte) (i : Nat) : Sect :=
  let o := hdrLen img + dirLen img * i
  { typ := field img o 2, flags := field img (o + 2) 2, ofs := field img (o + 4) 4, len := field img (o + 8) 4
    crc := if imgFormat img = 1 then none else some (field img (o + 12) 4), dir := o }

def sections (img : List Byte) : List Sect := (List.range (imgCount img)).map (sectAt img)

def sectBytes (img : List Byte) (s : Sect) : List Byte := (img.drop s.ofs).take s.len

/-- The section types of R373; format 1 knows those of R383. -/
def typeKnown (fmt t : Nat) : Bool :=
  if fmt = 1 then [1, 2, 3, 4, 5, 6, 7, 9, 0x10].contains t
  else [1, 2, 3, 4, 5, 6, 7, 8, 9, 0x10, 0x11, 0x12, 0x7F00].contains t

/-- The whole-image CRC that an image carries. -/
def imgCrc (img : List Byte) : Nat := field img (img.length - 4) 4

/-- The bytes of a word sequence rounded up to a multiple of 8. -/
def pad8 (bs : List Byte) : List Byte := bs ++ List.replicate ((8 - bs.length % 8) % 8) 0

/-- The section bodies of a converted image, with their offsets. -/
def convertBodies (img : List Byte) : List Sect → Nat → List (Sect × Nat)
  | [], _ => []
  | s :: t, o => (s, o) :: convertBodies img t (o + (s.len + 7) / 8 * 8)

/-- A format-1 image converted (R383). -/
def convert (img : List Byte) : List Byte :=
  let ss := sections img
  let n := ss.length
  let placed := convertBodies img ss (64 + 16 * n)
  let dir := placed.flatMap (fun e => leBytes 2 e.1.typ ++ [0, 0] ++ leBytes 4 e.2 ++ leBytes 4 e.1.len
    ++ leBytes 4 (crc32c (sectBytes img e.1)))
  let body := placed.flatMap (fun e => pad8 (sectBytes img e.1))
  let total := 64 + 16 * n + body.length + 4
  let head := leBytes 4 0x46435A47 ++ leBytes 2 2 ++ leBytes 2 64 ++ leBytes 4 total ++ (img.drop 12).take 10
    ++ List.replicate 42 0
  let all := head ++ dir ++ body
  all ++ leBytes 4 (crc32c all)

/-! ### Register entries (R374) -/

/-- The peripheral slots that a register section may write. -/
def sectSlots : Nat → List Nat
  | 1 => [2]
  | 2 => [4, 3]
  | 3 => [6, 0x19]
  | 4 => [5]
  | 5 => [7]
  | 6 => [0x10, 0x11, 0x12, 0x13, 0x14, 0x15, 0x16]
  | 7 => [0xD, 0xE, 0xA]
  | 8 => [9, 8]
  | 9 => [1, 0x1A]
  | _ => []

/-- A cabinet register (R322). -/
def isCab (a : Nat) : Bool := decide (R.CAB_CMD ≤ a ∧ a < R.CAB_DATA 0 + 0x40)

/-- A register entry of an image: its offset in the image, the register and the value. -/
structure CfgEntry where
  ofs : Nat
  typ : Nat
  addr : Nat
  value : Nat
deriving DecidableEq, Repr

def sectEntries (img : List Byte) (s : Sect) : List CfgEntry :=
  if (sectSlots s.typ).isEmpty then []
  else (List.range (s.len / 8)).map (fun i =>
    { ofs := s.ofs + 8 * i, typ := s.typ, addr := field img (s.ofs + 8 * i) 4, value := field img (s.ofs + 8 * i + 4) 4 })

/-- The register sections in the order in which they are applied (R377). -/
def entriesOf (img : List Byte) (typ : Nat) : List CfgEntry :=
  ((sections img).filter (fun s => s.typ == typ)).flatMap (sectEntries img)

def allEntries (img : List Byte) : List CfgEntry := [1, 2, 3, 4, 5, 6, 7, 8, 9].flatMap (entriesOf img)

/-- ADDR is aligned, in a block of the section's type, and not reserved. -/
def addrOk (e : CfgEntry) : Bool :=
  let a := regOf e.addr
  e.addr % 4 == 0 && decide (0x20000000 ≤ e.addr) && (sectSlots e.typ).contains (a / 0x10000) && (regRow a).isSome && !isCab a

def writable (a : Nat) : Bool := (regFields a).any (fun f => f.acc == .rw || f.acc == .rwl || f.acc == .sec)

/-- The bits of a register that an entry may set. -/
def entryMask (a : Nat) : Nat :=
  (regFields a).foldl (fun m f =>
    if (f.acc == .rw || f.acc == .rwl || f.acc == .sec) && f.name != "LOCK" then m ||| ((2 ^ f.width - 1) <<< f.lo) else m) 0

/-- The range that a register table states for a field and that a write outside the image does not enforce. -/
def statedRange (row field : String) (v : Nat) : Bool :=
  match row, field with
  | "ANG_PTP_EPOCH_NS", "NS" => decide (v ≤ 999999999)
  | "ANG_PTP_FREQ", "FREQ" => decide (45000000 ≤ v ∧ v ≤ 66000000)
  | "SLOT_CTRL_n", "TRESTLE" => decide (v ≤ 4)
  | "KZC_SVC", "TMO" => decide (64 ≤ v ∧ v ≤ 4095)
  | "ACQ_EXC_CTRL", "FRAMES" => decide (1 ≤ v)
  | "ACQ_EXC_ROUTE", "LEN" => decide (1 ≤ v ∧ v ≤ 64)
  | "ACQ_POS_n_p", "NCELL" => decide (v ≤ 32)
  | "ACQ_POS_n_p", "STRING" => decide (v ≤ 47 ∨ v = 63)
  | "PWR_SLEEP", "STATE" => decide (1 ≤ v ∧ v ≤ 4)
  | _, _ => true

/-- Every field lies in its range and holds no value that its table says is ignored. -/
def entryInRange (e : CfgEntry) : Bool :=
  let a := regOf e.addr
  valueTaken a e.value && (match regRow a with
    | none => true
    | some r => r.fields.all (fun f =>
      let v := bitsOf e.value f.lo f.width
      (fieldTakes f v && statedRange r.name f.name v) || !(f.acc == .rw || f.acc == .rwl || f.acc == .sec)))

/-- The registers as the entries leave them. -/
def entriesApply (l : List CfgEntry) (d : Dev) : Dev := each l (fun e => regPut (regOf e.addr) (BitVec.ofNat 32 e.value)) d

/-! ### Data sections (R375) -/

/-- Chemistry sets: the set number and the bytes of R157. -/
def chemSets (img : List Byte) : List (Nat × List Byte × Nat) :=
  ((sections img).filter (fun s => s.typ == 0x10)).map (fun s => (field img s.ofs 1, ((sectBytes img s).drop 8).take 0x2444, s.ofs))

/-- The entries of SAT_UID: chain, position, UID and offset. -/
def satUids (img : List Byte) : List (Nat × Nat × Nat × Nat) :=
  ((sections img).filter (fun s => s.typ == 0x11)).flatMap (fun s => (List.range (s.len / 16)).map (fun i =>
    let o := s.ofs + 16 * i
    (field img o 1, field img (o + 1) 1, field img (o + 8) 8, o)))

/-- The boot descriptors, with their offsets. -/
def bootDescs (img : List Byte) : List (BootDesc × Nat) :=
  ((sections img).filter (fun s => s.typ == 0x12)).flatMap (fun s => (List.range (s.len / 32)).map (fun i =>
    let o := s.ofs + 32 * i
    ({ tl := field img o 1, ofs := field img (o + 4) 4, len := field img (o + 8) 4, dest := field img (o + 16) 8
       entry := field img (o + 24) 8 }, o)))

def zeros (img : List Byte) (o n : Nat) : Bool := field img o n == 0

def bootOk (img : List Byte) (b : BootDesc) (o : Nat) : Bool :=
  zeros img (o + 1) 3 && zeros img (o + 12) 4
    && decide (1 ≤ b.tl ∧ b.tl ≤ 4 ∧ 1 ≤ b.len ∧ b.len ≤ 0x4000000 ∧ b.ofs + b.len ≤ 0x4000000
      ∧ dramBase ≤ b.dest ∧ b.dest + b.len ≤ dramBase + 0x80000000 ∧ b.dest ≤ b.entry ∧ b.entry < b.dest + b.len ∧ b.entry % 4 = 0)

/-- The offsets at which data sections break R375. -/
def dataBad (img : List Byte) (dv : Dev) : List Nat :=
  let chem := (sections img).filter (fun s => s.typ == 0x10)
  let sets := chem.map (fun s => field img s.ofs 1)
  let badChem := ((List.range chem.length).zip chem).filterMap (fun e =>
    let s := e.2
    let k := field img s.ofs 1
    if s.len != 9296 || decide (7 < k) || !zeros img (s.ofs + 1) 7 || !zeros img (s.ofs + 8 + 0x2444) 4
        || (sets.take e.1).contains k then some s.ofs else none)
  let lens := (sections img).filterMap (fun s =>
    if (s.typ == 0x11 && s.len % 16 != 0) || (s.typ == 0x12 && s.len % 32 != 0) then some s.ofs else none)
  let uids := (satUids img).filterMap (fun (c, p, _, o) =>
    if decide (16 ≤ c ∨ 48 ≤ p) || !zeros img (o + 2) 6 || !flag (F.ACQ_POS_EN c p) dv then some o else none)
  let boots := (bootDescs img).filterMap (fun (b, o) => if bootOk img b o then none else some o)
  badChem ++ lens ++ uids ++ boots

/-! ### Checks of meaning: the registers of each failure (R376) -/

/-- The enabled positions of string `k`, by chain and position. -/
def stringCells (k : Nat) (d : Dev) : List (Nat × Nat) :=
  (List.range 16).flatMap (fun n => (below 48 (fun p => flag (F.ACQ_POS_EN n p) d && fget (F.ACQ_POS_STRING n p) d == k)).map
    (fun p => (n, p)))

/-- A string of R18 and R19: consecutive positions of one chain, 1 to 16 of them, 512 cells at most, one head, which has cells. -/
def stringFits (k : Nat) (d : Dev) : Bool :=
  let ms := stringCells k d
  match ms with
  | [] => false
  | (n0, p0) :: _ =>
    let heads := ms.filter (fun e => flag (F.ACQ_POS_HEAD e.1 e.2) d)
    ms == (List.range ms.length).map (fun i => (n0, p0 + i)) && decide (ms.length ≤ 16)
      && decide ((ms.map (fun e => fget (F.ACQ_POS_NCELL e.1 e.2) d)).foldl (· + ·) 0 ≤ 512)
      && heads.length == 1 && heads.all (fun e => fget (F.ACQ_POS_NCELL e.1 e.2) d != 0)

def posRegs (ms : List (Nat × Nat)) : List Nat := ms.map (fun e => (F.ACQ_POS_EN e.1 e.2).reg)

/-- 0x0021: strings, heads and the position table. -/
def badStrings (d : Dev) : List (List Nat) :=
  let strs := (below 48 (fun k => stringCells k d != [] && !stringFits k d)).map (fun k => posRegs (stringCells k d))
  let high := (List.range 16).flatMap (fun n =>
    (below 48 (fun p => flag (F.ACQ_POS_EN n p) d && decide (fget (F.KZC_CH_CTRL_COUNT n) d ≤ p))).map (fun p => posRegs [(n, p)]))
  strs ++ high

/-- 0x0022: the frame windows. -/
def badWindows (d : Dev) : List (List Nat) := if winOk (winRegs d) then [] else [[R.ANG_WIN_EST, R.ANG_WIN_SLACK, R.ANG_WIN_ACQ]]

/-- 0x0023: the steps in use of every scan table. -/
def badScan (d : Dev) : List (List Nat) :=
  (List.range 16).flatMap (fun n => (below (2 ^ fget (F.ACQ_SCAN_CTRL_STEPS n) d) (fun s =>
    let p := fget (F.ACQ_SCAN_STEP_ORD_P n s) d
    let q := fget (F.ACQ_SCAN_STEP_ORD_Q n s) d
    decide (p = 0 ∨ 24 < p ∨ 24 < q ∨ q = p))).map (fun s => [(F.ACQ_SCAN_STEP_ORD_P n s).reg]))

/-- T_chain of R146 in hundredths of a microsecond. -/
def chainTime (n : Nat) (d : Dev) : Nat :=
  let c := fget (F.KZC_CH_CTRL_COUNT n) d
  let r := fget F.KZC_RETX_MAX d
  32 * (40 + c * fget F.KZC_SLOT_LEN d + 600 * r) + 306 * c * (1 + r)

/-- 0x0024: the timing of every enabled chain. -/
def badTiming (d : Dev) : List (List Nat) :=
  let used := fget F.ACQ_SYNC_CNT d + fget F.KZC_RETX_GUARD d
  let ok (n : Nat) : Bool := decide (used ≤ fget F.ANG_WIN_ACQ_ACQ_END d
    ∧ chainTime n d * 10000 ≤ (fget F.ANG_WIN_ACQ_ACQ_END d - used) * 231193)
  ((chainsOn d).filter (fun n => !ok n)).map (fun n => [(F.KZC_CH_CTRL_COUNT n).reg])

/-- 0x0025: the excitation message. -/
def badExcitation (d : Dev) : List (List Nat) :=
  let len := fget F.ACQ_EXC_ROUTE_LEN d
  let c := fget F.ACQ_EXC_PATCH_CNT_OFS d
  let m := fget F.ACQ_EXC_PATCH_MASK_OFS d
  let ce := flag F.ACQ_EXC_PATCH_CNT_EN d
  let me := flag F.ACQ_EXC_PATCH_MASK_EN d
  let regs := [F.ACQ_EXC_PATCH_CNT_OFS.reg, F.ACQ_EXC_ROUTE_LEN.reg]
  (if (ce && decide (len ≤ c)) || (me && decide (len < m + 6)) || (ce && me && decide (m ≤ c ∧ c < m + 6)) then [regs] else [])
    ++ (if rtKind (fget F.ACQ_EXC_ROUTE_ROUTE d) d = 0 then [[F.ACQ_EXC_ROUTE_ROUTE.reg]] else [])

/-- The chemistry sets that strings use. -/
def usedSets (d : Dev) : List Nat :=
  (below 48 (fun k => stringCells k d != [])).map (fun k => fget (F.EST_STR_CHEM_SET (k / 8) (k % 8)) d)

/-- 0x0026: a string that has positions, or that an entry of the image writes, names a set which the image does not load. -/
def badSets (img : List Byte) (l : List CfgEntry) (d : Dev) : List (List Nat) :=
  let have_ := (chemSets img).map (·.1)
  let names (k : Nat) : Bool := stringCells k d != [] || l.any (fun e => regOf e.addr == R.EST_STR_CHEM (k / 8))
  (below 48 (fun k => names k && !have_.contains (fget (F.EST_STR_CHEM_SET (k / 8) (k % 8)) d))).map
    (fun k => [(F.EST_STR_CHEM_SET (k / 8) (k % 8)).reg])

/-- The values of a chemistry set from an offset. -/
def chemVals (bs : List Byte) (o n : Nat) : List Nat := (List.range n).map (fun i => field bs (o + 4 * i) 4)

def one32 : Nat := 0x3F800000

/-- The bytes of a set that R157 does not list hold 0. -/
def chemRestZero (bs : List Byte) : Bool :=
  [(0x4C, 0x100), (0xDA0, 0x1000), (0x12A0, 0x1400), (0x16A0, 0x1800), (0x1AA0, 0x1C00), (0x1EA0, 0x2000), (0x22A0, 0x2400)].all
    (fun g => zeros bs g.1 (g.2 - g.1))

/-- The conditions of R157 and R159 on a set. -/
def chemFits (bs : List Byte) : Bool :=
  let v (o : Nat) : Nat := field bs o 4
  let ocv (i j : Nat) : Nat := v (0x100 + 4 * (101 * i + j))
  let pos (x : Nat) : Bool := f32Lt 0 x
  let grids := [0x1000, 0x1400, 0x1800, 0x1C00, 0x2000].flatMap (fun o => chemVals bs o 168)
  (chemVals bs 0 19 ++ chemVals bs 0x100 808 ++ grids ++ chemVals bs 0x2400 17).all f32Finite
    && (List.range 8).all (fun i => (List.range 100).all (fun j => f32Lt (ocv i j) (ocv i (j + 1))))
    && grids.all pos && pos (v 4) && pos (v 0x38)
    && [v 8, v 12].all (fun x => f32Le 0x3F000000 x && f32Le x one32)
    && [v 0x10, v 0x14, v 0x18, v 0x28, v 0x2C, v 0x30, v 0x34].all (fun x => f32Le 0 x)
    && pos (v 0x1C) && pos (v 0x20) && pos (v 0x24)
    && (chemVals bs 0x2400 17).all (fun x => pos x && f32Le x one32)
    && f32Lt (v 0x3C) 0 && f32Lt one32 (v 0x40)
    && pos (v 0x44) && f32Lt (v 0x44) one32 && f32Lt one32 (v 0x48)
    && chemRestZero bs

/-- The channel codes that the roles of an enabled string name. -/
def roleCodes (n : Nat) (d : Dev) : List Nat := (roles.map (fun r => roleCh n r d)).filter (· != 63)

/-- 0x0027: coil roles and feedback inputs (R207). A channel that an owner entry gives to normal world (R311) has another use. -/
def badRoles (d : Dev) : List (List Nat) :=
  let on := stringsOn d
  let all := on.flatMap (fun n => roleCodes n d)
  let bad (n : Nat) : Bool :=
    roleCh n .pos d == 63
      || (roles.map (fun r => roleCh n r d) ++ roles.map (fun r => roleFb n r d)).any (fun c => decide (48 ≤ c ∧ c ≤ 62))
      || (roleCodes n d).any (fun c => decide (1 < (all.filter (· == c)).length)
        || (decide (c < 32) && fget (F.WLD_LSW_OWN_OWN (c / 8) (c % 8)) d != 0))
      || (roles.map (fun r => roleFb n r d)).any (fun i => decide (i < 48) && fget (F.IOX_SW_CFG_ROLE i) d != 2)
      || !stringFits n d
  (on.filter bad).map (fun n => [(F.PROT_STR_A_EN n).reg, (F.PROT_STR_B_POS_FB n).reg])

/-- 0x0028: load channels (R230, R234, R235, R250). -/
def badLoads (d : Dev) : List (List Nat) :=
  (below 32 (fun ch =>
    let b := isBound ch d
    let mode := fget (F.LSW_CH_CFG_MODE ch) d
    let freq := fget (F.LSW_CH_CFG_FREQ ch) d
    (b && (fget (F.LSW_CH_CFG_SAFE ch) d != 0 || mode == 2 || mode == 3 || fget (F.LSW_CH_CFG_SHED_PRIO ch) d != 0))
      || decide (6 ≤ freq ∨ (freq = 5 ∧ ch < 8))
      || ((mode == 1 || mode == 2) && decide (pwmPeriod freq < 10 * edgeTime (fget (F.LSW_CH_CFG_SLOPE ch) d) 32000)))).map
    (fun ch => [(F.LSW_CH_CFG_MODE ch).reg])

/-- 0x0029: an enabled tenant with an empty TLMASK, and a drawer of a tenant that is not enabled (R301, R333). -/
def badTenants (d : Dev) : List (List Nat) :=
  ((below 8 (fun k => 1 ≤ k && flag (F.WLD_TEN_CFG_EN k) d && fget (F.WLD_TEN_CFG_TLMASK k) d / 2 == 0)).map
    (fun k => [R.WLD_TEN_CFG k]))
    ++ ((below 8 (fun k => 1 ≤ k && flag (F.AIX_DCFG_EN k) d && !flag (F.WLD_TEN_CFG_EN k) d)).map (fun k => [R.AIX_DCFG k]))

/-- The inputs that an image makes partner monitors. -/
def monitorsOf (d : Dev) : List Nat := below 48 (fun i => fget (F.IOX_SW_CFG_ROLE i) d == 1)

/-- 0x002A: the pair (R23, R24, R226): the offsets of header fields that fail. DRIVE 3 acts as 0. -/
def badPair (img : List Byte) (d : Dev) : List Nat :=
  let mode := field img 18 1
  let pref := field img 19 1
  (if mode != fget F.PROT_CTRL_DRIVE d % 3 || (mode != 0 && (monitorsOf d).isEmpty) then [18] else [])
    ++ (if (mode == 0 && pref != 0) || decide (2 < pref) then [19] else [])

/-- 0x002A: partner monitors beyond the first (R226). -/
def badMonitors (d : Dev) : List (List Nat) := ((monitorsOf d).drop 1).map (fun i => [(F.IOX_SW_CFG_ROLE i).reg])

/-- 0x002B: a boot descriptor of a trestle that no enabled tenant includes. -/
def badBoots (img : List Byte) (d : Dev) : List Nat :=
  (bootDescs img).filterMap (fun (b, o) =>
    if (List.range 8).any (fun k => 1 ≤ k && flag (F.WLD_TEN_CFG_EN k) d && fbit (F.WLD_TEN_CFG_TLMASK k) b.tl d) then none
    else some o)

/-- A bit rate in b/s from BRP, TSEG1 and TSEG2 (R416), as a fraction. -/
def canRate (brp t1 t2 : Nat) : Nat × Nat := (80000000, (brp + 1) * (t1 + t2 + 3))

/-- A channel's bit timing lies in R415 and R431; the data phase counts with FD_EN. -/
def canTimingOk (n : Nat) (d : Dev) : Bool :=
  let (a, b) := canRate (fget (F.CAN_NBT_BRP n) d) (fget (F.CAN_NBT_TSEG1 n) d) (fget (F.CAN_NBT_TSEG2 n) d)
  let (c, e) := canRate (fget (F.CAN_DBT_BRP n) d) (fget (F.CAN_DBT_TSEG1 n) d) (fget (F.CAN_DBT_TSEG2 n) d)
  decide (50000 * b ≤ a ∧ a ≤ 1000000 * b ∧ 500000 * e ≤ c ∧ c ≤ 8000000 * e ∧ a * e ≤ c * b
    ∧ fget (F.CAN_NBT_SJW n) d ≤ fget (F.CAN_NBT_TSEG2 n) d ∧ fget (F.CAN_DBT_SJW n) d ≤ fget (F.CAN_DBT_TSEG2 n) d)
    && (flag (F.CAN_DBT_TDC_EN n) d || decide (c ≤ 1000000 * e))

def canOff (n : Nat) (d : Dev) : Bool := fget (F.CAN_CTRL_MODE n) d == 0

/-- A routing entry breaks R431. -/
def routeBad (e : Nat) (d : Dev) : Bool :=
  let kind := rtKind e d
  let ch := rtCh e d
  let edOff := !flag (F.NSM_EDST_EN (rtEd e d)) d
  kind == 3 || ch == 6 || decide (5 ≤ rtDest e d) || decide ((if rtIde e d then 29 else 11) < rtMbits e d)
    || (!rtIde e d && decide (2 ^ 11 ≤ rtId e d))
    || (kind == 1 && (decide (5 < ch) || canOff ch d || (rtDest e d == 1 && (fget (F.CAN_CFG_OWNER ch) d == 0 || decide (8 ≤ fget (F.CAN_CFG_OWNER ch) d)))
      || (rtDest e d == 2 && (rtGw e d == ch || decide (5 < rtGw e d) || canOff (rtGw e d) d)) || (rtDest e d == 3 && edOff)))
    || (kind == 2 && (if ch = 7 then edOff else (canOff ch d || (rtFdf e d && !flag (F.CAN_CTRL_FD_EN ch) d))))

/-- The routing entries that an image has written. -/
def rtWritten (l : List CfgEntry) : List Nat :=
  ((l.filter (fun e => decide (R.NSM_RT_0 0 ≤ regOf e.addr ∧ regOf e.addr < R.NSM_RT_0 0 + 0x8000))).map
    (fun e => (regOf e.addr - R.NSM_RT_0 0) / 8)).eraseDups

def routeRegs (e : Nat) : List Nat := [R.NSM_RT_0 e, R.NSM_RT_1 e]

/-- 0x002C: CAN channels and the routing table (R431). -/
def badCan (l : List CfgEntry) (d : Dev) : List (List Nat) :=
  let es := (rtWritten l).filter (fun e => (regGet d (R.NSM_RT_1 e)) != 0 || (regGet d (R.NSM_RT_0 e)) != 0)
  let tx := es.filter (fun e => rtKind e d == 2)
  let twins := tx.filter (fun e => tx.any (fun f => f != e && rtOwner f d != rtOwner e d && rtId f d == rtId e d
    && rtIde f d == rtIde e d && rtCh f d == rtCh e d))
  let x := fget F.ACQ_EXC_ROUTE_ROUTE d
  let len := fget F.ACQ_EXC_ROUTE_LEN d
  let lenOk := rtCh x d == 7 || (if rtFdf x d then fdLength len == len else decide (len ≤ 8))
  ((below 6 (fun n => !canTimingOk n d)).map (fun n => [(F.CAN_NBT_BRP n).reg, (F.CAN_DBT_BRP n).reg]))
    ++ (es.filter (fun e => routeBad e d)).map routeRegs ++ twins.map routeRegs
    ++ (if rtKind x d = 2 ∧ rtOwner x d = 0 ∧ lenOk = true then [] else [F.ACQ_EXC_ROUTE_ROUTE.reg :: routeRegs x])
    ++ (if 0x7FF < fget F.NSM_NM_BASE d + 63 then [[F.NSM_NM_BASE.reg]] else [])
    ++ (if (List.range 6).any (fun n => fbit F.NSM_CTRL_CHANNELS n d && canOff n d) then [[F.NSM_CTRL_CHANNELS.reg]] else [])

/-! ### The checks in order -/

/-- The offset that a failure reports: that of the lowest entry that wrote one of its registers, 0 when none did. -/
def entryOfs (l : List CfgEntry) (regs : List Nat) : Nat :=
  let last (r : Nat) : Option Nat := ((l.filter (fun e => regOf e.addr == r)).getLast?).map (·.ofs)
  ((regs.filterMap last).min?).getD 0

def leastOfs (l : List Nat) : Option Nat := l.min?

/-- The first of some checks that fails: its code and offset. -/
def firstBad : List (Nat × Option Nat) → Option (Nat × Nat)
  | [] => none
  | (c, some o) :: _ => some (c, o)
  | (_, none) :: t => firstBad t

/-- 0x0002: lengths. -/
def badLengths (img : List Byte) (stored : Nat) : Option Nat :=
  let total := field img 8 4
  if field img 6 2 ≠ hdrLen img then some 6
  else if total < hdrLen img + dirLen img + 4 + (if imgFormat img = 1 then 0 else 4) ∨ 1048576 < total ∨ total ≠ stored then some 8
  else if imgCount img < 1 ∨ 64 < imgCount img then some 20
  else none

/-- A directory entry breaks R372, or names an unknown or repeated type; `before` are the entries ahead of it. Sections of a format-1
image are placed anew by its conversion, so their alignment and overlap do not count (notes/assumptions/52.md). -/
def entryBad (img : List Byte) (before : List Sect) (s : Sect) : Bool :=
  let first := hdrLen img + dirLen img * imgCount img
  let two := imgFormat img != 1
  s.flags != 0 || (two && s.ofs % 8 != 0) || s.len % 8 != 0 || decide (s.ofs < first ∨ img.length < s.ofs + s.len + 4)
    || !typeKnown (imgFormat img) s.typ
    || (two && before.any (fun b => decide (b.ofs < s.ofs + s.len ∧ s.ofs < b.ofs + b.len)))
    || (s.typ != 0x10 && before.any (fun b => b.typ == s.typ))

def badDirectory (img : List Byte) : List Nat :=
  let ss := sections img
  ((List.range ss.length).zip ss).filterMap (fun e => if entryBad img (ss.take e.1) e.2 then some e.2.dir else none)

/-- Checks 0x0001 to 0x0006; `crc` is the parameter of a commit. -/
def checkForm (img : List Byte) (stored : Nat) (crc : Option Nat) : Option (Nat × Nat) :=
  if img.length < 24 ∨ field img 0 4 ≠ 0x46435A47 then some (1, 0)
  else if imgFormat img ≠ 1 ∧ imgFormat img ≠ 2 then some (1, 4)
  else match badLengths img stored with
    | some o => some (2, o)
    | none =>
      if crc32c (img.take (img.length - 4)) ≠ imgCrc img then some (3, img.length - 4)
      else if crc.any (· != imgCrc img) then some (4, img.length - 4)
      else firstBad [(5, leastOfs (badDirectory img)),
        (6, leastOfs ((sections img).filterMap (fun s => if s.crc.any (· != crc32c (sectBytes img s)) then some s.ofs else none)))]

/-- Checks 0x0010 to 0x002D on an image of right form. -/
def checkMeaning (img : List Byte) : Option (Nat × Nat) :=
  let l := allEntries img
  let bad (p : CfgEntry → Bool) : Option Nat := leastOfs ((l.filter p).map (·.ofs))
  let dv := entriesApply l {}
  let sem (rs : List (List Nat)) : Option Nat := leastOfs (rs.map (entryOfs l))
  match firstBad [(0x10, bad (fun e => !addrOk e)), (0x11, bad (fun e => !writable (regOf e.addr))),
      (0x12, bad (fun e => (e.value &&& (2 ^ 32 - 1 - entryMask (regOf e.addr))) != 0)), (0x13, bad (fun e => !entryInRange e)),
      (0x14, leastOfs (dataBad img dv))] with
  | some x => some x
  | none =>
    let used := usedSets dv
    firstBad [(0x20, if field img 16 2 = 0 ∨ 1023 < field img 16 2 then some 16 else none),
      (0x21, sem (badStrings dv)), (0x22, sem (badWindows dv)), (0x23, sem (badScan dv)), (0x24, sem (badTiming dv)),
      (0x25, sem (badExcitation dv)),
      (0x26, leastOfs ((badSets img l dv).map (entryOfs l)
        ++ (chemSets img).filterMap (fun (k, bs, o) => if used.contains k && !chemFits bs then some o else none))),
      (0x27, sem (badRoles dv)), (0x28, sem (badLoads dv)), (0x29, sem (badTenants dv)),
      (0x2A, leastOfs (badPair img dv ++ (badMonitors dv).map (entryOfs l))), (0x2B, leastOfs (badBoots img dv)), (0x2C, sem (badCan l dv))]

/-- The checks of R376 on an image of `stored` bytes: the code and offset of the first that fails. -/
def checkImage (img : List Byte) (stored : Nat) (crc : Option Nat) : Option (Nat × Nat) :=
  match checkForm img stored crc with
  | some x => some x
  | none => checkMeaning img

/-! ### Slots (R369, R370) -/

def slotBase (s : Nat) : Nat := flashBase + 0x3DE0000 + s * 0x110000

def slotField (m : List Host.Cell) (s i n : Nat) : Nat := leNat (memRead m (slotBase s + 0x100000 + i) n)

def slotHasRecord (m : List Host.Cell) (s : Nat) : Bool := slotField m s 0 4 == 0x53435A47

def slotRecOk (m : List Host.Cell) (s : Nat) : Bool :=
  slotHasRecord m s && crc32c (memRead m (slotBase s + 0x100000) 28) == slotField m s 28 4

def slotSeq (m : List Host.Cell) (s : Nat) : Nat := slotField m s 4 4

/-- The image of a slot, as long as its record says. -/
def slotImage (m : List Host.Cell) (s : Nat) : List Byte := memRead m (slotBase s) (min (slotField m s 8 4) 0x100000)

/-- The slot has a right record, and its image the length and CRC that the record states. -/
def slotValid (m : List Host.Cell) (s : Nat) : Bool :=
  slotRecOk m s &&
    (let img := slotImage m s
     decide (16 ≤ img.length) && img.length == slotField m s 8 4 && field img 8 4 == slotField m s 8 4 && imgCrc img == slotField m s 12 4
       && crc32c (img.take (img.length - 4)) == imgCrc img)

/-- The newest valid slot; slot 0 when both are and their SLOT_SEQ are equal. -/
def newestSlot (m : List Host.Cell) : Option Nat :=
  match slotValid m 0, slotValid m 1 with
  | true, true => some (if seqHigher (slotSeq m 1) (slotSeq m 0) then 1 else 0)
  | true, false => some 0
  | false, true => some 1
  | false, false => none

end Sys2Proof.Machine
end

