-- ==== Sys2Proof/Machine/Boot.lean ====
section
/-!
DEFINITION. Machine/Boot.lean: from the release of reset to DISARMED or configuration hold (R366 to R368, R501), the application of an
image (R377 to R379), loading and committing one (R380 to R382), the customer area at boot (R497), and the return of TL0 (R384).
-/

namespace Sys2Proof.Machine

/-- The management engine's attribute byte on register accesses: secure world, M-mode, TL0. -/
def engAttr : Nat := attrOf true 0 3 false true

/-- A register written by the management engine. -/
def engWrite (a w : Nat) (m : List Host.Cell) (d : Dev) : Dev := regWrite 0 engAttr a w m d

/-! ### An image made ready (R376, R383) -/

/-- The image in format 2, or the check that fails. A converted image that is too long fails the check of TOTAL. -/
def imageReady (img : List Byte) (stored : Nat) (crc : Option Nat) : Except (Nat × Nat) (List Byte) :=
  match checkImage img stored crc with
  | some x => .error x
  | none =>
    if imgFormat img = 1 then
      let c := convert img
      if 1048576 < c.length then .error (2, 8) else .ok c
    else .ok img

/-- CONFIG_CONVERTED, where the image came in format 1. -/
def convertedTold (img out : List Byte) (d : Dev) : Dev :=
  if imgFormat img = 1 then recordC 0x0F06 (imgCrc img) (imgCrc out) (fput F.CFG_STATUS_CONVERTED true d)
  else fput F.CFG_STATUS_CONVERTED false d

/-! ### Applying (R377, R379) -/

/-- Register entries applied in order. -/
def applyEntries (l : List CfgEntry) (m : List Host.Cell) (d : Dev) : Dev := each l (fun e => engWrite (regOf e.addr) e.value m) d

/-- The chemistry sets into the store. -/
def applyChem (img : List Byte) (m : List Host.Cell) (d : Dev) : List Host.Cell × Dev :=
  (chemSets img).foldl (fun (md : List Host.Cell × Dev) e =>
    (memPlace (chemAt e.1) e.2.1 (memErase (chemAt e.1) 0x20000 md.1), fbitPut F.EST_CHEM_VALID e.1 true md.2)) (m, d)

/-- The LOCK field of every block that has one. -/
def lockAll (d : Dev) : Dev :=
  each (List.range 29) (fun i d =>
    match lockField i with
    | some f => fput f true d
    | none => d) d

/-- What the image says of the zone, the pair, the satellites and the trestles. -/
def applyRest (img : List Byte) (d : Dev) : Dev :=
  let uids := (satUids img).foldl (fun t e => tabSet (fun _ => 0) t (64 * e.1 + e.2.1) e.2.2.1) []
  { d with kzc := { d.kzc with uids }, cfg := { zoneNo := field img 16 2, boots := (bootDescs img).map (·.1) }
           pair := { d.pair with mode := field img 18 1, prefers := field img 19 1 == 1 } }

/-- CFG's registers for the image applied. -/
def applyShow (slot : Nat) (img : List Byte) (d : Dev) : Dev :=
  let d := fset F.CFG_STATUS_SLOT slot (fset F.CFG_STATUS_STATE 2 d)
  fset F.CFG_GEN_GEN (field img 12 4) (fset F.CFG_CRC_CRC (imgCrc img) d)

/-- The outputs, with which the engine goes to DISARMED: PROT started, the store initialised, the bench enabled. -/
def applyStart (img : List Byte) (slot : Nat) (m : List Host.Cell) (d : Dev) : List Host.Cell × Dev :=
  let d := outputsApply (protStart d)
  let m := storeInit d m
  let d := estEnable true d
  let d := record 0x0F01 slot (imgCrc img) (field img 12 4) d
  let d := zoneTo 1 d
  -- R206: a SAFE_N that is low now takes the zone to SAFE at once
  let d := if flag F.PROT_STATUS_SAFE_N d then d else zoneSafe d
  (m, if d.pair.mode = 0 then d else roleTo 1 d)

/-- A checked image applied from slot `slot`. -/
def configApply (slot : Nat) (img : List Byte) (m : List Host.Cell) (d : Dev) : List Host.Cell × Dev :=
  let d := applyEntries (allEntries img) m d
  let (m, d) := applyChem img m d
  applyStart img slot m (engineSlots (stringsAgain (lockAll (applyShow slot img (applyRest img d)))))

/-- Configuration hold (R378, R379): `img` is the image of the slot that failed check `chk`, at `ofs`. -/
def configHold (cause chk ofs slot : Nat) (img : List Byte) (m : List Host.Cell) (d : Dev) : Dev :=
  let entered := fget F.CFG_STATUS_STATE d != 1
  let d := fset F.CFG_STATUS_CHECK chk (fset F.CFG_STATUS_HOLD_CAUSE cause (fset F.CFG_STATUS_STATE 1 d))
  let d := fset F.CFG_OFS_OFS ofs d
  let d := if cause = 2 ∧ 0x10 ≤ chk then fput F.CFG_STATUS_NET_ONLY true (applyEntries (entriesOf img 7) m d) else d
  if entered then recordC 0x0F02 cause (chk + slot * 2 ^ 16) d else d

/-- The slots as the engine finds them at boot: CFG_SEQ, and the records of bad ones. -/
def slotsShow (m : List Host.Cell) (d : Dev) : Dev :=
  let d := fset F.CFG_SEQ_0_SEQ (if slotValid m 0 then slotSeq m 0 else 0) d
  let d := fset F.CFG_SEQ_1_SEQ (if slotValid m 1 then slotSeq m 1 else 0) d
  each ((List.range 2).filter (fun s => slotHasRecord m s && !slotValid m s)) (fun s =>
    recordC 0x0F03 s (b2n (slotRecOk m s))) d

/-- TL1 to TL4 with a boot descriptor start, unless the customer area cannot be used (R366, R497). -/
def bootsStart (ok : Bool) (d : Dev) : Dev :=
  if ok then each ((bootTrestles d).filter (fun t => tlState t d == 1)) ctrlRestart d else d

/-- Steps 6 to 8 of R366. -/
def configSelect (custOk : Bool) (m : List Host.Cell) (d : Dev) : List Host.Cell × Dev :=
  let d := slotsShow m d
  match newestSlot m with
  | none => (m, configHold (b2n (slotHasRecord m 0 || slotHasRecord m 1)) 0 0 0 [] m d)
  | some s =>
    let img := slotImage m s
    match imageReady img img.length none with
    | .error (c, o) => (m, configHold 2 c o s img m d)
    | .ok out =>
      let (m, d) := configApply s out m (convertedTold img out d)
      withMonitor (bootsStart custOk) m d

/-! ### Banks (R501, R502) -/

/-- A record of the boot ROM or the boot loader: its code and two parameters, made when the sideboard can take it. -/
structure BootNote where
  code : Nat
  p1 : Nat
  p2 : Nat
deriving DecidableEq, Repr

/-- A bank that the boot ROM may try: confirmed, or on trial with a try left. -/
def bankCand (m : List Host.Cell) (b : Nat) : Bool :=
  dirOk m b && (bankState m b == 2 || (bankState m b == 1 && bankTries m b % 4 != 0))

/-- The candidates, highest BANK_SEQ first. -/
def bankCands (m : List Host.Cell) : List Nat :=
  (if seqHigher (bankSeq m 1) (bankSeq m 0) then [1, 0] else [0, 1]).filter (bankCand m)

/-- A trial boot takes a try, before any check. -/
def bankTry (b : Nat) (m : List Host.Cell) : List Host.Cell × List BootNote :=
  if bankState m b = 1 then
    let n := bankTries m b
    let n := n &&& (n - 1)
    (memPut (bankBase b + 9) (BitVec.ofNat 8 n) m, [⟨0x0E06, b, 2 - onesIn n 2⟩])
  else (m, [])

/-- The first candidate whose BOOT image passes. -/
def bankPick (d : Dev) : List Nat → List Host.Cell → List BootNote → Option Nat × List Host.Cell × List BootNote
  | [], m, ns => (none, m, ns)
  | b :: t, m, ns =>
    let (m, new) := bankTry b m
    match bootCheck m b 0 d with
    | none => (some b, m, ns ++ new)
    | some r => bankPick d t m (ns ++ new ++ [⟨0x0E08, b, r⟩])

/-- The trestles tested at the release of reset; `rs` are their results, pass where the list ends. True when TL0 has passed. -/
def trestlesTest (rs : List TestResult) (d : Dev) : Bool × Dev :=
  let d := each (List.range 5) (fun t d => testDone t (rs[t]?.getD .pass) (tlTest t 0 d)) d
  if tlState 0 d = 3 then (true, d) else (false, each [1, 2, 3, 4] (fun t => tlStatePut t 0) d)

/-- The boot ROM and the boot loader: a bank is chosen, its other classes checked, and a device reset made where one fails; `n` bounds
the resets. -/
def bankBoot : Nat → List Host.Cell → Dev → List BootNote → Option Nat × List Host.Cell × Dev × List BootNote
  | 0, m, d, ns => (none, m, d, ns)
  | n + 1, m, d, ns =>
    match bankPick d (bankCands m) m ns with
    | (none, m, ns) => (none, m, d, ns)
    | (some b, m, ns) =>
      if [1, 2, 3, 4].all (fun c => (bootCheck m b c d).isNone) then (some b, m, d, ns)
      else
        let m := if bankState m b = 2 then bankMark b 0x1F m else m
        let d := cabLoad (trestlesTest [] (deviceReset 4 d)).2
        bankBoot n m d (ns ++ [⟨0x0E08, b, 2⟩])

/-- Banks passed over because their tries are used up (R501): on trial, with a higher BANK_SEQ than the bank booted. -/
def bankSpent (booted : Option Nat) (m : List Host.Cell) (ns : List BootNote) : List BootNote :=
  ((List.range 2).filter (fun o => booted != some o && dirOk m o && bankState m o == 1 && bankTries m o % 4 == 0
    && (match booted with
      | some b => seqHigher (bankSeq m o) (bankSeq m b)
      | none => true)
    && ns.all (fun x => !(x.code == 0x0E08 && x.p1 == o)))).map (fun o => ⟨0x0E08, o, 0⟩)

def notesTold (ns : List BootNote) (d : Dev) : Dev := each ns (fun x => recordC x.code x.p1 x.p2) d

/-- The bank in use, in SYS and UPD. -/
def bankUse (b : Nat) (ns : List BootNote) (m : List Host.Cell) (d : Dev) : Dev :=
  let fell := ns.any (fun x => x.code == 0x0E08 && x.p1 != b)
  let d := fput F.SYS_BOOT_FALLBACK fell (fset F.SYS_BOOT_BANK b d)
  let d := fput F.UPD_STATUS_TRIAL (bankState m b == 1) (fset F.UPD_STATUS_BANK b d)
  let d := fset F.UPD_BANK_SEQ_SEQ (bankSeq m b) d
  -- R188: the microcode of the bank is the one in use
  let d := fset F.EST_UCODE_VERSION (entryField m b 3 16 4) d
  each (List.range 5) (fun c => fset (F.UPD_VER_VER c) (entryField m b c 16 4)) d

/-- ROM recovery (R367): TL0 alone runs. -/
def romRecovery (ns : List BootNote) (m : List Host.Cell) (d : Dev) : Dev :=
  let building := (List.range 2).any (fun b => dirOk m b && bankState m b == 0)
  let d := each [1, 2, 3, 4] (fun t => tlStatePut t 0) (updPut { d.upd with rom := true } d)
  recordC 0x0103 (b2n building) 0 (notesTold ns d)

/-! ### The customer area at boot (R497) -/

/-- A staged customer result completed, and the area checked. True when trestles may start from it. -/
def customerBoot (m : List Host.Cell) (d : Dev) : Bool × List Host.Cell × Dev :=
  let (m, d) := match d.upd.staged with
    | some h =>
      let img := memRead m (stageBlock 0) (min (field h 24 4) (classLimit 6))
      let m := memPlace (custBase + 0x1000) img (memPlace custBase h (memErase custBase 0x1000000 m))
      (m, recordC 0x0E0C (field h 12 4) 1 (updPut { d.upd with staged := none, cust := 2 } d))
    | none => (m, d)
  let h := memRead m custBase 320
  let img := memRead m (custBase + 0x1000) (min (field h 24 4) (classLimit 6))
  if d.upd.cust ≠ 2 then (false, m, recordC 0x0E0D 0 0 d)
  else if crc32c img ≠ field h 32 4 then (false, m, recordC 0x0E0D 1 0 d)
  else (true, m, fset (F.UPD_VER_VER 6) (field h 12 4) (fput F.UPD_STATUS_CUST_VALID true d))

/-! ### The engine's start (R366, step 5) -/

/-- What the engine records of a sleep that ended with this reset (R356, R458, R463, R65). -/
def pastTold (d : Dev) : Dev :=
  match d.pwr.past with
  | none => d
  | some p =>
    let d := each p.sessions (fun k => recordC 0x0902 (k % 32 / 4 + k % 4 * 8) 3) d
    let d := recordC 0x0C04 p.state p.seconds d
    let d := each p.clocks (fun c d => recordC 0x0C05 c (fget F.PWR_CAL_ENTRY_F d) d) d
    record 0x020E p.oldCycle p.newCycle p.seconds (pwrPut { d.pwr with past := none } d)

/-- BOOT, WAKE and the acknowledgement of the wake sources. -/
def engineOpens (d : Dev) : Dev :=
  let d := recordC 0x0101 (fget F.SYS_RST_CAUSE_CAUSE d) (fget F.SYS_BOOT_BANK d + 2 * fget F.SYS_BOOT_FALLBACK d) d
  let more := onesIn (fget F.SYS_WAKE_MASK_LO_MASK d) 32 + onesIn (fget F.SYS_WAKE_MASK_HI_MASK d) 16
    + fget F.SYS_WAKE_MASK_HI_TWP d
  let d := recordC 0x0102 (fget F.SYS_WAKE_KIND d) (fget F.SYS_WAKE_SRC d + more * 256) d
  let d := pastTold (wakeAck d)
  let x := fget F.NSM_XWAKE_CH d
  if x = 0 then d else recordC 0x0B24 x 0 d

/-- The engine starts: the records, then the configuration. -/
def engineStart (m : List Host.Cell) (d : Dev) : List Host.Cell × Dev :=
  let (ok, m, d) := customerBoot m (engineOpens d)
  configSelect ok m d

/-- BOOT: `rs` are the results of the comparator tests, `slotB` the level of PAIR_SLOT at the release of reset (R22). -/
def boot (rs : List TestResult) (slotB : Bool) (m : List Host.Cell) (d : Dev) : List Host.Cell × Dev :=
  if d.pwr.down || d.pwr.booted || d.pwr.target != 0 then (m, d)
  else
    let d := { d with pwr := { d.pwr with booted := true }, pair := { d.pair with slotB } }
    match trestlesTest rs d with
    | (false, d) => (m, d)
    | (true, d) =>
      let (b, m, d, ns) := bankBoot 8 m (cabLoad d) []
      let d := { d with pwr := { d.pwr with booted := true }, pair := { d.pair with slotB } }
      let ns := ns ++ bankSpent b m ns
      match b with
      | none => (m, romRecovery ns m d)
      | some b => engineStart m (notesTold ns (bankUse b ns m d))

/-! ### Loading and committing (R349, R380 to R382) -/

/-- The staging area's address. -/
def cfgStage (d : Dev) : Nat := fget F.CFG_STAGE_BASE_BASE d * 256

/-- CONFIG_LOAD: data added to, or a staging image started. -/
def configLoad (total ofs : Nat) (data : List Byte) (m : List Host.Cell) (d : Dev) : Nat × List Host.Cell × Dev :=
  let fresh := ofs == 0
  let size := if fresh then total else fget F.CFG_STAGE_TOTAL_TOTAL d
  if total = 0 ∨ 1048576 < total ∨ size < ofs + data.length ∨ (!fresh ∧ ofs ≠ fget F.CFG_STAGE_LEN_RECEIVED d) then (stParam, m, d)
  else
    let d := fset F.CFG_STAGE_LEN_RECEIVED (ofs + data.length) (fset F.CFG_STAGE_TOTAL_TOTAL size d)
    (stOk, memWrite (cfgStage d + ofs) data m, badCovered (cfgStage d + ofs) data.length d)

/-- What a commit has decided: its status, CHECK and SECTION_OFS, the slot, and the image in format 2. -/
structure CommitPlan where
  status : Nat
  check : Nat := 0
  ofs : Nat := 0
  slot : Nat := 0
  img : List Byte := []
deriving DecidableEq, Repr

/-- Steps 1 and 2 of R381. -/
def commitPlan (crc slot : Nat) (m : List Host.Cell) (d : Dev) : CommitPlan :=
  let total := fget F.CFG_STAGE_TOTAL_TOTAL d
  let img := memRead m (cfgStage d) total
  if total = 0 ∨ fget F.CFG_STAGE_LEN_RECEIVED d ≠ total then { status := stCfgPart }
  else match imageReady img total (some crc) with
    | .error (c, o) => { status := stCfgBad, check := c, ofs := o, slot }
    | .ok out =>
      let newest := newestSlot m
      let pick := if slot = 0xFF then (match newest with
        | some s => 1 - s
        | none => 0) else slot
      if newest = some pick then { status := stParam } else { status := stOk, slot := pick, img := out }

/-- A slot written (R369): its number, the image and SLOT_SEQ. -/
def slotWriteImage (s seq : Nat) (img : List Byte) (m : List Host.Cell) : List Host.Cell :=
  let r := leBytes 4 0x53435A47 ++ leBytes 4 seq ++ leBytes 4 img.length ++ leBytes 4 (imgCrc img) ++ List.replicate 12 0
  memPlace (slotBase s + 0x100000) (r ++ leBytes 4 (crc32c r)) (memPlace (slotBase s) img (memErase (slotBase s) 0x110000 m))

/-- A slot whose write has failed: it has no record, and what its image area holds is free, since R382 does not say how far the write came.
DESIGN CHOICE (notes/assumptions/85.md): the record area reads erased, and the other slot stands. -/
def slotSpoil (s : Nat) (m : List Host.Cell) (d : Dev) : List Host.Cell × Dev :=
  (memPlace (slotBase s) ((List.range 0x100000).map (fun i => Config.freeByte (d.free + i))) (memErase (slotBase s) 0x110000 m),
    { d with free := d.free + 0x100000 })

/-- Steps 4 and 5 of R381; `bad`, the flash offset of an operation that fails (R382). -/
def commitEffect (p : CommitPlan) (bad : Option Nat) (m : List Host.Cell) (d : Dev) : List Host.Cell × Dev :=
  let seq := match newestSlot m with
    | some s => (slotSeq m s + 1) % 2 ^ 32
    | none => 1
  match bad with
  | some o =>
    let d := fset (if p.slot = 0 then F.CFG_SEQ_0_SEQ else F.CFG_SEQ_1_SEQ) 0 (fput F.CFG_STATUS_WRITE_FAIL true d)
    slotSpoil p.slot m (recordC 0x0F05 p.slot o d)
  | none => (slotWriteImage p.slot seq p.img m, deviceReset 5 (recordC 0x0F04 p.slot seq d))

/-- PARAM_RELOADED (R177): chemistry set `k` from the slot applied. -/
def paramReloaded (k : Nat) (m : List Host.Cell) (d : Dev) : List Host.Cell × Dev :=
  if !fbit F.EST_CHEM_BAD k d then (m, d)
  else
    let img := slotImage m (fget F.CFG_STATUS_SLOT d)
    match (chemSets img).find? (fun e => e.1 == k) with
    | none => (m, d)
    | some e =>
      let d := record 0x0407 k (tabGet (fun _ => 0) d.est.badFrames k) (frameNow d) (fbitPut F.EST_CHEM_BAD k false d)
      let d := { d with est := { d.est with badFrames := tabSet (fun _ => 0) d.est.badFrames k 0 } }
      (memPlace (chemAt k) e.2.1 (memErase (chemAt k) 0x20000 m), d)

def execParamReloaded (k : Fin 8) (s : State) : Host.Outcome State Fault Refusal := onBlkBoth 5 (paramReloaded k.val) s

/-! ### The return of TL0 (R384) -/

/-- The CRCs of the bank that the boot ROM and the boot loader check at a restart of TL0. -/
def bankCrcs (m : List Host.Cell) (d : Dev) : Bool :=
  let b := fget F.UPD_STATUS_BANK d
  (List.range 5).all (fun c => crc32c (bankImage m b c) == entryField m b c 12 4)

/-- In ENGINE_HOLD: the CRC written to PROT_RECONF_CRC, and RECONF. A slot that carries PROT_ARM_CRC and fails a check of its form
leaves the hold to expire. -/
def reconfirm (m : List Host.Cell) (d : Dev) : Dev :=
  let arm := fget F.PROT_ARM_CRC_CRC d
  let crcOf (s : Nat) : Nat := slotField m s 12 4
  match (List.range 2).find? (fun s => slotValid m s && crcOf s == arm) with
  | some s =>
    if (checkForm (slotImage m s) (slotImage m s).length none).isSome then d
    else reconf (fset F.PROT_RECONF_CRC_CRC arm d)
  | none =>
    match newestSlot m with
    | some s => reconf (fset F.PROT_RECONF_CRC_CRC (crcOf s) d)
    | none => d

/-- The management engine starts again on a TL0 that has returned to RUN. -/
def engineReturn (m : List Host.Cell) (d : Dev) : List Host.Cell × Dev :=
  if d.upd.rom || !d.pwr.booted then (m, d)
  else if !bankCrcs m d then (m, deviceReset 4 d)
  else if zone d = 0 then engineStart m d
  else if zone d = 6 then (m, reconfirm m d)
  else (m, d)

end Sys2Proof.Machine
end

