-- ==== Sys2Proof/Machine/AixWork.lean ====
section
/-!
DEFINITION. Machine/AixWork.lean: what the standard opcodes of the engine queue do (R347 to R359): the checks of their payloads
and of the zone state, their effects and their replies.
-/

namespace Sys2Proof.Machine

/-- What an opcode comes to: its status and the payloads of its reply, or none while it waits for an event; the memories, the device. -/
abbrev OpOut := Option (Nat × List (List Byte)) × List Host.Cell × Dev

/-- A reply of one packet. -/
def opOk (payload : List Byte) (m : List Host.Cell) (d : Dev) : OpOut := (some (stOk, [payload]), m, d)

/-- A reply with a status alone. -/
def opNo (st : Nat) (m : List Host.Cell) (d : Dev) : OpOut := (some (st, []), m, d)

/-! ### Checks (R346, R347) -/

/-- The payload lengths of a request, lowest and highest. -/
def lenRange : Nat → Nat × Nat
  | 0x0001 => (12, 12)
  | 0x0003 => (0, 64)
  | 0x0005 => (2, 2)
  | 0x0101 => (9, 1432)
  | 0x0102 => (8, 8)
  | 0x0103 => (10, 10)
  | 0x0104 => (4, 4)
  | 0x0203 => (2, 2)
  | 0x0205 => (4, 4)
  | 0x0301 => (6, 6)
  | 0x0302 => (2, 2)
  | 0x0303 => (8, 8)
  | 0x0304 => (1, 1)
  | 0x0305 => (8, 8)
  | 0x0401 => (6, 6)
  | 0x0501 => (68, 1028)
  | 0x0502 => (12, 1428)
  | 0x0503 => (1, 1)
  | 0x0601 => (1, 1)
  | 0x0602 => (1, 1)
  | 0x0701 => (8, 8)
  | 0x0702 => (12, 264)
  | 0x0703 => (6, 6)
  | 0x0704 => (7, 7)
  | 0x0705 => (2, 2)
  | 0x0801 => (8, 8)
  | 0x0803 => (5, 68)
  | _ => (0, 0)

/-- Position `p` of chain `n` is one that the chain can have. -/
def posOk (n p : Nat) : Bool := decide (n < 16 ∧ p < 48)

/-- The fields of a request are in range (check 6 of R346). -/
def fieldsOk (q : AixReq) (d : Dev) : Bool :=
  let p := q.payload
  let u8 (i : Nat) : Nat := field p i 1
  match q.opcode with
  | 0x0101 => decide (1 ≤ field p 0 4 ∧ field p 0 4 ≤ 1048576)
  | 0x0102 => u8 4 == 0 || u8 4 == 1 || u8 4 == 0xFF
  | 0x0103 => decide (u8 0 ≤ 2 ∧ 1 ≤ field p 8 2 ∧ field p 8 2 ≤ 1424)
  | 0x0104 => decide (u8 0 ≤ 1)
  | 0x0203 => decide (1 ≤ u8 1 ∧ u8 1 ≤ 3) && (stringsOn d).contains (u8 0)
  | 0x0205 => decide (u8 0 < 48 ∧ u8 1 ≤ 3 ∧ (u8 0 < 32 ∨ u8 1 ≤ 1))
  | 0x0301 => decide (u8 0 < 16 ∧ 1 ≤ field p 4 2 ∧ field p 2 2 + field p 4 2 ≤ 1536)
  | 0x0302 => posOk (u8 0) (u8 1) && (positionsOf (u8 0) d).contains (u8 1)
  | 0x0305 => posOk (u8 0) (u8 1)
  | 0x0401 => decide (1 ≤ field p 4 2 ∧ field p 4 2 ≤ 2816)
  | 0x0503 => decide (u8 0 ≤ 1)
  | 0x0601 => decide (1 ≤ u8 0 ∧ u8 0 ≤ 4)
  | 0x0602 => decide (u8 0 ≤ 3)
  | 0x0701 => field p 0 5 % 4 == 0 && decide (1 ≤ field p 6 2 ∧ field p 6 2 ≤ if q.via = 2 then 60 else 64)
  | 0x0702 => field p 0 5 % 4 == 0 && decide (1 ≤ field p 6 2 ∧ field p 6 2 ≤ 64) && p.length == 8 + 4 * field p 6 2
  | 0x0703 => posOk (u8 0) (u8 1) && decide (1 ≤ u8 5 ∧ u8 5 ≤ 32 ∧ field p 2 3 + u8 5 ≤ 0x20000)
  | 0x0704 => posOk (u8 0) (u8 1) && decide (field p 2 3 < 0x20000)
  | 0x0705 => decide (1 ≤ u8 0 ∧ u8 0 ≤ 7 ∧ 1 ≤ u8 1 ∧ u8 1 ≤ 2) && flag (F.WLD_TEN_CFG_EN (u8 0)) d
  | 0x0801 =>
    decide ((u8 2 = 3 ∨ u8 2 = 4) ∧ field p 4 2 ≠ 0 ∧ u8 1 < 64)
      && (List.range 6).all (fun n => !(u8 1).testBit n || canMode n d != 0)
  | 0x0803 => decide (field p 0 2 < 4096 ∧ 1 ≤ u8 2 ∧ p.length = 4 + u8 2) && rtKind (field p 0 2) d == 2
  | _ => true

/-- The opcodes that need a committed configuration (R346). -/
def needsConfig (code : Nat) : Bool :=
  (code / 256 == 2 && code != 0x0206)
    || [0x0301, 0x0302, 0x0303, 0x0304, 0x0305, 0x0703, 0x0704, 0x0104, 0x0801, 0x0803].contains code

/-- The opcodes that CONFIG_HOLD and DISARMED alone permit. -/
def needsQuiet (code : Nat) : Bool := [0x0102, 0x0601, 0x0702, 0x0704].contains code

/-- The opcodes executed in ROM recovery (R367). -/
def romRuns (code : Nat) : Bool := opFast code || [0x0501, 0x0502, 0x0503, 0x0504].contains code

/-- Checks 6 and 7 of R346. -/
def workCheck (q : AixReq) (d : Dev) : Option Nat :=
  let (lo, hi) := lenRange q.opcode
  if q.payload.length < lo ∨ hi < q.payload.length ∨ fieldsOk q d = false then some stParam
  else if d.upd.rom && !romRuns q.opcode then some stState
  else if zone d == 0 && needsConfig q.opcode then some stState
  else if zone d != 0 && zone d != 1 && needsQuiet q.opcode then some stState
  else none

/-! ### Session class (R348) -/

/-- PING. -/
def opPing (p : List Byte) (d : Dev) : List Byte := leBytes 6 (tsNow d) ++ [0, 0] ++ p

/-- A 48-bit mask of two registers. -/
def mask6 (lo hi : Fld) (d : Dev) : List Byte := leBytes 6 (mask48 lo hi d)

/-- STATUS. -/
def opStatus (d : Dev) : List Byte :=
  let flags := b2n (flag F.ANG_STATUS_QUALIFIED d) + 2 * b2n (devFault d) + 4 * b2n (flag F.REC_STATUS_FALLBACK d)
    + 8 * b2n (flag F.ANG_SCHED_DECIM d) + 16 * b2n (flag F.EST_STATUS_DOWN d)
  leBytes 1 (zone d) ++ leBytes 1 d.pair.role ++ leBytes 1 (angSrc d) ++ leBytes 1 flags ++ leBytes 6 (tsNow d)
    ++ leBytes 4 (fget F.EST_PUB_FRAME_FRAME d) ++ leBytes 4 (opTime d)
    ++ mask6 F.PROT_CLOSED_LO_CLOSED F.PROT_CLOSED_HI_CLOSED d ++ mask6 F.PROT_TRIP_LO_TRIP F.PROT_TRIP_HI_TRIP d
    ++ mask6 F.ACQ_UNMEAS_LO_UNMEAS F.ACQ_UNMEAS_HI_UNMEAS d ++ leBytes 4 (fget F.REC_NEWEST_SEQ d)
    ++ leBytes 1 (fget F.PWR_PL_CUR d) ++ [0, 0, 0]

/-! ### Configuration class (R349) -/

/-- CONFIG_LOAD. -/
def opConfigLoad (p : List Byte) (m : List Host.Cell) (d : Dev) : OpOut :=
  let (st, m, d) := configLoad (field p 0 4) (field p 4 4) (p.drop 8) m d
  if st = stOk then opOk (leBytes 4 (fget F.CFG_STAGE_LEN_RECEIVED d)) m d else opNo st m d

/-- The image that CONFIG_READ reads: a slot with a valid record, or what staging has received. -/
def readImage (slot : Nat) (m : List Host.Cell) (d : Dev) : List Byte :=
  if slot = 2 then memRead m (cfgStage d) (fget F.CFG_STAGE_LEN_RECEIVED d)
  else if slotValid m slot then slotImage m slot else []

/-- CONFIG_READ. -/
def opConfigRead (p : List Byte) (m : List Host.Cell) (d : Dev) : OpOut :=
  let img := readImage (field p 0 1) m d
  let ofs := field p 4 4
  let n := field p 8 2
  if img.length < ofs + n then opNo stParam m d else opOk ((img.drop ofs).take n) m d

/-- PAIR_ROLE (R27): both roles end and negotiation starts with the requested member preferred. -/
def opPairRole (p : List Byte) (m : List Host.Cell) (d : Dev) : OpOut :=
  if !paired d || zone d != 1 || !peerUp d then opNo stState m d
  else
    let d := pairPut { d.pair with prefers := field p 0 1 == 0, fromLone := false } d
    (none, m, roleMessage true (roleTo 2 d))

/-! ### Outputs class (R350) -/

/-- ARM. -/
def opArm (m : List Host.Cell) (d : Dev) : OpOut :=
  if armOk d then
    let d := protArm d
    opOk (leBytes 4 (fget F.PROT_ARM_CRC_CRC d)) m d
  else opNo stState m d

/-- DISARM. -/
def opDisarm (m : List Host.Cell) (d : Dev) : OpOut :=
  let d := protDisarm d
  opOk (leBytes 1 (zone d)) m d

/-- STRING_CMD. -/
def opString (p : List Byte) (m : List Host.Cell) (d : Dev) : OpOut :=
  let n := field p 0 1
  let done (d : Dev) : OpOut := opOk (leBytes 1 (seqState n d) ++ [0]) m d
  match field p 1 1 with
  | 1 => if closeOk n d then done (strClose n d) else opNo stState m d
  | 2 => done (strOpen n d)
  | _ => if clrOk n d then done (strClr n d) else opNo stState m (strClr n d)

/-- ZONE_CLEAR. -/
def opZoneClear (m : List Host.Cell) (d : Dev) : OpOut :=
  let ok := zclrOk d
  let d := zclr d
  if ok then opOk (leBytes 1 (zone d)) m d else opNo stState m d

/-- The owner of load channel `ch` (R311). -/
def lswOwner (ch : Nat) (d : Dev) : Nat := fget (F.WLD_LSW_OWN_OWN (ch / 8) (ch % 8)) d

/-- CHANNEL_CMD. A DUTY beyond the field of CH_PWM acts as the field's highest value. -/
def opChannel (q : AixReq) (m : List Host.Cell) (d : Dev) : OpOut :=
  let t := field q.payload 0 1
  let act := field q.payload 1 1
  if isBound t d || (q.drawer != 0 && (decide (32 ≤ t) || lswOwner t d != q.drawer)) then opNo stPermit m d
  else if t < 32 then
    if cut 7 d then opNo stState m d
    else
      let d := match act with
        | 0 => chCmdOn t false d
        | 1 => chCmdOn t true d
        | 2 => chPwmDuty t (min (field q.payload 2 2) 0x7FF) d
        | _ => chCmdClr t d
      opOk (leBytes 1 (chState t d) ++ [0]) m d
  else
    let d := lsoApply (t - 32) (fbitPut F.IOX_LSO_OUT_ON (t - 32) (act == 1) d)
    opOk (leBytes 1 (b2n (fbit F.IOX_LSO_STAT_STATE (t - 32) d)) ++ [0]) m d

/-- OUTPUT_STATUS. -/
def opOutputs (d : Dev) : List Byte :=
  leBytes 4 (regNow R.LSW_ON d) ++ leBytes 4 (regNow R.LSW_FAULT d) ++ leBytes 4 (regNow R.LSW_LATCHED d)
    ++ leBytes 4 (regNow R.LSW_SHED d) ++ leBytes 2 (fget F.IOX_LSO_STAT_STATE d) ++ leBytes 2 (fget F.IOX_LSO_STAT_FAULT d)
    ++ (List.range 48).map (fun n =>
      BitVec.ofNat 8 (seqState n d + 8 * b2n (flag (F.PROT_SEQ_QUEUED n) d) + 16 * b2n (tripLatch n d)))
    ++ leBytes 1 (zone d)

/-! ### Acquisition and estimation class (R351, R352) -/

/-- A list in parts of `n`; `k` bounds the parts. -/
def partsOf {α : Type} (n : Nat) : Nat → List α → List (List α)
  | 0, _ => []
  | k + 1, l => if l.isEmpty then [] else l.take n :: partsOf n k (l.drop n)

/-- The bad word that the copy of an EST_READ meets: in the header of the published bank, or in the records asked for. -/
def estReadBad (p : List Byte) (d : Dev) : Option (Nat × Byte) :=
  let bank := bankAt (fget F.EST_STATUS_PUB_BANK d) d
  badMeets bank 0x100 d <|> badMeets (bank + 0x100 + 0xC000 * field p 0 1 + 32 * field p 2 2) (32 * field p 4 2) d

/-- EST_READ: the records of the published bank, with the status of R184. A copy that meets a bad word is made again from the next
published set (R407). -/
def opEstRead (p : List Byte) (m : List Host.Cell) (d : Dev) : OpOut :=
  let n := field p 0 1
  let first := field p 2 2
  if d.est.coverage = [] then opNo stState m d
  else match estReadBad p d with
  | some (b, _) => (none, m, memError b (checkNow .good b 1 d) { d with aix := { d.aix with held := false } })
  | none =>
    let bank := bankAt (fget F.EST_STATUS_PUB_BANK d) d
    let head := memRead m bank 8 ++ memRead m (bank + 8 + 4 * n) 4 ++ memRead m (bank + 72 + 8 * n) 8
    let recs := (List.range (field p 4 2)).map (fun i => memRead m (bank + 0x100 + 0xC000 * n + 32 * (first + i)) 32)
    let stale := d.est.stale || maskBit d.pair.disagree n || !flag F.EST_CTRL_EN d
    let st := if stale then stStale else if recs.any (fun r => (field r 22 2).testBit 7) then stRecomputed else stOk
    let frags := ((partsOf 44 35 recs).zip (List.range 35)).map (fun e =>
      head ++ leBytes 2 (first + 44 * e.2) ++ leBytes 1 e.1.length ++ [0] ++ e.1.flatten)
    (some (st, frags), m, d)

/-- RECORD_READ: the latest records of a position as received; zeros where it has none. -/
def opRecordRead (p : List Byte) (m : List Host.Cell) (d : Dev) : OpOut :=
  let n := field p 0 1
  let k := field p 1 1
  let b := (posOf n k d).burst
  let part (i len : Nat) : List Byte := ((b.drop i).take len) ++ List.replicate (len - ((b.drop i).take len).length) 0
  let head := burstHead b
  opOk (part 4 4 ++ leBytes 1 (fget (F.ACQ_POS_STATE n k) d) ++ leBytes 1 (fget (F.ACQ_POS_AGE n k) d) ++ part 10 2
    ++ leBytes 1 (b2n head) ++ part 8 1 ++ [0, 0] ++ part 12 512 ++ part 524 16
    ++ (if head then part 540 16 else List.replicate 16 0)) m d

/-- CELL_INIT. -/
def opCellInit (p : List Byte) (m : List Host.Cell) (d : Dev) : OpOut :=
  let d := fset F.EST_INIT_FRAME_FRAME (field p 4 4) d
  opOk [] m (if cut 5 d then d else cellInit (field p 0 2) (field p 2 1 != 0) (field p 3 1 != 0) d)

/-- BAL_ENABLE. -/
def opBalEnable (p : List Byte) (m : List Host.Cell) (d : Dev) : OpOut :=
  opOk [] m (fput F.ACQ_CTRL_BAL_EN (field p 0 1 != 0) (balKeep d))

/-! ### Service transactions of the engine (R351, R357) -/

/-- A service access of the engine to `need` words from `word` of a position: none while the chain works on it, else the status. -/
def svcAsk (write : Bool) (n p word data need : Nat) (d : Dev) : Option Nat × Dev :=
  let a := 0x40000000 + n * 2 ^ 24 + p * 2 ^ 18 + word * 2
  if cut 11 d then (some stNoResp, d)
  else if fget (F.KZC_CH_CTRL_COUNT n) d ≤ p then (some stNoResp, kzRefusal write engAttr (some (.error 1 0 a)) d)
  else if !mastersPos n p d then (some stNoResp, kzRefusal write engAttr (some (.error 4 0 a)) d)
  else (none, kzEnter { origin := .service 0, write, addr := a, size := 2, data, attr := engAttr, need, total := need } d)

/-- The answer of `svcAsk` as an opcode's outcome. -/
def svcOut (r : Option Nat × Dev) (m : List Host.Cell) : OpOut :=
  match r.1 with
  | some st => opNo st m r.2
  | none => (none, m, r.2)

/-- The three words of BAL_SET: MASK [15:0] and [31:16], and DURATION. -/
def balData (p : List Byte) (k : Nat) : Nat := field p (2 + 2 * k) 2

/-- BAL_SET writes word `k`; the places of a satellite's balancing registers are open (Config.balWord). -/
def opBalSet (p : List Byte) (k : Nat) (m : List Host.Cell) (d : Dev) : OpOut :=
  svcOut (svcAsk true (field p 0 1) (field p 1 1) ((Config.balWord k).toNat % 0x20000) (balData p k) 1 d) m

/-- SAT_READ. -/
def opSatRead (p : List Byte) (m : List Host.Cell) (d : Dev) : OpOut :=
  svcOut (svcAsk false (field p 0 1) (field p 1 1) (field p 2 3) 0 (field p 5 1) d) m

/-- SAT_WRITE. -/
def opSatWrite (p : List Byte) (m : List Host.Cell) (d : Dev) : OpOut :=
  svcOut (svcAsk true (field p 0 1) (field p 1 1) (field p 2 3) (field p 5 2) 1 d) m

/-- `n` words that the spec leaves open. -/
def freeWords : Nat → Dev → List Byte × Dev
  | 0, d => ([], d)
  | n + 1, d =>
    let (k, d) := draw d
    let (bs, d) := freeWords n d
    (leBytes 2 (Config.freeWord k).toNat ++ bs, d)

/-- The end of a service access of the request in progress. A satellite's RESULT other than OK answers a SAT_READ without data of its
own. -/
def svcEnd (q : AixReq) (res : SvcResult) (m : List Host.Cell) (d : Dev) : OpOut :=
  match q.opcode, res.error with
  | 0x0305, none =>
    let k := d.aix.found.length + 1
    let d := { d with aix := { d.aix with found := d.aix.found ++ [k] } }
    if k = 3 then opOk [] m d else opBalSet q.payload k m d
  | 0x0703, none => opOk ([0, 0] ++ leBytes (2 * field q.payload 5 1) (res.data.headD 0)) m d
  | 0x0703, some (3, k) =>
    let (bs, d) := freeWords (field q.payload 5 1) d
    opOk (leBytes 1 k ++ [0] ++ bs) m d
  | 0x0704, none => opOk [0, 0] m d
  | 0x0704, some (3, k) => opOk (leBytes 1 k ++ [0]) m d
  | _, _ => opNo stNoResp m d

/-! ### Recorder class (R353, R479) -/

/-- Records read in ascending SEQ from `s`, `n` at most and none after `last`; an overwritten record ends the reply. -/
def logTake (m : List Host.Cell) (last : Nat) (d : Dev) : Nat → Nat → List (Nat × List Byte)
  | 0, _ => []
  | n + 1, s =>
    if seqNewer s last then []
    else match recRead m s d with
      | .valid bs => (s, bs) :: logTake m last d n ((s + 1) % 2 ^ 32)
      | .bad => (s, recBad s) :: logTake m last d n ((s + 1) % 2 ^ 32)
      | _ => []

/-- The fallback entries from `s` on, in order of SEQ. -/
def logFallback (s n : Nat) (d : Dev) : List (Nat × List Byte) :=
  ((d.side.fallback.filter (fun x => !seqNewer s x.seq)).map (fun x => (x.seq, recBytes x))).take n

/-- LOG_READ. -/
def opLogRead (p : List Byte) (m : List Host.Cell) (d : Dev) : OpOut :=
  let oldest := fget F.REC_OLDEST_SEQ d
  let newest := fget F.REC_NEWEST_SEQ d
  let gap := seqNewer oldest (field p 0 4)
  let start := if gap then oldest else field p 0 4
  let fb := flag F.REC_STATUS_FALLBACK d
  let recs := if fb then logFallback start (field p 4 2) d
    else if fget F.REC_HELD_HELD d = 0 then [] else logTake m newest d (field p 4 2) start
  let parts := if recs.isEmpty then [[]] else partsOf 44 64 recs
  let frags := parts.map (fun l =>
    leBytes 4 oldest ++ leBytes 4 newest ++ leBytes 4 (match l with
      | [] => start
      | e :: _ => e.1) ++ leBytes 1 l.length ++ leBytes 1 (b2n gap + 2 * b2n fb) ++ [0, 0] ++ (l.map (·.2)).flatten)
  (some (stOk, frags), m, d)

/-- LOG_STATUS. -/
def opLogStatus (d : Dev) : List Byte :=
  leBytes 4 (fget F.REC_OLDEST_SEQ d) ++ leBytes 4 (fget F.REC_NEWEST_SEQ d) ++ leBytes 4 (fget F.REC_HELD_HELD d)
    ++ leBytes 1 (b2n (flag F.REC_STATUS_FALLBACK d) + 2 * b2n (flag F.REC_STATUS_MRAM_FAIL d))
    ++ leBytes 1 d.side.fallback.length ++ [0, 0]

/-! ### Update class (R354): the opcodes that are not abortable -/

/-- UPDATE_STATUS: ACTIVE_VER is the running version of the class, STAGED_VER that of the open update's header. -/
def opUpdateStatus (d : Dev) : List Byte :=
  let c := fget F.UPD_STATUS_CLASS d
  leBytes 1 c ++ leBytes 1 (updState d) ++ [0, 0] ++ leBytes 4 (fget F.UPD_BLOCKS_BLOCKS d)
    ++ leBytes 4 (fget F.UPD_DONE_DONE d) ++ leBytes 4 (fget (F.UPD_VER_VER c) d)
    ++ leBytes 4 (if updState d = 0 then 0 else field d.upd.header 12 4)

/-- UPDATE_CANCEL. -/
def opUpdateCancel (m : List Host.Cell) (d : Dev) : OpOut :=
  let (st, m, d) := updCancel m d
  if st = stOk then opOk [] m d else opNo st m d

/-! ### Power class (R355) -/

/-- SET_PLEVEL: the reply waits for the end of the change (R447). -/
def opPlevel (p : List Byte) (m : List Host.Cell) (d : Dev) : OpOut :=
  let d := plWrite (field p 0 1) d
  if flag F.PWR_PL_BUSY d then (none, m, d) else opOk (p.take 1) m d

/-- The wake kind that POWER_STATUS reports (R385): 3 for a device reset other than a wake. -/
def wakeKindNow (d : Dev) : Nat :=
  if fget F.SYS_WAKE_KIND d ≠ 0 then fget F.SYS_WAKE_KIND d else if fget F.SYS_RST_CAUSE_CAUSE d = 0 then 0 else 3

/-- POWER_STATUS. -/
def opPowerStatus (d : Dev) : List Byte :=
  leBytes 1 (fget F.PWR_PL_CUR d) ++ leBytes 1 (wakeKindNow d) ++ leBytes 2 (fget F.SYS_WAKE_SRC d)
    ++ leBytes 4 (fget F.LSW_SUPPLY_VAUX d) ++ leBytes 4 ((d.clk - d.pwr.wokeAt) / (1000 * tickMs))

/-! ### Diagnostics class (R357, R358) -/

/-- The attribute byte of a hypervisor access. -/
def hypAttr (a : Nat) : Nat := attrOf false 0 1 false (isIo a)

/-- REG_READ from where it stands; `n` bounds the words left. -/
def regReads (q : AixReq) (m : List Host.Cell) : Nat → Dev → OpOut
  | 0, d => opOk (d.aix.found.flatMap (leBytes 4)) m d
  | n + 1, d =>
    let a := field q.payload 0 5 + 4 * d.aix.found.length
    match busRead (.service 0) 0 (hypAttr a) a 4 .good m d with
    | (some (.data v), d) => regReads q m n { d with aix := { d.aix with found := d.aix.found ++ [v] } }
    | (some (.error _ _ _), d) => (some (stPermit, [d.aix.found.flatMap (leBytes 4)]), m, d)
    | (none, d) => (none, m, d)

/-- The words that a REG_READ or REG_WRITE has still to do. -/
def regLeft (q : AixReq) (d : Dev) : Nat := field q.payload 6 2 - d.aix.found.length

/-- REG_WRITE from where it stands. -/
def regWritesDo (q : AixReq) : Nat → List Host.Cell → Dev → OpOut
  | 0, m, d => opOk (leBytes 2 d.aix.found.length) m d
  | n + 1, m, d =>
    let i := d.aix.found.length
    let a := field q.payload 0 5 + 4 * i
    match busWrite (.service 0) 0 (hypAttr a) a 4 (field q.payload (8 + 4 * i) 4) .good m d with
    | (some (.data _), m, d) => regWritesDo q n m { d with aix := { d.aix with found := d.aix.found ++ [0] } }
    | (some (.error _ _ _), m, d) => (some (stPermit, [leBytes 2 d.aix.found.length]), m, d)
    | (none, m, d) => (none, m, d)

/-- The end of a bridge access of REG_READ or REG_WRITE: the words after it follow. -/
def regEnd (q : AixReq) (res : SvcResult) (m : List Host.Cell) (d : Dev) : OpOut :=
  let rd := q.opcode == 0x0701
  match res.error with
  | some _ => (some (stPermit, [if rd then d.aix.found.flatMap (leBytes 4) else leBytes 2 d.aix.found.length]), m, d)
  | none =>
    let d := { d with aix := { d.aix with found := d.aix.found ++ [res.data.headD 0] } }
    if rd then regReads q m (regLeft q d) d else regWritesDo q (regLeft q d) m d

/-- TENANT_CTRL. -/
def opTenantCtrl (p : List Byte) (m : List Host.Cell) (d : Dev) : OpOut :=
  let k := field p 0 1
  let d := if field p 1 1 = 1 then tenantReset 0 k d else tenantRelease k d
  opOk (leBytes 1 (tenState k d)) m d

/-! ### Network class (R359, R444) -/

/-- NET_SLEEP_POLICY. -/
def opNetPolicy (p : List Byte) (m : List Host.Cell) (d : Dev) : OpOut :=
  let d := fset F.NSM_TIME_IDLE_S (field p 4 2) (fset F.NSM_CTRL_CHANNELS (field p 1 1)
    (fput F.NSM_CTRL_TARGET (field p 2 1 == 4) d))
  opOk [] m (if cut 22 d then d else nsmEval (nsmEnable (field p 0 1 != 0) d))

/-- NET_STATUS: CTRL holds EFF_MODE in [1:0] and ESTATE in [3:2]. -/
def opNetStatus (d : Dev) : List Byte :=
  (List.range 6).flatMap (fun n =>
    leBytes 1 (canMode n d + 4 * canEstate n d) ++ leBytes 1 (fget (F.CAN_XCVR_STATE n) d)
      ++ leBytes 1 (min 255 (fget (F.CAN_ERRCNT_TEC n) d)) ++ leBytes 1 (fget (F.CAN_ERRCNT_REC n) d))
    ++ leBytes 1 (nsmState d) ++ [0, 0, 0]

/-- ROUTE_SEND. -/
def opRouteSend (p : List Byte) (m : List Host.Cell) (d : Dev) : OpOut :=
  let e := field p 0 2
  let data := p.drop 4
  if rtCh e d = 7 then opOk [] m (routeOut e data d).2
  else match txResult (rtCh e d) 0 e data.length d with
    | 0 => opOk [] m (routeOut e data d).2
    | 1 => opNo stBusy m d
    | 5 => opNo stState m d
    | _ => opNo stParam m d

/-! ### All of them -/

/-- A standard opcode of the engine queue that is not abortable, its checks passed. -/
def opRun (q : AixReq) (m : List Host.Cell) (d : Dev) : OpOut :=
  let p := q.payload
  match q.opcode with
  | 0x0101 => opConfigLoad p m d
  | 0x0103 => opConfigRead p m d
  | 0x0104 => opPairRole p m d
  | 0x0201 => opArm m d
  | 0x0202 => opDisarm m d
  | 0x0203 => opString p m d
  | 0x0204 => opZoneClear m d
  | 0x0205 => opChannel q m d
  | 0x0206 => opOk (opOutputs d) m d
  | 0x0302 => opRecordRead p m d
  | 0x0303 => opCellInit p m d
  | 0x0304 => opBalEnable p m d
  | 0x0305 => opBalSet p 0 m d
  | 0x0402 => opOk (opLogStatus d) m d
  | 0x0504 => opOk (opUpdateStatus d) m d
  | 0x0505 => opUpdateCancel m d
  | 0x0602 => opPlevel p m d
  | 0x0603 => opOk (opPowerStatus d) m d
  | 0x0701 => regReads q m (regLeft q d) d
  | 0x0702 => regWritesDo q (regLeft q d) m d
  | 0x0703 => opSatRead p m d
  | 0x0704 => opSatWrite p m d
  | 0x0705 => opTenantCtrl p m d
  | 0x0801 => opNetPolicy p m d
  | 0x0802 => opOk (opNetStatus d) m d
  | 0x0803 => opRouteSend p m d
  | _ => opNo stOpcode m d

/-! ### Abortable opcodes at their commit (R343) -/

/-- CONFIG_COMMIT decided (R381, R386): its status and reply. -/
def opCommit (p : List Byte) (m : List Host.Cell) (d : Dev) : OpOut :=
  let plan := commitPlan (field p 0 4) (field p 4 1) m d
  let reply (crc : Nat) : List Byte :=
    leBytes 4 crc ++ leBytes 1 plan.slot ++ [0] ++ leBytes 2 plan.check ++ leBytes 4 plan.ofs
  if plan.status = stOk then
    let img := memRead m (cfgStage d) (fget F.CFG_STAGE_TOTAL_TOTAL d)
    opOk (reply (imgCrc plan.img)) m (if imgFormat img = 1 then recordC 0x0F06 (imgCrc img) (imgCrc plan.img) d else d)
  else if plan.status = stCfgBad then
    let d := fset F.CFG_OFS_OFS plan.ofs (fset F.CFG_STATUS_CHECK plan.check d)
    (some (stCfgBad, [reply (field p 0 4)]), m, recordC 0x0F07 plan.check plan.ofs d)
  else opNo plan.status m d

/-- UPDATE_BLOCK: DONE names the failing block of a COPY_RUN. -/
def opUpdateBlock (p : List Byte) (m : List Host.Cell) (d : Dev) : OpOut :=
  let (st, m, d) := updBlock (field p 0 4) (p.drop 4) m d
  if st = stOk ∨ st = stBlock then (some (st, [p.take 4 ++ leBytes 4 (fget F.UPD_DONE_DONE d)]), m, d) else opNo st m d

/-- An abortable opcode decided and answered at its commit. -/
def abRun (q : AixReq) (m : List Host.Cell) (d : Dev) : OpOut :=
  let p := q.payload
  match q.opcode with
  | 0x0102 => opCommit p m d
  | 0x0301 => opEstRead p m d
  | 0x0401 => opLogRead p m d
  | 0x0501 =>
    let (st, d) := updBegin (field p 0 1) (p.drop 4) q.ver m d
    if st = stOk then opOk (leBytes 4 (fget F.UPD_BLOCKS_BLOCKS d)) m d else opNo st m d
  | 0x0502 => opUpdateBlock p m d
  | 0x0503 =>
    let (st, m, d) := activatePrepare m d
    if st = stOk then opOk [] m d else opNo st m d
  | 0x0601 => if (wakeInputs d).isEmpty then opOk (p.take 1) m d else opNo stWake m d
  | _ => opNo stOpcode m d

/-- The lasting change after a commit with OK. -/
def abEffect (q : AixReq) (m : List Host.Cell) (d : Dev) : List Host.Cell × Dev :=
  match q.opcode with
  | 0x0102 => commitEffect (commitPlan (field q.payload 0 4) (field q.payload 4 1) m d) q.fault m d
  | 0x0503 =>
    let (reset, m, d) := activateEffect m d
    (m, if reset then deviceReset 4 d else d)
  | 0x0601 =>
    if q.via = 2 then (m, { d with aix := { d.aix with twpSleep := some (field q.payload 0 1) } })
    else (m, sleepBegin (field q.payload 0 1) false (fset F.PWR_SLEEP_STATE (field q.payload 0 1) d))
  | _ => (m, d)

end Sys2Proof.Machine
end

