-- ==== Sys2Proof/Machine/AixEngine.lean ====
section
/-!
DEFINITION. Machine/AixEngine.lean: the engine queue and the course of a request through it (R338 to R346): intake, duplicates, the fast
opcodes, starting, waiting, committing and aborting; what TL0's return does (R343).
-/

namespace Sys2Proof.Machine

def aixPut (a : Aix) (d : Dev) : Dev := { d with aix := a }

/-- TL0 runs the management engine; from the entry into a sleep to its end it stands (R450). -/
def engineUp (d : Dev) : Bool := tl0Runs d && d.pwr.target == 0

/-! ### Committing (R343) -/

/-- A reply that one packet must carry is refused when it needs more (R331, R360). -/
def tooLong (q : AixReq) (frags : List (List Byte)) : Bool :=
  (q.ver == 1 && decide (1 < frags.length)) || (q.via == 2 && (decide (1 < frags.length) || frags.any (fun p => decide (240 < p.length))))

/-- The final reply of a request of the engine queue; one that no packet can carry is answered BAD_PARAM. -/
def aixAnswer (q : AixReq) (status : Nat) (frags : List (List Byte)) (d : Dev) : Dev :=
  if tooLong q frags then aixFinal q stParam [] d else aixFinal q status frags d

/-- The reply to an ABORT: TARGET and ORIG_STATUS. -/
def abortReply (r : AixReq) (status orig : Nat) (d : Dev) : Dev :=
  aixFinal r status [r.payload.take 2 ++ leBytes 2 orig] d

/-- The request in progress commits with a status: AIX_CMT_SEQ and AIX_CMT are written, its final reply leaves, and the ABORTs
deferred to it are answered (R344). -/
def aixDone (status : Nat) (frags : List (List Byte)) (d : Dev) : Dev :=
  match d.aix.cur with
  | none => d
  | some q =>
    let late := d.aix.deferred
    let d := aixPut { d.aix with cur := none, held := false, ready := none, interim := false, deferred := [], found := [] } d
    let d := fset F.AIX_CMT_SEQ_SLOT (q.slot % 4) (fset F.AIX_CMT_SEQ_DRAWER q.drawer (fset F.AIX_CMT_SEQ_SEQ q.seq d))
    let d := aixAnswer q status frags (fset F.AIX_CMT_STATUS status d)
    each late (fun r d => abortReply r stComplete status d) d

/-- The result of a request is ready: it commits, or waits for its commit write. -/
def aixReady (status : Nat) (frags : List (List Byte)) (d : Dev) : Dev :=
  match d.aix.cur with
  | none => d
  | some q =>
    if q.hold then aixPut { d.aix with held := true, ready := some (status, frags) } d else aixDone status frags d

/-- What an opcode has come to, taken up by the engine. -/
def aixOut (o : OpOut) : List Host.Cell × Dev :=
  match o with
  | (some (st, frags), m, d) => (m, aixReady st frags d)
  | (none, m, d) => (m, d)

/-- The commit write (R343). `force`: a status other than OK that the engine gives in place of the result. -/
def aixCommit (force : Option Nat) (m : List Host.Cell) (d : Dev) : List Host.Cell × Dev :=
  match d.aix.cur with
  | none => (m, d)
  | some q =>
    match force, d.aix.ready with
    | some st, _ => (m, aixDone st [] (if q.opcode = 0x0503 then activateAbort d else d))
    | none, some (st, frags) => (m, aixDone st frags d)
    | none, none =>
      let (o, m, d) := abRun q m d
      match o with
      | none => (m, d)
      | some (st, frags) =>
        let d := aixDone st frags d
        if st = stOk then abEffect q m d else (m, d)

/-! ### Starting -/

/-- An abortable request has come to the point before its commit. -/
def abArrive (q : AixReq) (m : List Host.Cell) (d : Dev) : List Host.Cell × Dev :=
  if q.hold then (m, aixPut { d.aix with held := true } d) else aixCommit none m d

/-- The engine starts a request whose checks 1 to 5 are past. -/
def aixStart (q : AixReq) (m : List Host.Cell) (d : Dev) : List Host.Cell × Dev :=
  let d := aixPut { d.aix with cur := some q, held := false, ready := none, interim := false, deferred := [], found := [] } d
  match workCheck q d with
  | some st => (m, aixReady st [] d)
  | none =>
    if q.opcode = 0x0503 then
      let when1 := field q.payload 0 1 == 1
      match activateCheck when1 q.ver d with
      | (some st, d) => (m, aixReady st [] d)
      | (none, d) =>
        let d := activateStart when1 d
        if d.upd.asked then (m, d) else abArrive q m d
    else if opAb q.opcode then abArrive q m d
    else aixOut (opRun q m d)

/-! ### Sessions (R330 to R332, R348) -/

/-- The versions that differ in window (R331). -/
def windowOf : Nat → Nat
  | 1 => 1
  | 2 => 8
  | _ => 16

/-- A session identifier that is not 0 and that no other open session has, from a free value. -/
def freshId (n : Nat) (d : Dev) : Nat :=
  let ids := d.aix.sessions.filterMap (fun e => e.2.map (·.id))
  let v := (Config.freeWord n).toNat
  (((List.range 40).map (fun i => (v + i) % 2 ^ 32)).find? (fun v => v != 0 && !ids.contains v)).getD 1

/-- The slot that a HELLO to drawer `k` takes: a free one, else that of the session idle longest. -/
def slotFor (k : Nat) (d : Dev) : Nat :=
  let keys := (List.range 4).map (fun i => 4 * k + i)
  match keys.find? (fun i => (sessOf i d).isNone) with
  | some i => i
  | none =>
    let last (i : Nat) : Nat := ((sessOf i d).map (·.last)).getD 0
    keys.foldl (fun b i => if last i < last b then i else b) (4 * k)

/-- The payload of a HELLO's reply. -/
def helloBytes (r : AixReq) (v id : Nat) (d : Dev) : List Byte :=
  leBytes 1 v ++ leBytes 1 (windowOf v) ++ leBytes 2 (if r.via = 2 then 240 else 1432) ++ leBytes 4 (if v = 1 then 0 else id)
    ++ leBytes 4 (fget F.SYS_ID_DEVICE d * 65536 + fget F.SYS_ID_STEPPING d * 256 + fget F.SYS_ID_PACKAGE d)
    ++ leBytes 4 (d.cfg.zoneNo * 1024 + b2n (d.pair.mode != 0 && d.pair.slotB)) ++ leBytes 1 d.pair.role ++ leBytes 1 (zone d)
    ++ leBytes 2 (fget F.AIX_TMO_SESS_TMO d) ++ leBytes 4 (if fget F.CFG_STATUS_STATE d = 2 then fget F.CFG_CRC_CRC d else 0)
    ++ leBytes 4 (fget (F.UPD_VER_VER 2) d)

/-- The keys of the sessions that a port and a drawer lead to. -/
def keysOf (r : AixReq) : List Nat := if r.via = 2 then [32] else (List.range 4).map (fun i => 4 * r.drawer + i)

/-- An earlier HELLO within 2 s that this one repeats (R330). -/
def helloRepeat (r : AixReq) (d : Dev) : Option (Nat × AixSession) :=
  (keysOf r).findSome? (fun k => match sessOf k d with
    | some x =>
      if x.src = r.src ∧ x.sport = r.sport ∧ x.seq = r.seq ∧ x.host = field r.payload 4 8 ∧ d.clk ≤ x.opened + 2000 * tickMs
      then some (k, x) else none
    | none => none)

/-- The version of a session: the highest in both ranges; drawers 1 to 7 exist in version 3 alone (R331). -/
def helloVer (r : AixReq) : Option Nat :=
  let lo := max (field r.payload 0 1) (if r.drawer = 0 then 1 else 3)
  let v := min (field r.payload 1 1) 3
  if lo ≤ v then some v else none

/-- HELLO opens a session of version `v`. -/
def helloOpen (r : AixReq) (v : Nat) (d : Dev) : Dev :=
  let key := if r.via = 2 then 32 else slotFor r.drawer d
  let d := sessClose key r.seq 2 d
  let (n, d) := draw d
  let id := if r.via = 2 then 0 else freshId n d
  let x : AixSession := { id, ver := v, src := r.src, sport := r.sport, host := field r.payload 4 8, seq := r.seq
                          opened := d.clk, last := d.clk, reply := helloBytes r v id d }
  let r := { r with ver := v, session := id, slot := key }
  let d := recordC 0x0901 (drawerWord r) v (sessPut key (some x) d)
  recordC 0x0903 (drawerWord r) 1 (aixFrags r stOk 0 [x.reply] d)

/-- HELLO. -/
def aixHello (r : AixReq) (d : Dev) : Dev :=
  if r.payload.length ≠ 12 then aixRefuse r stParam d
  else match helloRepeat r d with
    | some (k, x) =>
      let r := { r with ver := x.ver, session := x.id, slot := k }
      aixFrags r stOk 0 [x.reply] (sessPut k (some { x with last := d.clk }) d)
    | none =>
      match helloVer r with
      | none => aixRefuse { r with ver := 1 } stVersion d
      | some v => helloOpen r v d

/-- The session that a request names: by identifier in its drawer, in version 1 by its source, on the wake port the port's own. -/
def sessFind (r : AixReq) (d : Dev) : Option Nat :=
  if r.via = 2 then (if r.session = 0 ∧ (sessOf 32 d).isSome then some 32 else none)
  else if r.ver = 1 ∧ r.session = 0 then
    let ks := (keysOf r).filter (fun k => (sessOf k d).any (fun x => x.ver == 1 && x.src == r.src))
    let at_ (k : Nat) : Nat := ((sessOf k d).map (·.opened)).getD 0
    match ks with
    | [] => none
    | k :: t => some (t.foldl (fun b i => if at_ b < at_ i then i else b) k)
  else (keysOf r).find? (fun k => (sessOf k d).any (fun x => x.id == r.session && r.session != 0))

/-! ### Limits, and duplicates (R338, R340, R341) -/

/-- Requests in the engine queue, with the one in progress. -/
def engineHeld (d : Dev) : List AixReq := d.aix.cur.toList ++ d.aix.queue

/-- The requests of drawer `k` fill its part of the engine queue, the one in progress among them. DEDUCED
(notes/assumptions/81.md). -/
def drawerFull (k : Nat) (d : Dev) : Bool := decide (16 ≤ ((engineHeld d).filter (fun q => q.drawer == k)).length)

/-- The two requests are of one session. -/
def sameSess (q r : AixReq) : Bool := q.drawer == r.drawer && q.slot == r.slot && q.session == r.session

/-- The window of the session is used up (R331); HELLO, BYE, PING, STATUS and ABORT do not count (R339). -/
def windowFull (r : AixReq) (d : Dev) : Bool :=
  let open_ := (engineHeld d).filter (fun q => sameSess r q && !opFast q.opcode) ++ (d.aix.tenants.map (·.req)).filter (sameSess r)
  decide (windowOf r.ver ≤ open_.length)

/-- A repeat of a request that is queued, in progress, or with the tenant: whether the request has started. -/
def repeated (r : AixReq) (d : Dev) : Option Bool :=
  let same (q : AixReq) : Bool := sameSess q r && q.seq == r.seq
  if d.aix.cur.any same then some true
  else if d.aix.queue.any same then some false
  else (d.aix.tenants.find? (fun x => same x.req)).map (·.begun)

/-- The interim reply (R340). -/
def interimReply (r : AixReq) (d : Dev) : Dev := aixFrags r stOk 2 [] d

/-- A repeat answered: counted, and from version 2 on with the interim reply when the request has started. -/
def repeatAnswer (r : AixReq) (begun : Bool) (d : Dev) : Dev :=
  let d := fsat F.AIX_CNT_DUP_CNT 1 d
  if begun && decide (2 ≤ r.ver) then interimReply r d else d

/-! ### Tenant requests (R335 to R337) -/

/-- The tenant of drawer `k` takes no request (R337). -/
def tenantDown (k : Nat) (d : Dev) : Bool := tenState k d != 1 || !flag (F.DRW_CTRL_EN k) d

/-- The request ring of drawer `k` is full (R335). -/
def ringFull (k : Nat) (d : Dev) : Bool := ringHeld (fget (F.DRW_REQ_PROD_IDX k) d) (fget (F.DRW_REQ_CONS_IDX k) d) == 16

/-- A request goes to the drawer's request ring, which has room; refused there, it is dropped. -/
def tenantPlace (r : AixReq) (flags : Nat) (m : List Host.Cell) (d : Dev) : List Host.Cell × Dev :=
  let (ok, m, d) := ringPlace r.drawer (requestBytes r flags) m d
  (m, if ok then aixPut { d.aix with tenants := d.aix.tenants ++ [{ req := r }] } d else d)

/-- A tenant-class request of a drawer from 1 to 7, its session and version right: BUSY for the window or a full ring is check 5 of
R346, and comes before TENANT_DOWN. -/
def tenantTake (r : AixReq) (m : List Host.Cell) (d : Dev) : List Host.Cell × Dev :=
  let dup := (sessOf r.slot d).any (fun x => x.long.contains r.seq)
  if windowFull r d then (m, aixRefuse r stBusy (fsat F.AIX_CNT_BUSY_CNT 1 d))
  else if ringFull r.drawer d then (m, aixRefuse r stBusy d)
  else if tenantDown r.drawer d then (m, aixRefuse r stDown d)
  else tenantPlace r (if dup then 8 else 0) m d

/-! ### ABORT (R344) -/

/-- The decision on a target, recorded. -/
def abortTold (r : AixReq) (target result : Nat) (d : Dev) : Dev :=
  recordC 0x0904 (drawerWord { r with seq := target }) result d

/-- A target that is with the tenant, or that the tenant has completed. -/
def tenantTarget (r : AixReq) (t : Nat) (d : Dev) : Bool :=
  d.aix.tenants.any (fun x => sameSess x.req r && x.req.seq == t)
    || (match sessOf r.slot d with
      | some x => x.long.contains t || x.cache.any (fun c => c.seq == t && opTenant c.opcode)
      | none => false)

/-- ABORT, its session right. -/
def aixAbort (r : AixReq) (m : List Host.Cell) (d : Dev) : List Host.Cell × Dev :=
  let t := field r.payload 0 2
  let same (q : AixReq) : Bool := sameSess q r && q.seq == t
  if r.payload.length ≠ 2 then (m, aixFinal r stParam [] d)
  else if tenantTarget r t d then
    if ringFull r.drawer d then (m, aixRefuse r stBusy d)
    else if tenantDown r.drawer d then (m, aixRefuse r stDown d)
    else tenantPlace r 0 m d
  else match d.aix.queue.find? same, d.aix.cur with
    | some q, _ =>
      let d := aixPut { d.aix with queue := d.aix.queue.erase q } (abortTold r t 0 d)
      let d := aixFrags q stAborted 0 [] (cachePut q stAborted [] d)
      (m, abortReply r stOk 0 d)
    | none, c =>
      match c, cached { r with seq := t } d with
      | some q, old =>
        if same q then
          let d := abortTold r t 1 d
          if opAb q.opcode then
            let (m, d) := aixCommit (some stAborted) m d
            (m, abortReply r stOk 0 d)
          else (m, aixPut { d.aix with deferred := d.aix.deferred ++ [r] } d)
        else match old with
          | some x =>
            if opFast x.opcode then (m, aixFinal r stParam [] (abortTold r t 3 d))
            else (m, abortReply r stComplete x.status (abortTold r t 2 d))
          | none => (m, aixFinal r stParam [] (abortTold r t 3 d))
      | none, some x =>
        if opFast x.opcode then (m, aixFinal r stParam [] (abortTold r t 3 d))
        else (m, abortReply r stComplete x.status (abortTold r t 2 d))
      | none, none => (m, aixFinal r stParam [] (abortTold r t 3 d))

/-! ### Intake (R329, R346) -/

/-- BYE: the session closes after the reply. -/
def aixBye (r : AixReq) (d : Dev) : Dev :=
  if r.payload.length ≠ 0 then aixFinal r stParam [] d
  else sessClose r.slot r.seq 0 (aixFinal r stOk [] d)

/-- A fast opcode other than HELLO (R339). -/
def aixFast (r : AixReq) (m : List Host.Cell) (d : Dev) : List Host.Cell × Dev :=
  match r.opcode with
  | 0x0002 => (m, aixBye r d)
  | 0x0003 => (m, if 64 < r.payload.length then aixFinal r stParam [] d else aixAnswer r stOk [opPing r.payload d] d)
  | 0x0004 => (m, if r.payload.length ≠ 0 then aixFinal r stParam [] d else aixAnswer r stOk [opStatus d] d)
  | _ => aixAbort r m d

/-- Check 4 of R346: from drawers 1 to 7 the opcodes marked All alone; a SLEEP there is recorded as a refused cut (R313, R334). -/
def drawerRefuses (r : AixReq) : Bool := r.drawer != 0 && !opTenant r.opcode && !(opRow r.opcode).any (·.all)

/-- Check 3: unknown, or absent in the version, the drawer or on the wake port. -/
def opcodeRefused (r : AixReq) : Bool :=
  if opTenant r.opcode then r.drawer == 0
  else match opRow r.opcode with
    | none => true
    | some x => decide (r.ver < x.ver) || (r.via == 2 && !opTwp r.opcode)

/-- Checks 3 to 5 of a request with its session, and its way: at once, to the tenant, or to the engine. True with it: the engine is
to start it. -/
def aixWay (r : AixReq) (limit : Bool) (m : List Host.Cell) (d : Dev) : Bool × List Host.Cell × Dev :=
  let no (x : List Host.Cell × Dev) : Bool × List Host.Cell × Dev := (false, x)
  match (if opRd r.opcode then none else cached r d), repeated r d with
  | some c, _ => (false, m, aixFrags r c.status 8 [c.payload] d)
  | none, some begun => (false, m, repeatAnswer r begun d)
  | none, none =>
    if opcodeRefused r then (false, m, aixRefuse r stOpcode d)
    else if drawerRefuses r then
      (false, m, aixRefuse r stPermit (if r.opcode = 0x0601 then recordC 0x0804 1 (3 + r.drawer * 256) d else d))
    else if opTenant r.opcode then no (tenantTake r m d)
    else if opFast r.opcode then no (aixFast r m d)
    else if limit && (drawerFull r.drawer d || windowFull r d) then
      (false, m, aixRefuse r stBusy (fsat F.AIX_CNT_BUSY_CNT 1 d))
    else (true, m, d)

/-- Checks 1 and 2 of R346, and the way of the request; with `limit` those of check 5 too. The request with its session goes with it. -/
def aixTake (r : AixReq) (limit : Bool) (m : List Host.Cell) (d : Dev) : Option AixReq × List Host.Cell × Dev :=
  if r.opcode = 1 then (none, m, aixHello r d)
  else match (sessFind r d).bind (fun k => (sessOf k d).map (fun x => (k, x))) with
    | none => (none, m, aixRefuse r stSession d)
    | some (k, x) =>
      let d := sessPut k (some { x with last := d.clk }) d
      if r.ver ≠ x.ver then (none, m, aixRefuse { r with ver := x.ver, session := x.id, slot := k } stVersion d)
      else
        let r := { r with session := x.id, slot := k }
        let (go, m, d) := aixWay r limit m d
        (if go then some r else none, m, d)

/-- The queue's next request: HELLO, BYE, PING, STATUS and ABORT, queued while TL0 was not in RUN, pass every other (R339); the
others wait for an idle engine. DEDUCED (notes/assumptions/81.md). -/
def aixNext (d : Dev) : Option AixReq :=
  match d.aix.queue.find? (fun q => q.raw && opFast q.opcode) with
  | some q => some q
  | none => if d.aix.cur.isSome then none else d.aix.queue.head?

/-- The engine takes its queue while TL0 runs; `n` bounds the requests. -/
def aixPump : Nat → List Host.Cell → Dev → List Host.Cell × Dev
  | 0, m, d => (m, d)
  | n + 1, m, d =>
    if !engineUp d then (m, d)
    else match aixNext d with
      | none => (m, d)
      | some q =>
        let rest := d.aix.queue.erase q
        let d := aixPut { d.aix with queue := rest } d
        let d := if q.via = 2 ∧ rest.all (fun x => x.via != 2) = true then fput F.TWP_STATUS_RX_READY false d else d
        let (m, d) := if q.raw then
            match aixTake { q with raw := false } false m d with
            | (some r, m, d) => aixStart r m d
            | (none, m, d) => (m, d)
          else aixStart q m d
        aixPump n m d

/-- The engine goes on with its queue. -/
def aixGo (m : List Host.Cell) (d : Dev) : List Host.Cell × Dev := aixPump (d.aix.queue.length + 1) m d

/-- The request with its session's identifier and slot. -/
def inItsSession (r : AixReq) (d : Dev) : Option AixReq :=
  if r.opcode = 1 then none
  else (sessFind r d).bind (fun k => (sessOf k d).map (fun x => { r with session := x.id, slot := k }))

/-- A request while TL0 is not in RUN: a repeat of one held is dropped and counted (R340), the others are queued within the limits of
R338, else discarded (R343). -/
def aixStore (r0 : AixReq) (d : Dev) : Dev :=
  let s := inItsSession r0 d
  let r := s.getD r0
  if s.isSome && (repeated r d).isSome then fsat F.AIX_CNT_DUP_CNT 1 d
  else if drawerFull r.drawer d || (s.isSome && !opFast r.opcode && windowFull r d) then aixPut { d.aix with dropped := d.aix.dropped + 1 } (fsat F.AIX_CNT_DROP_CNT 1 d)
  else
    let d := if r.via = 2 then fput F.TWP_STATUS_RX_READY true d else d
    aixPut { d.aix with queue := d.aix.queue ++ [{ r with raw := true }] } d

/-- A request past R329. -/
def aixAccept (r : AixReq) (m : List Host.Cell) (d : Dev) : List Host.Cell × Dev :=
  if !engineUp d then (m, aixStore r d)
  else match aixTake r true m d with
    | (some q, m, d) => aixGo m (aixPut { d.aix with queue := d.aix.queue ++ [q] } d)
    | (none, m, d) => aixGo m d

/-- Check 3 of R329: the drawer is enabled and its list permits the source. -/
def aclPermits (k src : Nat) (d : Dev) : Bool :=
  let mask := fget (F.AIX_DACL_MASK k) d
  flag (F.AIX_DCFG_EN k) d && (mask == 0 || (List.range 32).any (fun e => maskBit mask e && aixAddr e d == src))

/-- The Ethernet port takes Aidex datagrams: enabled, with the protocol of the source address and an address of its own in it; under
IPv6 the link-local one always stands (R326, R362, R364). -/
def portOpen (via src : Nat) (d : Dev) : Bool :=
  !d.pwr.sealed && !d.pwr.down && !cut 10 d && !cut (13 + via) d && flag (F.ETH_CTRL_EN via) d
    && (if isV4 src then flag (F.ETH_CTRL_IPV4_EN via) d && ethV4 F.ETH_IPV4_ADDR via d != 0 else flag (F.ETH_CTRL_IPV6_EN via) d)

/-- Aidex is enabled on the port; the engine enables it when it starts (R366, step 5). -/
def aixOn (via : Nat) (d : Dev) : Bool := d.pwr.booted && flag F.AIX_CTRL_EN d && fbit ⟨R.AIX_CTRL, 1, 3⟩ via d

/-- The wake port carries Aidex (R360, R457): from the engine's start, while the matcher does not serve it. -/
def twpOn (d : Dev) : Bool := d.pwr.booted && !matcherOn d && !cut 10 d && aixOn 2 d && flag (F.AIX_DCFG_TWP 0) d

/-- A packet whose form and CRC are right: check 3 of R329, then the engine. -/
def aixSource (r : AixReq) (m : List Host.Cell) (d : Dev) : List Host.Cell × Dev :=
  if if r.via = 2 then r.drawer == 0 else aclPermits r.drawer r.src d then aixAccept r m d
  else (m, recordC 0x0905 r.drawer (r.src % 2 ^ 32) (fsat F.AIX_CNT_ACL_CNT 1 d))

/-- VER and LEN of a packet (R327, R329). -/
def formOk (r : AixReq) : Bool :=
  decide (1 ≤ r.ver ∧ r.ver ≤ 3 ∧ r.payload.length ≤ if r.via = 2 then 240 else 1432)

/-- A packet with a right CRC reaches its port. -/
def aixArrive (r : AixReq) (m : List Host.Cell) (d : Dev) : List Host.Cell × Dev :=
  if r.via = 2 then
    if !twpOn d then (m, d)
    else
      let d := fsat F.TWP_CNT_RX_CNT 1 d
      if formOk r then aixSource r m d else (m, fsat F.AIX_CNT_FMT_CNT 1 d)
  else if !portOpen r.via r.src d then (m, d)
  else
    let d := fsat (F.ETH_CNT_RX_CNT r.via) 1 d
    if !aixOn r.via d then (m, d)
    else if formOk r then aixSource r m d else (m, fsat F.AIX_CNT_FMT_CNT 1 d)

/-! ### The return of TL0 (R343) -/

/-- The accesses that the engine had under way at the bridges when TL0 stopped: their outcomes reach nobody. -/
def serviceDrop (d : Dev) : Dev :=
  let mine (o : Origin) : Bool := o == .service 0
  let acc (x : KzAcc) : KzAcc := if mine x.origin then { x with origin := .prefetch } else x
  let d := each (List.range 16) (fun n d => if (kzQueue n d).any (fun x => mine x.origin) then
    kzQueuePut n ((kzQueue n d).map acc) d else d) d
  let b := d.brg
  let out := b.peerOut.map (fun (x : PeerReq) => if mine x.origin then { x with origin := .prefetch } else x)
  { d with brg := { b with port := b.port.map acc, peerOut := out, results := b.results.filter (fun r => !mine r.origin) } }

/-- The request in progress is answered ABORTED, ENGINE_DROP recorded; the engine starts, and takes the queue. -/
def engineResume (m : List Host.Cell) (d : Dev) : List Host.Cell × Dev :=
  let began := d.aix.cur.isSome
  let n := d.aix.dropped
  let (m, d) := aixCommit (some stAborted) m (repliesOwed m (serviceDrop d))
  let d := if began || n != 0 then recordC 0x090A n (b2n began) d else d
  let (m, d) := engineReturn m (aixPut { d.aix with dropped := 0 } d)
  aixGo m d

/-! ### Events that a request waits for -/

/-- The partner has answered an activation, or can no longer (R499). -/
def activationSettled (q : AixReq) (m : List Host.Cell) (d : Dev) : List Host.Cell × Dev :=
  if d.upd.asked then (m, d)
  else if updState d = 4 then abArrive q m d
  else (m, aixReady stState [] d)

/-- The outcomes of bridge accesses made for the engine and the update engine. -/
def resultsTake : List SvcResult → List Host.Cell → Dev → List Host.Cell × Dev
  | [], m, d => (m, d)
  | r :: t, m, d =>
    match r.origin with
    | .update n => resultsTake t m (satResult n r m d)
    | _ =>
      let (m, d) := match d.aix.cur with
        | some q =>
          if d.aix.held then (m, d)
          else if q.opcode = 0x0701 ∨ q.opcode = 0x0702 then aixOut (regEnd q r m d)
          else if [0x0305, 0x0703, 0x0704].contains q.opcode then aixOut (svcEnd q r m d)
          else (m, d)
        | none => (m, d)
      resultsTake t m d

/-- What has come about for the request in progress. -/
def curSettle (m : List Host.Cell) (d : Dev) : List Host.Cell × Dev :=
  match d.aix.cur with
  | none => (m, d)
  | some q =>
    if d.aix.held then (m, d)
    else match q.opcode with
      | 0x0104 => if d.pair.role = 2 then (m, d) else aixOut (opOk (leBytes 1 d.pair.role) m d)
      | 0x0301 => if (estReadBad q.payload d).isSome then (m, d) else aixCommit none m d
      | 0x0503 => activationSettled q m d
      | 0x0602 => if flag F.PWR_PL_BUSY d then (m, d) else aixOut (opOk (q.payload.take 1) m d)
      | _ => (m, d)

/-- After an event: the outcomes taken up, the request in progress moved on, and the queue with it while TL0 runs. -/
def settle (md : List Host.Cell × Dev) : List Host.Cell × Dev :=
  let (m, d) := md
  let mine (r : SvcResult) : Bool := engineUp d || r.origin != .service 0
  let l := d.brg.results.filter mine
  let kept := if tl0Runs d then d.brg.results.filter (fun r => !mine r) else []
  let (m, d) := resultsTake l m { d with brg := { d.brg with results := kept } }
  if engineUp d then
    let (m, d) := curSettle m d
    aixGo m d
  else (m, d)

end Sys2Proof.Machine
end

