-- ==== Sys2Proof/Machine/AixRows.lean ====
section
/-!
DEFINITION. Machine/AixRows.lean: the rows of the Aidex requests (R330 to R359). Each is the request with its opcode as it reaches its port.
`hold`: the engine starts the request and commits it later, by AIX_CMT.
-/

namespace Sys2Proof.Machine

/-- A request with its opcode. -/
def reqOf (r : AixPacket) (opcode : Nat) (hold : Bool) (fault : Option Nat) : AixReq :=
  { via := r.via.val, src := r.src.toNat, sport := r.sport.toNat, ver := r.ver.toNat, drawer := r.drawer.val, opcode
    seq := r.seq.toNat, session := r.session.toNat, payload := r.payload, hold, fault }

/-- A request reaches its port. -/
def request (r : AixPacket) (opcode : Nat) (hold : Bool) (fault : Option Nat) (s : State) : Host.Outcome State Fault Refusal :=
  onBoth (aixArrive (reqOf r opcode hold fault)) s

def execHello (r : AixPacket) (s : State) : Host.Outcome State Fault Refusal := request r 1 false none s

def execBye (r : AixPacket) (s : State) : Host.Outcome State Fault Refusal := request r 2 false none s

def execPing (r : AixPacket) (s : State) : Host.Outcome State Fault Refusal := request r 3 false none s

def execStatus (r : AixPacket) (s : State) : Host.Outcome State Fault Refusal := request r 4 false none s

def execAbort (r : AixPacket) (s : State) : Host.Outcome State Fault Refusal := request r 5 false none s

/-- CONFIG_COMMIT; `fault`: the flash offset of an operation that fails after the commit (R382). -/
def execConfigCommit (r : AixPacket) (hold : Bool) (fault : Option Nat) (s : State) : Host.Outcome State Fault Refusal :=
  request r 0x0102 hold fault s

def execConfigLoad (r : AixPacket) (hold : Bool) (s : State) : Host.Outcome State Fault Refusal := request r 0x0101 hold none s

def execConfigRead (r : AixPacket) (hold : Bool) (s : State) : Host.Outcome State Fault Refusal := request r 0x0103 hold none s

def execPairRole (r : AixPacket) (hold : Bool) (s : State) : Host.Outcome State Fault Refusal := request r 0x0104 hold none s

def execArm (r : AixPacket) (hold : Bool) (s : State) : Host.Outcome State Fault Refusal := request r 0x0201 hold none s

def execDisarm (r : AixPacket) (hold : Bool) (s : State) : Host.Outcome State Fault Refusal := request r 0x0202 hold none s

def execStringCmd (r : AixPacket) (hold : Bool) (s : State) : Host.Outcome State Fault Refusal := request r 0x0203 hold none s

def execZoneClear (r : AixPacket) (hold : Bool) (s : State) : Host.Outcome State Fault Refusal := request r 0x0204 hold none s

def execChannelCmd (r : AixPacket) (hold : Bool) (s : State) : Host.Outcome State Fault Refusal := request r 0x0205 hold none s

def execOutputStatus (r : AixPacket) (hold : Bool) (s : State) : Host.Outcome State Fault Refusal := request r 0x0206 hold none s

def execEstRead (r : AixPacket) (hold : Bool) (s : State) : Host.Outcome State Fault Refusal := request r 0x0301 hold none s

def execRecordRead (r : AixPacket) (hold : Bool) (s : State) : Host.Outcome State Fault Refusal := request r 0x0302 hold none s

def execCellInit (r : AixPacket) (hold : Bool) (s : State) : Host.Outcome State Fault Refusal := request r 0x0303 hold none s

def execBalEnable (r : AixPacket) (hold : Bool) (s : State) : Host.Outcome State Fault Refusal := request r 0x0304 hold none s

def execBalSet (r : AixPacket) (hold : Bool) (s : State) : Host.Outcome State Fault Refusal := request r 0x0305 hold none s

def execLogRead (r : AixPacket) (hold : Bool) (s : State) : Host.Outcome State Fault Refusal := request r 0x0401 hold none s

def execLogStatus (r : AixPacket) (hold : Bool) (s : State) : Host.Outcome State Fault Refusal := request r 0x0402 hold none s

def execUpdateBegin (r : AixPacket) (hold : Bool) (s : State) : Host.Outcome State Fault Refusal := request r 0x0501 hold none s

def execUpdateBlock (r : AixPacket) (hold : Bool) (s : State) : Host.Outcome State Fault Refusal := request r 0x0502 hold none s

def execUpdateActivate (r : AixPacket) (hold : Bool) (s : State) : Host.Outcome State Fault Refusal := request r 0x0503 hold none s

def execUpdateStatus (r : AixPacket) (hold : Bool) (s : State) : Host.Outcome State Fault Refusal := request r 0x0504 hold none s

def execUpdateCancel (r : AixPacket) (hold : Bool) (s : State) : Host.Outcome State Fault Refusal := request r 0x0505 hold none s

def execSleep (r : AixPacket) (hold : Bool) (s : State) : Host.Outcome State Fault Refusal := request r 0x0601 hold none s

def execSetPlevel (r : AixPacket) (hold : Bool) (s : State) : Host.Outcome State Fault Refusal := request r 0x0602 hold none s

def execPowerStatus (r : AixPacket) (hold : Bool) (s : State) : Host.Outcome State Fault Refusal := request r 0x0603 hold none s

def execRegRead (r : AixPacket) (hold : Bool) (s : State) : Host.Outcome State Fault Refusal := request r 0x0701 hold none s

def execRegWrite (r : AixPacket) (hold : Bool) (s : State) : Host.Outcome State Fault Refusal := request r 0x0702 hold none s

def execSatRead (r : AixPacket) (hold : Bool) (s : State) : Host.Outcome State Fault Refusal := request r 0x0703 hold none s

def execSatWrite (r : AixPacket) (hold : Bool) (s : State) : Host.Outcome State Fault Refusal := request r 0x0704 hold none s

def execTenantCtrl (r : AixPacket) (hold : Bool) (s : State) : Host.Outcome State Fault Refusal := request r 0x0705 hold none s

def execNetSleepPolicy (r : AixPacket) (hold : Bool) (s : State) : Host.Outcome State Fault Refusal := request r 0x0801 hold none s

def execNetStatus (r : AixPacket) (hold : Bool) (s : State) : Host.Outcome State Fault Refusal := request r 0x0802 hold none s

def execRouteSend (r : AixPacket) (hold : Bool) (s : State) : Host.Outcome State Fault Refusal := request r 0x0803 hold none s

/-- TENANT_REQUEST: an opcode of the tenant class (R333). -/
def execTenantRequest (r : AixPacket) (opcode : BitVec 15) (s : State) : Host.Outcome State Fault Refusal :=
  request r (0x8000 + opcode.toNat) false none s

/-! ### What happens to requests and sessions -/

/-- AIX_CMT: the commit write of the request that waits for it (R343). -/
def aixCmt (m : List Host.Cell) (d : Dev) : List Host.Cell × Dev :=
  if d.aix.held && engineUp d then
    let (m, d) := aixCommit none m d
    aixGo m d
  else (m, d)

def execAixCmt (s : State) : Host.Outcome State Fault Refusal := onBoth aixCmt s

/-- INTERIM_REPLY (R340): ACCEPT_MS after the start of the request in progress; once, and not in version 1 (R331). -/
def interim (d : Dev) : Dev :=
  match d.aix.cur with
  | some q =>
    if q.ver < 2 ∨ d.aix.interim = true ∨ engineUp d = false then d
    else interimReply q (aixPut { d.aix with interim := true } d)
  | none => d

def execInterimReply (s : State) : Host.Outcome State Fault Refusal := onBlk 10 interim s

/-- SESSION_TIMEOUT (R332): the session of slot `key` mod 4 of drawer `key` / 4, or that of the wake port (32). -/
def execSessionTimeout (key : Fin 33) (s : State) : Host.Outcome State Fault Refusal := onBlk 10 (sessClose key.val 0 1) s

end Sys2Proof.Machine
end

