-- ==== Sys2Proof/Machine/Frame.lean ====
section
/-!
DEFINITION. Machine/Frame.lean: the close of a frame (R143) with the excitation it decides (R148, R149) and the satellites it finds (R498).
-/

namespace Sys2Proof.Machine

/-- The mask of starved strings. -/
def starved (d : Dev) : Nat := mask48 F.ACQ_STARVED_LO_STARVED F.ACQ_STARVED_HI_STARVED d

/-- Bytes put over others from place `i`. -/
def bytesPut (i : Nat) (new bs : List Byte) : List Byte := bs.take i ++ new ++ bs.drop (i + new.length)

/-- The message of R149 with a mask. -/
def excMessage (mask : Nat) (d : Dev) : List Byte :=
  let bs := (List.range 16).flatMap (fun k => leBytes 4 (fget (F.ACQ_EXC_TPL_BYTES k) d))
  let bs := if flag F.ACQ_EXC_PATCH_CNT_EN d then bytesPut (fget F.ACQ_EXC_PATCH_CNT_OFS d) (leBytes 1 d.acq.excCount) bs else bs
  let bs := if flag F.ACQ_EXC_PATCH_MASK_EN d then bytesPut (fget F.ACQ_EXC_PATCH_MASK_OFS d) (leBytes 6 mask) bs else bs
  bs.take (fget F.ACQ_EXC_ROUTE_LEN d)

/-- A message leaves through the entry of ACQ_EXC_ROUTE, if it is one that transmits; the counter goes on. -/
def excSend (mask : Nat) (d : Dev) : Dev :=
  let e := fget F.ACQ_EXC_ROUTE_ROUTE d
  let d' := if rtKind e d = 2 then (routeOut e (excMessage mask d) d).2 else d
  { d' with acq := { d'.acq with excCount := (d'.acq.excCount + 1) % 256 } }

/-- The conditions of step 1 of R148. -/
def excHolds (d : Dev) : Bool := flag F.ACQ_CTRL_EXC_EN d && zone d == 2 && [0, 3, 5].contains d.pair.role

/-- The decision of R148 at the close of frame `f`. -/
def excClose (f : Nat) (d : Dev) : Dev :=
  let out := flag F.ACQ_STATUS_EXC_OUT d
  let mask := starved d
  let c := d.acq.excCount
  let due := !out || decide ((fget F.ACQ_EXC_CTRL_REPEAT d : Int) ≤ sdiff32 (cycleNow d) d.acq.excLast)
  if excHolds d && mask != 0 then
    if !due then d
    else
      let d := fput F.ACQ_STATUS_EXC_OUT true (excSend mask d)
      let acq := { d.acq with excLast := cycleNow d, excFirst := if out then d.acq.excFirst else f }
      record 0x0324 mask (mask / 2 ^ 32 + c * 65536) f { d with acq }
  else if out then
    record 0x0325 ((f + 2 ^ 32 - d.acq.excFirst) % 2 ^ 32) c f (fput F.ACQ_STATUS_EXC_OUT false (excSend 0 d))
  else d

/-- FRAME_CLOSE: the count reaches ACQ_END, and the frame of the cycle before is closed, once. During a hold the count stands before it. -/
def frameClose (m : List Host.Cell) (d : Dev) : List Host.Cell × Dev :=
  if cut 3 d || !clocksRun d then (m, d)
  else
    let d := advanceTo d.ang.win.acqEnd d
    let f := (cycleNow d + 2 ^ 32 - 1) % 2 ^ 32
    if countNow d < d.ang.win.acqEnd ∨ d.acq.closed = some f then (m, d)
    else (m, satFrame m (excClose f (acqClose f d)))

def execFrameClose (s : State) : Host.Outcome State Fault Refusal := onBoth frameClose s

end Sys2Proof.Machine
end

