-- ==== Sys2Proof/Machine/Net.lean ====
section
/-!
DEFINITION. Machine/Net.lean: what the Ethernet ports and the wake port do besides taking requests: datagrams and their checks (R326, R329),
ARP, neighbour solicitations and echo (R326), link and PTP (R361), and the transfers of the wake port (R360, R457).
-/

namespace Sys2Proof.Machine

/-! ### Frames at an Ethernet port (R326) -/

/-- The port takes frames: it is enabled, and the device neither sleeps nor is held in reset. -/
def ethTakes (e : Nat) (d : Dev) : Bool := flag (F.ETH_CTRL_EN e) d && !d.pwr.sealed && !d.pwr.down

/-- The tag of a frame is as ETH_VLAN says. -/
def vlanOk (e : Nat) (vid : Option (BitVec 12)) (d : Dev) : Bool :=
  match vid with
  | some v => flag (F.ETH_VLAN_EN e) d && v.toNat == fget (F.ETH_VLAN_VID e) d
  | none => !flag (F.ETH_VLAN_EN e) d

/-- A frame reaches port `e`: counted, and passed on or discarded by its tag. -/
def ethFrame (e : Nat) (vid : Option (BitVec 12)) (f : Dev → Dev) (d : Dev) : Dev :=
  if !ethTakes e d then d
  else
    let d := fsat (F.ETH_CNT_RX_CNT e) 1 d
    if vlanOk e vid d then f d else fsat (F.ETH_CNT_DROP_CNT e) 1 d

/-- The port's IPv4 address (R364), in the form of R362; 0 where it has none. -/
def ownV4 (e : Nat) (d : Dev) : Nat :=
  let a := ethV4 F.ETH_IPV4_ADDR e d
  if flag (F.ETH_CTRL_IPV4_EN e) d && a != 0 then 0xFFFF * 2 ^ 32 + a else 0

/-- The interface identifier of RFC 4291 from the MAC address: FF FE between its halves, the universal bit inverted. -/
def linkLocal (e : Nat) (d : Dev) : Nat :=
  let mac := beNat (leBytes 4 (fget (F.ETH_MAC_LO_MAC e) d) ++ leBytes 2 (fget (F.ETH_MAC_HI_MAC e) d))
  0xFE80 * 2 ^ 112 + (((mac / 2 ^ 24) ^^^ 0x020000) * 2 ^ 40 + 0xFFFE * 2 ^ 24 + mac % 2 ^ 24)

/-- The port's IPv6 addresses: the link-local one, and the global one where it is configured. -/
def ownV6 (e : Nat) (d : Dev) : List Nat :=
  let a := ethV6 F.ETH_IPV6_ADDR e d
  if flag (F.ETH_CTRL_IPV6_EN e) d then linkLocal e d :: (if a = 0 then [] else [a]) else []

/-- A frame that the port sends. -/
def ethSend (e : Nat) (o : Output) (d : Dev) : Dev := send o (fsat (F.ETH_CNT_TX_CNT e) 1 d)

/-- ARP_REQUEST for the address `f.dst`. -/
def arpAsk (e : Nat) (f : NetFrame) (d : Dev) : Dev :=
  if f.dst.toNat ≠ 0 ∧ f.dst.toNat = ownV4 e d then ethSend e (.arpReply e (ethTag e d) f.src.toNat f.dst.toNat) d else d

def execArpRequest (port : Fin 2) (f : NetFrame) (s : State) : Host.Outcome State Fault Refusal :=
  onBlk (13 + port.val) (ethFrame port.val f.vid (arpAsk port.val f)) s

/-- NEIGHBOUR_SOLICITATION for the target `f.dst`. -/
def neighbourAsk (e : Nat) (f : NetFrame) (d : Dev) : Dev :=
  if (ownV6 e d).contains f.dst.toNat then
    ethSend e (.neighbourAdvert e (ethTag e d) f.src.toNat (nextHop e f.src.toNat d) f.dst.toNat) d
  else d

def execNeighbourSolicitation (port : Fin 2) (f : NetFrame) (s : State) : Host.Outcome State Fault Refusal :=
  onBlk (13 + port.val) (ethFrame port.val f.vid (neighbourAsk port.val f)) s

/-- ECHO_REQUEST with up to 1,500 bytes. -/
def echoAsk (e : Nat) (f : NetFrame) (bytes : List Byte) (d : Dev) : Dev :=
  if bytes.length ≤ 1500 ∧ (ownV4 e d :: ownV6 e d).contains f.dst.toNat = true ∧ f.dst ≠ 0 then
    ethSend e (.echoReply e (ethTag e d) f.src.toNat (nextHop e f.src.toNat d) bytes) d
  else d

def execEchoRequest (port : Fin 2) (f : NetFrame) (bytes : List Byte) (s : State) : Host.Outcome State Fault Refusal :=
  onBlk (13 + port.val) (ethFrame port.val f.vid (echoAsk port.val f bytes)) s

/-! ### Datagrams (R326, R329) -/

/-- The fields of a packet as its bytes give them. -/
def dgReq (via src sport : Nat) (bs : List Byte) : AixReq :=
  { via, src, sport, ver := field bs 0 1, drawer := field bs 1 1 % 8, opcode := field bs 2 2, seq := field bs 4 2
    session := field bs 12 4, payload := (bs.drop 16).take (field bs 6 2) }

/-- Check 1 of R329 over the bytes. -/
def dgForm (bs : List Byte) : Bool := decide (20 ≤ bs.length ∧ bs.length = field bs 6 2 + 20) && field bs 8 2 == 0

/-- Check 2 of R329. -/
def dgCrc (bs : List Byte) : Bool :=
  let n := 16 + field bs 6 2
  crc32c (bs.take n) == field bs n 4

/-- The checks of R329 on the bytes of a datagram. One that passes them is a request. -/
def dgChecks (q : AixReq) (bs : List Byte) (m : List Host.Cell) (d : Dev) : List Host.Cell × Dev :=
  if !dgForm bs || !formOk q then (m, fsat F.AIX_CNT_FMT_CNT 1 d)
  else if !dgCrc bs then (m, fsat F.AIX_CNT_CRC_CNT 1 d)
  else aixSource q m d

/-- DATAGRAM_DISCARDED: a datagram as it reaches an Ethernet port. A frame with a bad FCS is counted and discarded (R364, R405). -/
def datagram (g : Datagram) (m : List Host.Cell) (d : Dev) : List Host.Cell × Dev :=
  let e := g.port.val
  if g.badFcs then (m, if ethTakes e d && !cut (13 + e) d then fsat (F.ETH_CNT_FCS_CNT e) 1 (fsat (F.ETH_CNT_RX_CNT e) 1 d) else d)
  else if !portOpen e g.src.toNat d then (m, d)
  else
    let d := fsat (F.ETH_CNT_RX_CNT e) 1 d
    if !vlanOk e g.vid d || g.split || g.dport.toNat != fget F.AIX_PORT_PORT d then (m, fsat (F.ETH_CNT_DROP_CNT e) 1 d)
    else if !aixOn e d then (m, d)
    else dgChecks (dgReq e g.src.toNat g.sport.toNat g.bytes) g.bytes m d

def execDatagramDiscarded (g : Datagram) (s : State) : Host.Outcome State Fault Refusal := onBoth (datagram g) s

/-! ### Link and time (R361, R364) -/

/-- ETH_LINK: the link of port `e`, SGMII synchronised with it. -/
def ethLink (e : Nat) (up : Bool) (d : Dev) : Dev :=
  if flag (F.ETH_STATUS_LINK e) d == up then d
  else
    let d := fput (F.ETH_STATUS_LINK e) up (fput (F.ETH_STATUS_SYNC e) up d)
    fput (F.ETH_INT_STAT_LINK e) true (recordC 0x0908 e (b2n up) d)

def execEthLink (port : Fin 2) (up : Bool) (s : State) : Host.Outcome State Fault Refusal :=
  onBlk (13 + port.val) (ethLink port.val up) s

/-- ETH_PTP: synchronisation gained, by a port that is an end station, or lost (R57). -/
def ethPtp (e : Nat) (sync : Bool) (d : Dev) : Dev :=
  if flag (F.ETH_STATUS_PTP_SYNC e) d == sync || (sync && !flag (F.ETH_CTRL_PTP_EN e) d) then d
  else
    let d := fput (F.ETH_STATUS_PTP_SYNC e) sync d
    let d := fput (F.ETH_INT_STAT_PTP e) true (recordC 0x0909 e (b2n sync) d)
    if !sync && fget F.ANG_CTRL_PTP_PORT d == e then ptpLost d else d

def execEthPtp (port : Fin 2) (sync : Bool) (s : State) : Host.Outcome State Fault Refusal :=
  onBlk (13 + port.val) (ethPtp port.val sync) s

/-! ### The wake port (R360, R457, R463) -/

/-- TWP_ERROR with its cause and the bytes received. -/
def twpError (cause n : Nat) (d : Dev) : Dev := recordC 0x0C07 cause n (fsat F.TWP_CNT_ERR_CNT 1 d)

/-- A request packet is whole at the STOP. -/
def twpWhole (bs : List Byte) : Bool := decide (20 ≤ bs.length ∧ bs.length = field bs 6 2 + 20)

/-- TWP_WRITE_TRANSFER: the bytes after the address, at STOP. While the matcher serves the port the first of them is refused. -/
def twpWrite (bs : List Byte) (fast : Bool) (m : List Host.Cell) (d : Dev) : List Host.Cell × Dev :=
  let d := fput F.TWP_CTRL_FAST fast d
  if matcherOn d then (m, addressMatch (!bs.isEmpty) d)
  else if !twpOn d then (m, d)
  else if !twpWhole bs then (m, twpError 0 bs.length d)
  else if !dgCrc bs then (m, twpError 1 bs.length d)
  else
    let d := fsat F.TWP_CNT_RX_CNT 1 d
    let q := dgReq 2 0 0 bs
    if formOk q && field bs 8 2 == 0 then aixSource q m d else (m, fsat F.AIX_CNT_FMT_CNT 1 d)

def execTwpWriteTransfer (bytes : List Byte) (fast : Bool) (s : State) : Host.Outcome State Fault Refusal :=
  onBoth (twpWrite bytes fast) s

/-- A SLEEP whose reply has left begins (R452). -/
def twpSleepGo (d : Dev) : Dev :=
  match d.aix.twpSleep with
  | some st => sleepBegin st false (fset F.PWR_SLEEP_STATE st (aixPut { d.aix with twpSleep := none } d))
  | none => d

/-- TWP_READ_TRANSFER: the reply that is ready, behind its length, or the length 0. -/
def twpRead (fast : Bool) (d : Dev) : Dev :=
  let d := fput F.TWP_CTRL_FAST fast d
  if matcherOn d then addressMatch false d
  else if !d.pwr.booted then d
  else match d.aix.twp with
    | none => send (.twpRead [0, 0]) d
    | some bs =>
      let d := fput F.TWP_STATUS_TX_READY false (aixPut { d.aix with twp := none } d)
      twpSleepGo (send (.twpRead (leBytes 2 bs.length ++ bs)) (fsat F.TWP_CNT_TX_CNT 1 d))

def execTwpReadTransfer (fast : Bool) (s : State) : Host.Outcome State Fault Refusal := onDev (twpRead fast) s

/-- TWP_REPLY_EXPIRY: a reply that nobody has read for 1 s. -/
def twpExpiry (d : Dev) : Dev :=
  if d.aix.twp.isNone then d
  else twpError 2 0 (fput F.TWP_STATUS_TX_READY false (aixPut { d.aix with twp := none, twpSleep := none } d))

def execTwpReplyExpiry (s : State) : Host.Outcome State Fault Refusal := onDev twpExpiry s

end Sys2Proof.Machine
end

