-- ==== Sys2Proof/Machine/Settle.lean ====
section
/-!
DEFINITION. Machine/Settle.lean: the rows whose event can move a request of the management engine on: accesses at the bridges that end,
roles, levels, tests of TL0, and the commit write as a register access (R343, R347).
-/

namespace Sys2Proof.Machine

/-- An event of the block of slot `i`, and what the engine makes of it. -/
def onEvent (i : Nat) (f : Dev → Dev) (s : State) : Host.Outcome State Fault Refusal :=
  onBlkBoth i (fun m d => settle (m, f d)) s

/-- An event that no block's cut stops. -/
def onSettled (f : List Host.Cell → Dev → List Host.Cell × Dev) (s : State) : Host.Outcome State Fault Refusal :=
  onBoth (fun m d => settle (f m d)) s

/-! ### Bridges -/

def execKzbTransactionStart (n : Fin 16) (s : State) : Host.Outcome State Fault Refusal := onEvent 11 (kzStart n.val) s

def execRegResp (n : Fin 16) (pos seq result : Byte) (data : BitVec 16) (s : State) : Host.Outcome State Fault Refusal :=
  onEvent 11 (regResp n.val pos.toNat seq.toNat result.toNat data.toNat) s

def execSvcTimeout (n : Fin 16) (s : State) : Host.Outcome State Fault Refusal := onEvent 11 (svcTimeout n.val) s

def execKzbBusyRetry (n : Fin 16) (s : State) : Host.Outcome State Fault Refusal := onEvent 11 (busyRetry n.val) s

def execPeerResponse (i : Fin 8) (a : PeerAnswer) (s : State) : Host.Outcome State Fault Refusal :=
  onEvent 12 (peerResponse i.val a) s

def execPeerLinkDown (s : State) : Host.Outcome State Fault Refusal := onBlkBoth 12 (fun m d => settle (linkDownBoth m d)) s

/-! ### The pair -/

def execRoleExchange (r : RoleReport) (s : State) : Host.Outcome State Fault Refusal := onSettled (roleExchange r) s

def execRoleGrantAck (s : State) : Host.Outcome State Fault Refusal := onSettled (fun m d => (m, heardThen grantAck d)) s

def execPartnerLost (cause : Fin 3) (s : State) : Host.Outcome State Fault Refusal := onSettled (fun m d => (m, partnerLost cause.val d)) s

/-- ACTIVATION_GRANT (R499): the partner's answer to this member's request; its reason when it refuses. -/
def activationAnswer (granted : Bool) (reason : Nat) (d : Dev) : Dev :=
  if !d.upd.asked then d
  else if granted then updPut { d.upd with asked := false } d
  else activationRefused reason d

def execActivationGrant (granted : Bool) (reason : Fin 6) (s : State) : Host.Outcome State Fault Refusal :=
  onSettled (fun m d => (m, heardThen (activationAnswer granted reason.val) d)) s

/-! ### Power, boot, and the return of TL0 -/

def execPlChange (s : State) : Host.Outcome State Fault Refusal := onSettled (fun m d => (m, plChange d)) s

def execWakeDecision (w : SleepMeas) (s : State) : Host.Outcome State Fault Refusal := onSettled (wakeDecision w) s

def execBoot (rs : List TestResult) (slotB : Bool) (s : State) : Host.Outcome State Fault Refusal := onSettled (boot rs slotB) s

/-- COMPARATOR_TEST_DONE: when it returns TL0 to RUN the management engine starts again. -/
def testEnds (t : Nat) (r : TestResult) (m : List Host.Cell) (d : Dev) : List Host.Cell × Dev :=
  let was := tl0Runs d
  let (m, d) := withMonitor (testDone t r) m d
  if !was && tl0Runs d then engineResume m d else (m, d)

def execComparatorTestDone (t : Fin 5) (r : TestResult) (s : State) : Host.Outcome State Fault Refusal :=
  onSettled (testEnds t.val r) s

/-! ### Accesses that may be the commit write -/

/-- A write that AIX takes as a commit write (R343, R362): secure, GO set, for the request that waits for it. -/
def cmtWanted (a size data attr : Nat) (d : Dev) : Bool :=
  decide (a = 0x200A0018 ∧ size = 4) && attrWorld attr && data.testBit 16 && granted 3 a 4 1 attr d && !cut 10 d
    && d.aix.held && engineUp d
    && (match d.aix.cur with
      | some q => fget F.AIX_CMT_SEQ_SEQ d == q.seq && fget F.AIX_CMT_SEQ_DRAWER d == q.drawer && fget F.AIX_CMT_SEQ_SLOT d == q.slot % 4
      | none => false)

/-- The commit by such a write: with the status it carries, OK for the result that the request has come to. -/
def cmtBy (wanted : Bool) (data : Nat) (md : List Host.Cell × Dev) : List Host.Cell × Dev :=
  if wanted then
    let st := data % 65536
    let (m, d) := aixCommit (if st = stOk then none else some st) md.1 md.2
    aixGo m d
  else md

/-- REGISTER_WRITE: a write by trestle `t` with an attribute byte; `reg` is the register's number (R7, R9). -/
def registerWrite (t attr reg w : Nat) (m : List Host.Cell) (d : Dev) : List Host.Cell × Dev :=
  let a := 0x20000000 + reg
  let attr := attr ||| 0x80
  cmtBy (cmtWanted a 4 w attr d) w (postedWrite t attr a 4 w .good m d)

def execRegisterWrite (t : Fin 5) (attr : Byte) (reg : BitVec 21) (w : Word) (s : State) : Host.Outcome State Fault Refusal :=
  onBoth (registerWrite t.val attr.toNat reg.toNat w.toNat) s

/-- The entry that STORE_DRAIN lets out is a commit write. -/
def drainCmt (t : Nat) (chk : MemCheck) (parity : Bool) (d : Dev) : Bool × Nat :=
  match (tlOf t d).store with
  | e :: _ => (e.committed && !parity && chk != .targetParity && cmtWanted e.addr e.size e.data e.attr d, e.data)
  | [] => (false, 0)

def execStoreDrain (t : Fin 5) (chk : MemCheck) (parity : Bool) (s : State) : Host.Outcome State Fault Refusal :=
  onBoth (fun m d =>
    let c := drainCmt t.val chk parity d
    cmtBy c.1 c.2 (storeDrain t.val chk parity m d)) s

def execSystemBusAccess (write : Bool) (a : BitVec 40) (size : Fin 65) (data : DWord) (chk : MemCheck) (s : State) :
    Host.Outcome State Fault Refusal :=
  onBlkBoth 27 (fun m d =>
    let c := write && chk != .targetParity
      && cmtWanted a.toNat size.val data.toNat (attrOf (dbgMay true true d) 0 3 false (isIo a.toNat)) d
    cmtBy c data.toNat (systemBus write a.toNat size.val data.toNat chk m d)) s

def execPeerInboundComplete (chk : MemCheck) (s : State) : Host.Outcome State Fault Refusal := onBlkBoth 12 (peerInDone chk) s

end Sys2Proof.Machine
end

