-- ==== Sys2Proof/Machine/Dispatch.lean ====
section
/-!
DEFINITION. Machine/Dispatch.lean: one arm per command.
-/

namespace Sys2Proof.Machine

def exec (i : Instr) (s : State) : Host.Outcome State Fault Refusal :=
  match i with
  | .registerWrite t attr reg w => Sys2Proof.Machine.execRegisterWrite t attr reg w s
  | .executeInstruction t r chk => Sys2Proof.Machine.execExecuteInstruction t r chk s
  | .interruptTaken t cause => Sys2Proof.Machine.execInterruptTaken t cause s
  | .load t l chk => Sys2Proof.Machine.execLoad t l chk s
  | .loadDataReturn t parity => Sys2Proof.Machine.execLoadDataReturn t parity s
  | .storeDrain t chk parity => Sys2Proof.Machine.execStoreDrain t chk parity s
  | .comparatorMismatch t group bit halves => Sys2Proof.Machine.execComparatorMismatch t group bit halves s
  | .rollbackRestart t parity => Sys2Proof.Machine.execRollbackRestart t parity s
  | .divergenceInterval => Sys2Proof.Machine.execDivergenceInterval s
  | .dinChange t k level split => Sys2Proof.Machine.execDinChange t k level split s
  | .tlCtrlRestart t => Sys2Proof.Machine.execTlCtrlRestart t s
  | .tlCtrlStop t => Sys2Proof.Machine.execTlCtrlStop t s
  | .tlCtrlTest t => Sys2Proof.Machine.execTlCtrlTest t s
  | .tlCtrlClrCnt t => Sys2Proof.Machine.execTlCtrlClrCnt t s
  | .comparatorTestDone t r => Sys2Proof.Machine.execComparatorTestDone t r s
  | .tl0StoppedReset => Sys2Proof.Machine.execTl0StoppedReset s
  | .wgate t rs1 => Sys2Proof.Machine.execWgate t rs1 s
  | .wret t => Sys2Proof.Machine.execWret t s
  | .wentry t => Sys2Proof.Machine.execWentry t s
  | .wtenantWrite t tid => Sys2Proof.Machine.execWtenantWrite t tid s
  | .tenantReset t k => Sys2Proof.Machine.execTenantReset t k s
  | .tenantRelease k => Sys2Proof.Machine.execTenantRelease k s
  | .wldSecblkWrite w => Sys2Proof.Machine.execWldSecblkWrite w s
  | .cabRead t w busy => Sys2Proof.Machine.execCabRead t w busy s
  | .cabWrite t w busy => Sys2Proof.Machine.execCabWrite t w busy s
  | .cabLock t w busy => Sys2Proof.Machine.execCabLock t w busy s
  | .cabClear t w busy => Sys2Proof.Machine.execCabClear t w busy s
  | .cabDerive t w busy => Sys2Proof.Machine.execCabDerive t w busy s
  | .cabUndefinedOp t op w busy => Sys2Proof.Machine.execCabUndefinedOp t op w busy s
  | .dbgRtWrite rt => Sys2Proof.Machine.execDbgRtWrite rt s
  | .dbgProg raise key => Sys2Proof.Machine.execDbgProg raise key s
  | .otpProgrammed ok => Sys2Proof.Machine.execOtpProgrammed ok s
  | .haltRequest t => Sys2Proof.Machine.execHaltRequest t s
  | .resumeRequest t step => Sys2Proof.Machine.execResumeRequest t step s
  | .abstractCommand t r v => Sys2Proof.Machine.execAbstractCommand t r v s
  | .systemBusAccess write a size data chk => Sys2Proof.Machine.execSystemBusAccess write a size data chk s
  | .boundaryScanInstruction x => Sys2Proof.Machine.execBoundaryScanInstruction x s
  | .roleExchange r => Sys2Proof.Machine.execRoleExchange r s
  | .roleGrantAck => Sys2Proof.Machine.execRoleGrantAck s
  | .aloneWaitTimeout => Sys2Proof.Machine.execAloneWaitTimeout s
  | .partnerLost cause => Sys2Proof.Machine.execPartnerLost cause s
  | .digestMessage msg => Sys2Proof.Machine.execDigestMessage msg s
  | .digestLate => Sys2Proof.Machine.execDigestLate s
  | .stepReq n r on cycle => Sys2Proof.Machine.execStepReq n r on cycle s
  | .stepConf n r cycle => Sys2Proof.Machine.execStepConf n r cycle s
  | .stepRefuse n => Sys2Proof.Machine.execStepRefuse n s
  | .stepGo n r cycle => Sys2Proof.Machine.execStepGo n r cycle s
  | .closeAbandoned => Sys2Proof.Machine.execCloseAbandoned s
  | .partnerTripNotice zone n => Sys2Proof.Machine.execPartnerTripNotice zone n s
  | .closeEndNotice n => Sys2Proof.Machine.execCloseEndNotice n s
  | .activationRequest same => Sys2Proof.Machine.execActivationRequest same s
  | .alignRequest ps => Sys2Proof.Machine.execAlignRequest ps s
  | .alignTransfer f bs good => Sys2Proof.Machine.execAlignTransfer f bs good s
  | .peerAngleMessage ts usable => Sys2Proof.Machine.execPeerAngleMessage ts usable s
  | .angleMessageSend => Sys2Proof.Machine.execAngleMessageSend s
  | .cycleBoundary m t => Sys2Proof.Machine.execCycleBoundary m t s
  | .bandClassify m => Sys2Proof.Machine.execBandClassify m s
  | .coastMaxExpiry => Sys2Proof.Machine.execCoastMaxExpiry s
  | .slewComplete => Sys2Proof.Machine.execSlewComplete s
  | .timestampHoldEnd => Sys2Proof.Machine.execTimestampHoldEnd s
  | .ptpSync port offset t => Sys2Proof.Machine.execPtpSync port offset t s
  | .ptpSyncMissing => Sys2Proof.Machine.execPtpSyncMissing s
  | .peerAngleMissing => Sys2Proof.Machine.execPeerAngleMissing s
  | .angPtpCommit => Sys2Proof.Machine.execAngPtpCommit s
  | .forceHold on => Sys2Proof.Machine.execForceHold on s
  | .holdWarn => Sys2Proof.Machine.execHoldWarn s
  | .angleUnqualified => Sys2Proof.Machine.execAngleUnqualified s
  | .angNowLoRead t => Sys2Proof.Machine.execAngNowLoRead t s
  | .slotCtrlWrite n reg v => Sys2Proof.Machine.execSlotCtrlWrite n reg v s
  | .slotFire n => Sys2Proof.Machine.execSlotFire n s
  | .receiverLock n r => Sys2Proof.Machine.execReceiverLock n r s
  | .receiverLockLoss n p => Sys2Proof.Machine.execReceiverLockLoss n p s
  | .frameTruncated n p t => Sys2Proof.Machine.execFrameTruncated n p t s
  | .dataBurst n port bs parity => Sys2Proof.Machine.execDataBurst n port bs parity s
  | .dataRetx n port bs => Sys2Proof.Machine.execDataRetx n port bs s
  | .retxSend n => Sys2Proof.Machine.execRetxSend n s
  | .retxTimeout n => Sys2Proof.Machine.execRetxTimeout n s
  | .alert n port p c a => Sys2Proof.Machine.execAlert n port p c a s
  | .kzcAlertFifoRead t => Sys2Proof.Machine.execKzcAlertFifoRead t s
  | .syncReceived n port b travel => Sys2Proof.Machine.execSyncReceived n port b travel s
  | .mastershipTakeover n => Sys2Proof.Machine.execMastershipTakeover n s
  | .chainFailed n => Sys2Proof.Machine.execChainFailed n s
  | .chainHeal n => Sys2Proof.Machine.execChainHeal n s
  | .enum n => Sys2Proof.Machine.execEnum n s
  | .enumSend n => Sys2Proof.Machine.execEnumSend n s
  | .enumReturnTimeout n => Sys2Proof.Machine.execEnumReturnTimeout n s
  | .enumResp n r => Sys2Proof.Machine.execEnumResp n r s
  | .enumReceived n e => Sys2Proof.Machine.execEnumReceived n e s
  | .enumCommit n => Sys2Proof.Machine.execEnumCommit n s
  | .fill n => Sys2Proof.Machine.execFill n s
  | .reenumDue n => Sys2Proof.Machine.execReenumDue n s
  | .fillInEnum n => Sys2Proof.Machine.execFillInEnum n s
  | .chClrCnt n => Sys2Proof.Machine.execChClrCnt n s
  | .regResp n pos seq result data => Sys2Proof.Machine.execRegResp n pos seq result data s
  | .svcTimeout n => Sys2Proof.Machine.execSvcTimeout n s
  | .kzbTransactionStart n => Sys2Proof.Machine.execKzbTransactionStart n s
  | .kzbBusyRetry n => Sys2Proof.Machine.execKzbBusyRetry n s
  | .retryExpired j => Sys2Proof.Machine.execRetryExpired j s
  | .frameClose => Sys2Proof.Machine.execFrameClose s
  | .estimateWorkStart => Sys2Proof.Machine.execEstimateWorkStart s
  | .cellUpdate l r => Sys2Proof.Machine.execCellUpdate l r s
  | .paramReloaded k => Sys2Proof.Machine.execParamReloaded k s
  | .ucodeReloaded version => Sys2Proof.Machine.execUcodeReloaded version s
  | .estimateCutoff => Sys2Proof.Machine.execEstimateCutoff s
  | .estimateWorkEnd => Sys2Proof.Machine.execEstimateWorkEnd s
  | .publishCommit => Sys2Proof.Machine.execPublishCommit s
  | .estCellInit cell all atFrame => Sys2Proof.Machine.execEstCellInit cell all atFrame s
  | .estCtrlEn on => Sys2Proof.Machine.execEstCtrlEn on s
  | .estClrCnt => Sys2Proof.Machine.execEstClrCnt s
  | .laneRestore mask => Sys2Proof.Machine.execLaneRestore mask s
  | .laneRestored l pass => Sys2Proof.Machine.execLaneRestored l pass s
  | .switchInputEdge j level => Sys2Proof.Machine.execSwitchInputEdge j level s
  | .analogSample k value => Sys2Proof.Machine.execAnalogSample k value s
  | .safeNFall => Sys2Proof.Machine.execSafeNFall s
  | .safeExit => Sys2Proof.Machine.execSafeExit s
  | .protCmdArm => Sys2Proof.Machine.execProtCmdArm s
  | .protCmdDisarm => Sys2Proof.Machine.execProtCmdDisarm s
  | .zclr => Sys2Proof.Machine.execZclr s
  | .protCmdReconf => Sys2Proof.Machine.execProtCmdReconf s
  | .protStrCmdClose n => Sys2Proof.Machine.execProtStrCmdClose n s
  | .protStrCmdOpen n => Sys2Proof.Machine.execProtStrCmdOpen n s
  | .protStrCmdClr n => Sys2Proof.Machine.execProtStrCmdClr n s
  | .protKick key => Sys2Proof.Machine.execProtKick key s
  | .kickMissed => Sys2Proof.Machine.execKickMissed s
  | .engineHoldExpiry => Sys2Proof.Machine.execEngineHoldExpiry s
  | .contactorFbFault n r => Sys2Proof.Machine.execContactorFbFault n r s
  | .lsoFault k => Sys2Proof.Machine.execLsoFault k s
  | .lsoOpenLoad k => Sys2Proof.Machine.execLsoOpenLoad k s
  | .chCmdOn ch on => Sys2Proof.Machine.execChCmdOn ch on s
  | .chCmdClr ch => Sys2Proof.Machine.execChCmdClr ch s
  | .chPwmDuty ch duty => Sys2Proof.Machine.execChPwmDuty ch duty s
  | .pwmPeriodStart ch vf => Sys2Proof.Machine.execPwmPeriodStart ch vf s
  | .pullInEnd ch => Sys2Proof.Machine.execPullInEnd ch s
  | .slewRampEnd ch => Sys2Proof.Machine.execSlewRampEnd ch s
  | .inrushWindowEnd ch low => Sys2Proof.Machine.execInrushWindowEnd ch low s
  | .currentLimit ch => Sys2Proof.Machine.execCurrentLimit ch s
  | .chShort ch => Sys2Proof.Machine.execChShort ch s
  | .chOvertemp ch byDt tj dt => Sys2Proof.Machine.execChOvertemp ch byDt tj dt s
  | .channelRetry ch => Sys2Proof.Machine.execChannelRetry ch s
  | .restartCountClear ch => Sys2Proof.Machine.execRestartCountClear ch s
  | .chOpenLoad ch => Sys2Proof.Machine.execChOpenLoad ch s
  | .offStateTest ch hiOff hiOn => Sys2Proof.Machine.execOffStateTest ch hiOff hiOn s
  | .lossEstimate vaux ms => Sys2Proof.Machine.execLossEstimate vaux ms s
  | .lossBudget => Sys2Proof.Machine.execLossBudget s
  | .supplyUvStart vaux => Sys2Proof.Machine.execSupplyUvStart vaux s
  | .supplyUvEnd => Sys2Proof.Machine.execSupplyUvEnd s
  | .supplyOvStart vaux => Sys2Proof.Machine.execSupplyOvStart vaux s
  | .supplyOvEnd => Sys2Proof.Machine.execSupplyOvEnd s
  | .groundLoss => Sys2Proof.Machine.execGroundLoss s
  | .datagramDiscarded g => Sys2Proof.Machine.execDatagramDiscarded g s
  | .hello r => Sys2Proof.Machine.execHello r s
  | .bye r => Sys2Proof.Machine.execBye r s
  | .ping r => Sys2Proof.Machine.execPing r s
  | .status r => Sys2Proof.Machine.execStatus r s
  | .abort r => Sys2Proof.Machine.execAbort r s
  | .sessionTimeout key => Sys2Proof.Machine.execSessionTimeout key s
  | .interimReply => Sys2Proof.Machine.execInterimReply s
  | .aixCmt => Sys2Proof.Machine.execAixCmt s
  | .configLoad r hold => Sys2Proof.Machine.execConfigLoad r hold s
  | .configCommit r hold fault => Sys2Proof.Machine.execConfigCommit r hold fault s
  | .configRead r hold => Sys2Proof.Machine.execConfigRead r hold s
  | .pairRole r hold => Sys2Proof.Machine.execPairRole r hold s
  | .arm r hold => Sys2Proof.Machine.execArm r hold s
  | .disarm r hold => Sys2Proof.Machine.execDisarm r hold s
  | .stringCmd r hold => Sys2Proof.Machine.execStringCmd r hold s
  | .zoneClear r hold => Sys2Proof.Machine.execZoneClear r hold s
  | .channelCmd r hold => Sys2Proof.Machine.execChannelCmd r hold s
  | .outputStatus r hold => Sys2Proof.Machine.execOutputStatus r hold s
  | .estRead r hold => Sys2Proof.Machine.execEstRead r hold s
  | .recordRead r hold => Sys2Proof.Machine.execRecordRead r hold s
  | .cellInit r hold => Sys2Proof.Machine.execCellInit r hold s
  | .balEnable r hold => Sys2Proof.Machine.execBalEnable r hold s
  | .balSet r hold => Sys2Proof.Machine.execBalSet r hold s
  | .logRead r hold => Sys2Proof.Machine.execLogRead r hold s
  | .logStatus r hold => Sys2Proof.Machine.execLogStatus r hold s
  | .updateBegin r hold => Sys2Proof.Machine.execUpdateBegin r hold s
  | .stagingEraseDone => Sys2Proof.Machine.execStagingEraseDone s
  | .updateBlock r hold => Sys2Proof.Machine.execUpdateBlock r hold s
  | .updateActivate r hold => Sys2Proof.Machine.execUpdateActivate r hold s
  | .updateStatus r hold => Sys2Proof.Machine.execUpdateStatus r hold s
  | .updateCancel r hold => Sys2Proof.Machine.execUpdateCancel r hold s
  | .sleep r hold => Sys2Proof.Machine.execSleep r hold s
  | .setPlevel r hold => Sys2Proof.Machine.execSetPlevel r hold s
  | .powerStatus r hold => Sys2Proof.Machine.execPowerStatus r hold s
  | .regRead r hold => Sys2Proof.Machine.execRegRead r hold s
  | .regWrite r hold => Sys2Proof.Machine.execRegWrite r hold s
  | .satRead r hold => Sys2Proof.Machine.execSatRead r hold s
  | .satWrite r hold => Sys2Proof.Machine.execSatWrite r hold s
  | .tenantCtrl r hold => Sys2Proof.Machine.execTenantCtrl r hold s
  | .netSleepPolicy r hold => Sys2Proof.Machine.execNetSleepPolicy r hold s
  | .netStatus r hold => Sys2Proof.Machine.execNetStatus r hold s
  | .routeSend r hold => Sys2Proof.Machine.execRouteSend r hold s
  | .tenantRequest r opcode => Sys2Proof.Machine.execTenantRequest r opcode s
  | .tenantReply k v => Sys2Proof.Machine.execTenantReply k v s
  | .drwReqCons k v => Sys2Proof.Machine.execDrwReqCons k v s
  | .tenantTimeout j => Sys2Proof.Machine.execTenantTimeout j s
  | .aixClrCnt => Sys2Proof.Machine.execAixClrCnt s
  | .arpRequest port f => Sys2Proof.Machine.execArpRequest port f s
  | .neighbourSolicitation port f => Sys2Proof.Machine.execNeighbourSolicitation port f s
  | .echoRequest port f bytes => Sys2Proof.Machine.execEchoRequest port f bytes s
  | .ethLink port up => Sys2Proof.Machine.execEthLink port up s
  | .ethPtp port sync => Sys2Proof.Machine.execEthPtp port sync s
  | .ethCntClr e => Sys2Proof.Machine.execEthCntClr e s
  | .twpWriteTransfer bytes fast => Sys2Proof.Machine.execTwpWriteTransfer bytes fast s
  | .twpReadTransfer fast => Sys2Proof.Machine.execTwpReadTransfer fast s
  | .twpReplyExpiry => Sys2Proof.Machine.execTwpReplyExpiry s
  | .powerOnReset xtal => Sys2Proof.Machine.execPowerOnReset xtal s
  | .rstNReset => Sys2Proof.Machine.execRstNReset s
  | .groundReturnReset => Sys2Proof.Machine.execGroundReturnReset s
  | .brownOut => Sys2Proof.Machine.execBrownOut s
  | .hutchRetentionLoss => Sys2Proof.Machine.execHutchRetentionLoss s
  | .sysReset key => Sys2Proof.Machine.execSysReset key s
  | .boot rs slotB => Sys2Proof.Machine.execBoot rs slotB s
  | .sysWakeAck => Sys2Proof.Machine.execSysWakeAck s
  | .bankConfirmed => Sys2Proof.Machine.execBankConfirmed s
  | .beNPop t => Sys2Proof.Machine.execBeNPop t s
  | .beSPop t => Sys2Proof.Machine.execBeSPop t s
  | .brgClr => Sys2Proof.Machine.execBrgClr s
  | .peerLinkUp ver two => Sys2Proof.Machine.execPeerLinkUp ver two s
  | .peerLinkDown => Sys2Proof.Machine.execPeerLinkDown s
  | .peerLane lane => Sys2Proof.Machine.execPeerLane lane s
  | .peerLinkControlFrame acked rtt zone => Sys2Proof.Machine.execPeerLinkControlFrame acked rtt zone s
  | .peerRetransmit n => Sys2Proof.Machine.execPeerRetransmit n s
  | .peerIdleControl => Sys2Proof.Machine.execPeerIdleControl s
  | .peerRequest write a size data => Sys2Proof.Machine.execPeerRequest write a size data s
  | .peerInboundComplete chk => Sys2Proof.Machine.execPeerInboundComplete chk s
  | .peerResponse j a => Sys2Proof.Machine.execPeerResponse j a s
  | .peerRequestRetry j => Sys2Proof.Machine.execPeerRequestRetry j s
  | .peerClr => Sys2Proof.Machine.execPeerClr s
  | .canFrameReceived n f sof => Sys2Proof.Machine.execCanFrameReceived n f sof s
  | .keepAlive n node data sof => Sys2Proof.Machine.execKeepAlive n node data sof s
  | .txCmd n p route len go => Sys2Proof.Machine.execTxCmd n p route len go s
  | .txCancel n p tag go under => Sys2Proof.Machine.execTxCancel n p tag go under s
  | .txDoneRead n p => Sys2Proof.Machine.execTxDoneRead n p s
  | .rxPop n p => Sys2Proof.Machine.execRxPop n p s
  | .canTxSuccess n since => Sys2Proof.Machine.execCanTxSuccess n since s
  | .canTxError n since f => Sys2Proof.Machine.execCanTxError n since f s
  | .canTtlExpiry n under => Sys2Proof.Machine.execCanTtlExpiry n under s
  | .recover n => Sys2Proof.Machine.execRecover n s
  | .canBusOn n => Sys2Proof.Machine.execCanBusOn n s
  | .canMode n => Sys2Proof.Machine.execCanMode n s
  | .canXcvrState n st => Sys2Proof.Machine.execCanXcvrState n st s
  | .canTxdTimeout n => Sys2Proof.Machine.execCanTxdTimeout n s
  | .canBusWake n => Sys2Proof.Machine.execCanBusWake n s
  | .canCntClr n => Sys2Proof.Machine.execCanCntClr n s
  | .nsmEn on => Sys2Proof.Machine.execNsmEn on s
  | .keepAliveSend => Sys2Proof.Machine.execKeepAliveSend s
  | .nodeVoteExpiry j => Sys2Proof.Machine.execNodeVoteExpiry j s
  | .idleExpiry => Sys2Proof.Machine.execIdleExpiry s
  | .nmSleepCommit => Sys2Proof.Machine.execNmSleepCommit s
  | .nmNodeCapped j => Sys2Proof.Machine.execNmNodeCapped j s
  | .nsmNodeCappedClear j => Sys2Proof.Machine.execNsmNodeCappedClear j s
  | .pwrPlWrite lv => Sys2Proof.Machine.execPwrPlWrite lv s
  | .plChange => Sys2Proof.Machine.execPlChange s
  | .pwrSleepGo st => Sys2Proof.Machine.execPwrSleepGo st s
  | .sleepSeal fEntry => Sys2Proof.Machine.execSleepSeal fEntry s
  | .switchWake j => Sys2Proof.Machine.execSwitchWake j s
  | .twpAddressMatch data => Sys2Proof.Machine.execTwpAddressMatch data s
  | .wakeDecision m => Sys2Proof.Machine.execWakeDecision m s
  | .hutchClock => Sys2Proof.Machine.execHutchClock s
  | .pwrCgWrite t attr w => Sys2Proof.Machine.execPwrCgWrite t attr w s
  | .pwrRstWrite t attr w => Sys2Proof.Machine.execPwrRstWrite t attr w s
  | .pwrPswWrite t attr w => Sys2Proof.Machine.execPwrPswWrite t attr w s
  | .recordWrite r => Sys2Proof.Machine.execRecordWrite r s
  | .repeatExpiry => Sys2Proof.Machine.execRepeatExpiry s
  | .timeMark => Sys2Proof.Machine.execTimeMark s
  | .ringOpened r => Sys2Proof.Machine.execRingOpened r s
  | .subCmd t code go => Sys2Proof.Machine.execSubCmd t code go s
  | .rdSeq t seq => Sys2Proof.Machine.execRdSeq t seq s
  | .canArbitrationLost n since => Sys2Proof.Machine.execCanArbitrationLost n since s
  | .canReceiveError n heavy => Sys2Proof.Machine.execCanReceiveError n heavy s
  | .canXcvrMoveComplete n => Sys2Proof.Machine.execCanXcvrMoveComplete n s
  | .activationGrant granted reason => Sys2Proof.Machine.execActivationGrant granted reason s
  | .partnerUpdateReport r => Sys2Proof.Machine.execPartnerUpdateReport r s
  | .perFramePeerMessage syncs enums => Sys2Proof.Machine.execPerFramePeerMessage syncs enums s
  | .delayTableTransfer n dly => Sys2Proof.Machine.execDelayTableTransfer n dly s

end Sys2Proof.Machine
end

