-- ==== Sys2Proof/Safety.lean ====
section
/-!
DEFINITION. Safety.lean: the terms the statements use: what a command does where it completes, and what the device keeps true.
-/

namespace Sys2Proof.Machine

/-- The register file is in canonical form: numbers rise, and no register is listed at its reset value. -/
def regsWf (d : Dev) : Bool := tabWf regReset d.regs

/-- Command `c` completes on every device that meets `H`: exec answers the next state in which the device is `f` of what it was. Nothing
else of the state changes: every byte of the memories and the queue stand. -/
def Completes (c : Instr) (H : Dev → Prop) (f : Dev → Dev) : Prop :=
  ∀ s : State, H s.dev → exec c s = .next { s with dev := f s.dev }

/-- The same for a command whose effect reads or writes the memories: exec answers the memories and the device that `f` gives. -/
def CompletesBoth (c : Instr) (H : List Host.Cell → Dev → Prop) (f : List Host.Cell → Dev → List Host.Cell × Dev) : Prop :=
  ∀ s : State, H s.mem s.dev → exec c s = .next { s with mem := (f s.mem s.dev).1, dev := (f s.mem s.dev).2 }

/-- Command `c` is without effect on every device that meets `H`: exec answers the state as it was. -/
def Ignored (c : Instr) (H : Dev → Prop) : Prop := ∀ s : State, H s.dev → exec c s = .next s

/-- The block in slot `i` is whole: not gated, not held in reset, not unpowered. -/
def whole (i : Nat) (d : Dev) : Prop := cut i d = false

/-- The Kazilo block is whole and chain `n` is enabled: its ports hear their receivers (R91). -/
def chainHears (n : Nat) (d : Dev) : Prop := whole 4 d ∧ fbit F.KZC_CTRL_CH_EN n d = true

/-- Any device. -/
def always (_ : Dev) : Prop := True

/-- The device once the cabinet has taken an operation: CAB_CMD, the owner in CAB_STAT, and no error yet. -/
def cabTaken (t op w : Nat) (d : Dev) : Dev :=
  fset F.CAB_STAT_ERR 0 (fset F.CAB_STAT_OWNER t (regPut R.CAB_CMD (BitVec.ofNat 32 (bitsPut (w % 2 ^ 20) 0 4 op)) d))

/-- The same for an event after which the requests that waited for something are taken up again (`settle`). -/
def Settles (c : Instr) (H : Dev → Prop) (f : List Host.Cell → Dev → List Host.Cell × Dev) : Prop :=
  CompletesBoth c (fun _ => H) (fun m d => settle (f m d))

/-- The device once the partner's role message `r` is kept, and told where the configurations or the slots do not agree. -/
def roleHeard (r : RoleReport) (d : Dev) : Dev :=
  pairTell r (partnerZonePut r.zone (pairPut { d.pair with report := some r, partnerCrc := some r.crc.toNat } d))

/-- The counts that the next frame's work starts after its time (R71, R72). -/
def workCarried (d : Dev) : Nat := (tsDiff d.est.pubEnd (frameTs (nextFrame d) d.ang.win.start)).toNat

/-- The device once ANG_SCHED.DELAY shows them. -/
def delayShown (d : Dev) : Dev := fset F.ANG_SCHED_DELAY (min (workCarried d) 65535) d

/-- Every load channel and every low-side output is off, no coil is commanded, and the zone is in CONFIG_HOLD. -/
def outputsOff (d : Dev) : Prop :=
  (∀ ch : Nat, ch < 32 → chState ch d = 0 ∧ flag (F.LSW_CH_STAT_OUT ch) d = false) ∧
    (∀ k : Nat, k < 16 → fbit F.IOX_LSO_STAT_STATE k d = false) ∧ (∀ c : Nat, coilOn c d = false) ∧ zone d = 0

/-- A member's trestle fault (R281): TL0, or a trestle of CRIT_MASK, is STOPPED or FAULTED. -/
def trestleFaulty (d : Dev) : Prop :=
  ∃ t : Nat, t < 5 ∧ (t = 0 ∨ fbit F.CPX_CFG_CRIT_MASK t d = true) ∧ (tlState t d = 5 ∨ tlState t d = 6)

/-! ### Aidex requests -/

/-- The device once the packet of `r` is counted at its Ethernet port. -/
def portCounted (r : AixReq) (d : Dev) : Dev := fsat (F.ETH_CNT_RX_CNT r.via) 1 d

/-- The request with the session `x` of slot `k`. -/
def inSession (r : AixReq) (k : Nat) (x : AixSession) : AixReq := { r with session := x.id, slot := k }

/-- The device once that session is used by the packet, too. -/
def aixHeard (r : AixReq) (k : Nat) (x : AixSession) (d : Dev) : Dev :=
  sessPut k (some { x with last := d.clk }) (portCounted r d)

/-- The packet of `r` comes to an Ethernet port that takes it, with a form and a source that R329 permits, while the engine runs. -/
def PortTakes (r : AixReq) (d : Dev) : Prop :=
  r.via < 2 ∧ portOpen r.via r.src d = true ∧ aixOn r.via (portCounted r d) = true ∧ formOk r = true ∧
    aclPermits r.drawer r.src (portCounted r d) = true ∧ engineUp (portCounted r d) = true

/-- It is of the open session `x` in slot `k`, no repeat, and passes checks 1 to 4 of R346. -/
def SessionTakes (r : AixReq) (k : Nat) (x : AixSession) (d : Dev) : Prop :=
  PortTakes r d ∧ r.opcode ≠ 1 ∧ sessFind r (portCounted r d) = some k ∧ sessOf k (portCounted r d) = some x ∧ r.ver = x.ver ∧
    (opRd r.opcode = true ∨ cached (inSession r k x) (aixHeard r k x d) = none) ∧
    repeated (inSession r k x) (aixHeard r k x d) = none ∧ opcodeRefused (inSession r k x) = false ∧
    drawerRefuses (inSession r k x) = false

/-- The engine begins request `q`. -/
def aixBegin (q : AixReq) (d : Dev) : Dev :=
  aixPut { d.aix with cur := some q, held := false, ready := none, interim := false, deferred := [], found := [] } d

/-- The device as the engine begins the request of `r`. -/
def engineBegun (r : AixReq) (k : Nat) (x : AixSession) (d : Dev) : Dev := aixBegin (inSession r k x) (aixHeard r k x d)

/-- The request is one for the engine, which is idle, and passes checks 5 to 7 of R346. -/
def EngineTakes (r : AixReq) (k : Nat) (x : AixSession) (d : Dev) : Prop :=
  SessionTakes r k x d ∧ opTenant r.opcode = false ∧ opFast r.opcode = false ∧ r.raw = false ∧ d.aix.cur = none ∧ d.aix.queue = [] ∧
    drawerFull r.drawer (aixHeard r k x d) = false ∧ windowFull (inSession r k x) (aixHeard r k x d) = false ∧
    workCheck (inSession r k x) (engineBegun r k x d) = none

end Sys2Proof.Machine
end

