-- ==== Sys2Proof/Certificates/Slice0/Obligations.lean ====
section
/-!
DEFINITION. Certificates/Slice0/Obligations.lean: the statements for the provers.
-/

open Sys2Proof Sys2Proof.Machine

/-- For every command c and every state whose queue is c followed by rest, one step answers what exec answers for c on the state
with rest as its queue. -/
def Obligations.StepTakesFront : Prop :=
  ∀ (c : Instr) (rest : List Instr) (s : State), s.pending = c :: rest → step s = exec c { s with pending := rest }

/-- With no command waiting, one step answers the state after one 100 MHz tick; that a tick stands in place of idling is the model's
choice (assumption log 25). With the clocks running and no hold, clk rises by 1 and the accumulator gains ANG_INC, up to the
last value of its cycle; memories and queue stand. -/
def Obligations.IdleStepIsOneTick : Prop :=
  ∀ s : State, s.pending = [] →
    step s = .next { s with dev := tick s.dev } ∧
    (clocksRun s.dev = true → flag F.ANG_STATUS_HELD s.dev = false → (s.dev.clk + 1) % 100000000 ≠ 0 →
      (tick s.dev).clk = s.dev.clk + 1 ∧
      (tick s.dev).ang.acc = min (s.dev.ang.acc + fget F.ANG_INC_INC s.dev) (accLast s.dev) ∧
      (tick s.dev).regs = s.dev.regs) ∧
    (clocksRun s.dev = false → tick s.dev = s.dev)

/-- For every command and every state, exec answers a next state, never a fault or a refusal, and the queue is as it was. -/
def Obligations.EveryCommandAnswers : Prop :=
  ∀ (c : Instr) (s : State), ∃ t : State, exec c s = .next t ∧ t.pending = s.pending

/-- From every state, running k steps, with k at most the number of waiting commands, answers a next state whose queue is what was
left behind the first k commands; and the run is the run of exec over those k commands in order, the first of them first. -/
def Obligations.QueueServedFirstInFirstOut : Prop :=
  (∀ (k : Nat) (s : State), k ≤ s.pending.length →
    ∃ t : State, Sys2Proof.core.run k s = .next t ∧ t.pending = s.pending.drop k) ∧
  (∀ (k : Nat) (c : Instr) (rest : List Instr) (s t : State), s.pending = c :: rest →
    exec c { s with pending := rest } = .next t → Sys2Proof.core.run (k + 1) s = Sys2Proof.core.run k t)

/-- From every state whose memories are in canonical form (addresses strictly rising, no byte listed that reads as it would
unlisted), every step answers a state whose memories are in canonical form, so that equal memories are equal data. -/
def Obligations.MemoryFormKeptByEveryStep : Prop :=
  ∀ s t : State, Memory.wf s.mem = true → step s = .next t → Memory.wf t.mem = true

/-- State.reset has an empty queue, memories and a register file in canonical form, nothing sent, and every register reads the value
that its table row gives. -/
def Obligations.ResetIsWellFormed : Prop :=
  State.reset.pending = [] ∧ Memory.wf State.reset.mem = true ∧ regsWf State.reset.dev = true ∧ State.reset.dev.out = [] ∧
  ∀ a : Nat, regGet State.reset.dev a = regReset a

/-- After reset DEVICE of SYS_ID is 0x7100, STEPPING 0xB1 and PACKAGE 0x01. On every device the fields are RO: after a write of any
word, from either world, the register reads as before. The reply to a HELLO carries the same three values in its bytes 8 to 11. -/
def Obligations.IdentificationAfterReset : Prop :=
  (fget F.SYS_ID_DEVICE State.reset.dev = 0x7100 ∧ fget F.SYS_ID_STEPPING State.reset.dev = 0xB1 ∧
    fget F.SYS_ID_PACKAGE State.reset.dev = 0x01) ∧
  (∀ (secure : Bool) (w : Word) (d : Dev), regGet (fieldsWrite R.SYS_ID secure w.toNat d) R.SYS_ID = regGet d R.SYS_ID) ∧
  ∀ (r : AixReq) (v id : Nat) (d : Dev), ((helloBytes r v id d).drop 8).take 4 =
    leBytes 4 (fget F.SYS_ID_DEVICE d * 65536 + fget F.SYS_ID_STEPPING d * 256 + fget F.SYS_ID_PACKAGE d)

/-- With bit i of PWR_CG, PWR_RST or PWR_PSW set (cut), the commands named here of the block in slot i leave the state as it is
(that they take no events is the model's reading, log 48): commands of the Kazilo chains (slot 4), the estimator bench (5), the
load switches (7), the Aidex engine's timers and drawers (10), the bridges (11), the peer interface (12), the Ethernet ports
(13, 14), the CAN channels (16 to 21), the network sleep manager (22), the update engine (24), the pins (25) and the debug
module (27). -/
def Obligations.CutBlockTakesNoCommand : Prop :=
  (∀ on, Ignored (.estCtrlEn on) (cut 5 · = true)) ∧ Ignored .estClrCnt (cut 5 · = true) ∧
  Ignored .publishCommit (cut 5 · = true) ∧ Ignored .estimateWorkEnd (cut 5 · = true) ∧
  (∀ l r, Ignored (.cellUpdate l r) (cut 5 · = true)) ∧
  (∀ n r, Ignored (.receiverLock n r) (cut 4 · = true)) ∧ (∀ n, Ignored (.enum n) (cut 4 · = true)) ∧
  (∀ n port p c a, Ignored (.alert n port p c a) (cut 4 · = true)) ∧
  (∀ ch on, Ignored (.chCmdOn ch on) (cut 7 · = true)) ∧ (∀ ch, Ignored (.chShort ch) (cut 7 · = true)) ∧
  (∀ vaux, Ignored (.supplyUvStart vaux) (cut 7 · = true)) ∧ Ignored .groundLoss (cut 7 · = true) ∧
  (∀ key, Ignored (.sessionTimeout key) (cut 10 · = true)) ∧ Ignored .aixClrCnt (cut 10 · = true) ∧
  (∀ k v, Ignored (.drwReqCons k v) (cut 10 · = true)) ∧
  (∀ n, Ignored (.kzbTransactionStart n) (cut 11 · = true)) ∧ (∀ j, Ignored (.retryExpired j) (cut 11 · = true)) ∧
  (∀ ver two, Ignored (.peerLinkUp ver two) (cut 12 · = true)) ∧ Ignored .peerLinkDown (cut 12 · = true) ∧
  (∀ e up, Ignored (.ethLink e up) (cut (13 + e.val) · = true)) ∧ (∀ e f, Ignored (.arpRequest e f) (cut (13 + e.val) · = true)) ∧
  (∀ n f sof, Ignored (.canFrameReceived n f sof) (cut (16 + n.val) · = true)) ∧
  (∀ n p e l go, Ignored (.txCmd n p e l go) (cut (16 + n.val) · = true)) ∧
  (∀ on, Ignored (.nsmEn on) (cut 22 · = true)) ∧ Ignored .nmSleepCommit (cut 22 · = true) ∧
  Ignored .bankConfirmed (cut 24 · = true) ∧ Ignored .stagingEraseDone (cut 24 · = true) ∧
  (∀ i level, Ignored (.switchInputEdge i level) (cut 25 · = true)) ∧ (∀ k, Ignored (.lsoFault k) (cut 25 · = true)) ∧
  (∀ t, Ignored (.haltRequest t) (cut 27 · = true)) ∧ (∀ rt, Ignored (.dbgRtWrite rt) (cut 27 · = true))

/-- Once a sleep state S2, S3 or S4 is in effect the clocks of the angle do not run: a tick changes nothing, and neither does any of
the fourteen commands of the angle timebase named here. -/
def Obligations.AngleStandsInDeepSleep : Prop :=
  (∀ d : Dev, d.pwr.sealed = true → 2 ≤ d.pwr.target → clocksRun d = false ∧ tick d = d) ∧
  (∀ m p, Ignored (.cycleBoundary m p) (clocksRun · = false)) ∧ (∀ m, Ignored (.bandClassify m) (clocksRun · = false)) ∧
  Ignored .coastMaxExpiry (clocksRun · = false) ∧ Ignored .slewComplete (clocksRun · = false) ∧
  Ignored .timestampHoldEnd (clocksRun · = false) ∧ (∀ port ofs p, Ignored (.ptpSync port ofs p) (clocksRun · = false)) ∧
  Ignored .ptpSyncMissing (clocksRun · = false) ∧ Ignored .peerAngleMissing (clocksRun · = false) ∧
  (∀ ts u, Ignored (.peerAngleMessage ts u) (clocksRun · = false)) ∧ Ignored .angleMessageSend (clocksRun · = false) ∧
  (∀ n, Ignored (.slotFire n) (clocksRun · = false)) ∧ (∀ on, Ignored (.forceHold on) (clocksRun · = false)) ∧
  Ignored .holdWarn (clocksRun · = false) ∧ Ignored .angleUnqualified (clocksRun · = false)

/-- REGISTER_WRITE: a write that the peripheral controller grants, of a register on a 4-byte offset in a block that answers, and
that is no commit write, sets the register by regWrite, with the monitor's copy for a trestle that it releases (R368; log 27),
and changes nothing else. LOAD: in RUN, with no load under way and no latched answer, a granted fetch, and an address outside
the I/O regions that translates, the load goes out at its physical address with its attribute byte. LOAD_DATA_RETURN: data that
has come retires the load; an error raises its fault instead. STORE_DRAIN: the oldest committed store, which is no commit write,
leaves the buffer to the fabric as a posted write. -/
def Obligations.TrestleAccessesComplete : Prop :=
  (∀ (t : Fin 5) (attr : Byte) (reg : BitVec 21) (w : Word), CompletesBoth (.registerWrite t attr reg w)
    (fun _ d => let a := 0x20000000 + reg.toNat
      let attr := attr.toNat ||| 0x80
      accessTarget a 4 = some 3 ∧ granted 3 a 4 1 attr d = true ∧ reg.toNat % 4 = 0 ∧ slotDead (reg.toNat / 0x10000) d = false ∧
        cmtWanted a 4 w.toNat attr d = false)
    (fun m d => withMonitor (regWrite t.val (attr.toNat ||| 0x80) reg.toNat w.toNat m) m d)) ∧
  (∀ (t : Fin 5) (l : LoadOp) (chk : MemCheck) (pc pa : Nat), CompletesBoth (.load t l chk)
    (fun m d => tlIdle t.val d = false ∧ (tlOf t.val d).load = none ∧ (tlOf t.val d).latch = none ∧ fetchPa t.val m d = .ok pc ∧
      loadTrap l (tlOf t.val d).arch = none ∧ isIo pa = false ∧
      translate m (fetchFill t.val pc d) (tlOf t.val d).arch (dataMode (tlOf t.val d).arch l.hyp).1
        (dataMode (tlOf t.val d).arch l.hyp).2 .read l.va.toNat = .ok pa)
    (fun m d => (m, loadSend t.val { op := l, addr := pa, attr := (tlAttr (tlOf t.val d).arch
      (dataMode (tlOf t.val d).arch l.hyp).1 (dataMode (tlOf t.val d).arch l.hyp).2 pa) } chk m (fetchFill t.val pc d)))) ∧
  (∀ (t : Fin 5) (l : BusLoad) (v : Nat), Completes (.loadDataReturn t false)
    (fun d => (tlOf t.val d).load = some l ∧ l.error = none ∧ l.data = some v ∧ tlIdle t.val d = false)
    (fun d => loadRetire t.val l v d)) ∧
  (∀ (t : Fin 5) (l : BusLoad) (e : Nat × Nat × Nat) (p : Bool), Completes (.loadDataReturn t p)
    (fun d => (tlOf t.val d).load = some l ∧ l.error = some e ∧ tlIdle t.val d = false)
    (fun d => loadFault t.val e.1 e.2.1 (l.op.va.toNat + e.2.2 - l.addr) d)) ∧
  (∀ (t : Fin 5) (chk : MemCheck) (e : SbEntry) (rest : List SbEntry), CompletesBoth (.storeDrain t chk false)
    (fun _ d => (tlOf t.val d).store = e :: rest ∧ e.committed = true ∧ cmtWanted e.addr e.size e.data e.attr d = false)
    (fun m d => postedWrite t.val e.attr e.addr e.size e.data chk m (tlPut t.val { tlOf t.val d with store := rest } d)))

/-- REGISTER_WRITE of EST_INIT_FRAME that the peripheral controller grants, with the bench whole: exec answers a next state in which
the register reads the word written, every other register reads as before, and memories, output and queue stand. LOAD in RUN,
with no load under way, no latched answer and no bridge read open, whose instruction is fetched at pc, whose address translates
to pa in a memory, not in an I/O region, with the read granted and no word of it bad: the load then holds the bytes of that
memory at pa, with the bytes of the buffered stores over them; memories and queue stand. LOAD_DATA_RETURN of data that has come,
in RUN, without a parity error: the destination register holds the value extended to 64 bits (x0 keeps 0), the pc is the next
one, no load is under way; memories and queue stand. -/
def Obligations.TrestleAccessesTakeEffect : Prop :=
  (∀ (t : Fin 5) (attr : Byte) (w : Word) (s : State),
    granted 3 (0x20000000 + R.EST_INIT_FRAME) 4 1 (attr.toNat ||| 0x80) s.dev = true → whole 5 s.dev →
    ∃ u : State, exec (.registerWrite t attr (BitVec.ofNat 21 R.EST_INIT_FRAME) w) s = .next u ∧
      regGet u.dev R.EST_INIT_FRAME = w ∧ (∀ r : Nat, r ≠ R.EST_INIT_FRAME → regGet u.dev r = regGet s.dev r) ∧
      u.mem = s.mem ∧ u.dev.out = s.dev.out ∧ u.pending = s.pending) ∧
  (∀ (t : Fin 5) (l : LoadOp) (pc pa c : Nat) (s : State),
    let m := dataMode (tlOf t.val s.dev).arch l.hyp
    let attr := tlAttr (tlOf t.val s.dev).arch m.1 m.2 pa
    tlIdle t.val s.dev = false → (tlOf t.val s.dev).load = none → (tlOf t.val s.dev).latch = none → s.dev.brg.held = [] →
    s.dev.brg.peerOut = [] → fetchPa t.val s.mem s.dev = .ok pc → loadTrap l (tlOf t.val s.dev).arch = none →
    translate s.mem (fetchFill t.val pc s.dev) (tlOf t.val s.dev).arch m.1 m.2 .read l.va.toNat = .ok pa →
    isIo pa = false → accessTarget pa l.size = some c → (c = 0 ∨ c = 1 ∨ c = 2 ∨ c = 6 ∨ c = 7 ∨ c = 8) →
    granted c pa l.size 0 attr (fetchFill t.val pc s.dev) = true → badMeets pa l.size s.dev = none →
    ∃ u : State, exec (.load t l .good) s = .next u ∧
      (tlOf t.val u.dev).load = some { op := l, addr := pa, attr := attr
                                       data := some (bufferOver (tlOf t.val s.dev).store pa l.size (leNat (memRead s.mem pa l.size))) } ∧
      u.mem = s.mem ∧ u.pending = s.pending) ∧
  (∀ (t : Fin 5) (l : BusLoad) (v : Nat) (s : State), (tlOf t.val s.dev).load = some l → l.error = none → l.data = some v →
    tlIdle t.val s.dev = false → l.op.fp = false →
    ∃ u : State, exec (.loadDataReturn t false) s = .next u ∧
      (∀ i : Fin 32, tabGet (fun _ => (0 : DWord)) (tlOf t.val u.dev).arch.x i.val =
        if i = l.op.rd ∧ i ≠ 0 then loadValue l.op v else tabGet (fun _ => (0 : DWord)) (tlOf t.val s.dev).arch.x i.val) ∧
      (tlOf t.val u.dev).arch.pc = l.op.next ∧ (tlOf t.val u.dev).load = none ∧ u.mem = s.mem ∧ u.pending = s.pending)

/-- STORE_DRAIN of the oldest committed entry, whose bytes lie in SRAM, MRAM, DRAM, or the estimator store while the bench is not
enabled, and whose write its region controller grants, with no check failing and no bad word met: the memories after it are
those before with the entry's bytes, least significant first, from its address on; every byte outside them reads as before; the
entry has left the buffer; nothing is sent and no bus error is captured. -/
def Obligations.DrainedStoreReachesMemory : Prop :=
  ∀ (t : Fin 5) (e : SbEntry) (rest : List SbEntry) (c : Nat) (s : State),
    (tlOf t.val s.dev).store = e :: rest → e.committed = true → (c = 1 ∨ c = 2 ∨ c = 7 ∨ c = 8) →
    accessTarget e.addr e.size = some c → (c = 2 → flag F.EST_CTRL_EN s.dev = false) → granted c e.addr e.size 1 e.attr s.dev = true → badMeets e.addr e.size s.dev = none →
    ∃ u : State, exec (.storeDrain t .good false) s = .next u ∧
      u.mem = memWrite e.addr (leBytes e.size e.data) s.mem ∧
      (∀ a : Nat, (a < e.addr ∨ e.addr + e.size ≤ a) → memByte u.mem a = memByte s.mem a) ∧
      (tlOf t.val u.dev).store = rest ∧ u.dev.out = s.dev.out ∧ u.dev.brg = s.dev.brg ∧ u.dev.aix = s.dev.aix ∧
      u.pending = s.pending

/-- EXECUTE_INSTRUCTION: an instruction in RUN, fetched under a grant from no bad word, without an epoch rule of its own, a CSR
access or a store, and without a floating-point result while the unit is off, writes its registers, moves the PC and retires.
INTERRUPT_TAKEN: with no load under way, an interrupt that is pending and that the hart takes traps it. COMPARATOR_MISMATCH at a
bit that the comparator checks, with no witness record standing: the mismatch is shown in TL_MISM, and the trestle faults with
cause 0, with cause 5 when the halves disagree. ROLLBACK_RESTART in ROLLBACK: the checkpoint is restored, mcycle apart, and the
trestle is in RUN; with a parity error in a shadow register it faults with cause 3; in any other state nothing happens. -/
def Obligations.TrestleExecutionCompletes : Prop :=
  (∀ (t : Fin 5) (x : Option (Fin 32 × DWord)) (f : Option (Fin 32 × DWord)) (next : DWord) (pa : Nat),
    CompletesBoth (.executeInstruction t { next, x, f } .good)
    (fun m d => tlIdle t.val d = false ∧ (tlOf t.val d).load = none ∧ fetchPa t.val m d = .ok pa ∧
      badMeets pa 2 d = none ∧ (f = none ∨ fsOff (tlOf t.val d).arch = false))
    (fun m d => (m,
      let d1 := fetchFill t.val pa d
      retired t.val false (tlPut t.val { tlOf t.val d1 with
        arch := { regWrites { next, x, f } (tlOf t.val d1).arch with pc := next } } d1)))) ∧
  (∀ (t : Fin 5) (cause : BitVec 6), Completes (.interruptTaken t cause)
    (fun d => tlIdle t.val d = false ∧ (tlOf t.val d).load = none ∧
      (cause = 3 ∨ cause = 7 ∨ irqPends t.val cause.toNat d = true) ∧ irqTaken t.val cause.toNat (tlOf t.val d).arch = true)
    (fun d => trap t.val true cause.toNat 0 (tlPut t.val { tlOf t.val d with
      irq := if cause.toNat = 16 ∨ cause.toNat = 17 ∨ cause.toNat = 18 then maskPut (tlOf t.val d).irq cause.toNat false
        else (tlOf t.val d).irq } d))) ∧
  (∀ (t : Fin 5) (group : BitVec 4) (bit : BitVec 7) (halves : Bool), Completes (.comparatorMismatch t group bit halves)
    (fun d => tlState t.val d = 3 ∧ (tlOf t.val d).wit = [] ∧ bit.toNat < groupBits group.toNat)
    (fun d => tlFault t.val (if halves then 5 else 0) group.toNat bit.toNat
      (fset (F.TL_MISM_CYC_CYC t.val) (d.fcyc % 2 ^ 32) (fput (F.TL_MISM_ATTRIB t.val) false
        (fset (F.TL_MISM_BIT t.val) bit.toNat (fset (F.TL_MISM_GROUP t.val) group.toNat d)))))) ∧
  (∀ (t : Fin 5), Completes (.rollbackRestart t false)
    (fun d => tlState t.val d = 4 ∧ (tlOf t.val d).stepDue = false ∧ (tlOf t.val d).haltDue = false)
    (fun d => let x := tlOf t.val d
      tlStatePut t.val 3 (tlPut t.val { x with arch := { x.shadow with csr := (tabSet (fun _ => (0 : DWord)) x.shadow.csr 0xB00
        (tabGet (fun _ => (0 : DWord)) x.arch.csr 0xB00)) } } d))) ∧
  (∀ (t : Fin 5), Completes (.rollbackRestart t true) (fun d => tlState t.val d = 4) (fun d => tlFault t.val 3 0 0 d)) ∧
  (∀ (t : Fin 5) (p : Bool), Ignored (.rollbackRestart t p) (fun d => tlState t.val d ≠ 4))

/-- DIVERGENCE_INTERVAL: the count of every trestle starts again. DIN_CHANGE of a routed input: the level is kept; the two
synchronisers agreeing, no witness record is made; a change raises local interrupt 16 where DIN_IE enables it. RESTART releases
a READY trestle, with the copy of its image to DEST where it has a boot descriptor (log 27 says that the boot ROM and the
monitor take no instruction of their own), and takes a STOPPED or FAULTED one through the test; STOP stops a running one without
a fault; TEST tests a READY, STOPPED or FAULTED one; CLR_CNT zeroes TL_CNT_A and TL_CNT_B. RESTART, STOP and TEST are ignored
for TL0. COMPARATOR_TEST_DONE with a pass at the first release: TEST_OK, 4,096 cycles, READY. TL0_STOPPED_RESET: a device reset
with cause 3 when CPX_CTRL.TL0_RESET is 1 and TL0 is STOPPED. -/
def Obligations.TrestleControlCompletes : Prop :=
  Completes .divergenceInterval always (each (List.range 5) (fun t d => tlPut t { tlOf t d with divs := 0 } d)) ∧
  (∀ (t : Fin 5) (k : Fin 16) (level : Bool), Completes (.dinChange t k level false)
    (fun d => fget (F.TL_DIN_SRC t.val (k.val / 4) (k.val % 4)) d < 48)
    (fun d => let d1 := tlPut t.val { tlOf t.val d with din := maskPut (tlOf t.val d).din k.val level } d
      if maskBit (tlOf t.val d).din k.val ≠ level ∧ fbit (F.TL_DIN_IE_IE t.val) k.val d1 = true
        then localIrq t.val 16 d1 else d1)) ∧
  (∀ (t : Fin 5), Completes (.tlCtrlRestart t) (fun d => t ≠ 0 ∧ tlState t.val d = 1 ∧ bootOf t.val d = none) (tlRelease t.val)) ∧
  (∀ (t : Fin 5) (b : BootDesc), CompletesBoth (.tlCtrlRestart t)
    (fun _ d => t ≠ 0 ∧ tlState t.val d = 1 ∧ bootOf t.val d = some b)
    (fun m d => (memPlace b.dest (memRead m (flashBase + b.ofs) b.len) m, badCovered b.dest b.len (tlRelease t.val d)))) ∧
  (∀ (t : Fin 5), Completes (.tlCtrlRestart t) (fun d => t ≠ 0 ∧ (tlState t.val d = 5 ∨ tlState t.val d = 6)) (tlRestart t.val)) ∧
  (∀ (t : Fin 5), Completes (.tlCtrlStop t) (fun d => t ≠ 0 ∧ tlState t.val d = 3)
    (fun d => notices t.val (recordC 0x0707 t.val 0 (tlStatePut t.val 5 (tlHalt t.val true d))))) ∧
  (∀ (t : Fin 5), Completes (.tlCtrlTest t) (fun d => t ≠ 0 ∧ (tlState t.val d = 1 ∨ tlState t.val d = 5 ∨ tlState t.val d = 6))
    (fun d => tlStatePut t.val 2 (tlPut t.val { tlOf t.val d with after := tlState t.val d + 10 } d))) ∧
  (∀ (t : Fin 5), Completes (.tlCtrlClrCnt t) always (fun d => regPut (R.TL_CNT_B t.val) 0 (regPut (R.TL_CNT_A t.val) 0 d))) ∧
  Ignored (.tlCtrlRestart 0) always ∧ Ignored (.tlCtrlStop 0) always ∧ Ignored (.tlCtrlTest 0) always ∧
  (∀ (t : Fin 5), CompletesBoth (.comparatorTestDone t .pass)
    (fun _ d => t ≠ 0 ∧ tlState t.val d = 2 ∧ (tlOf t.val d).after = 0 ∧ tl0Runs d = true)
    (fun m d => settle (m, tlStatePut t.val 1 (fset (F.TL_TEST_TEST_CYC t.val) 4096
      (fput (F.TL_STAT_TEST_OK t.val) true (regPut (R.TL_TEST t.val) 0 d)))))) ∧
  Completes .tl0StoppedReset (fun d => tlState 0 d = 5 ∧ flag F.CPX_CTRL_TL0_RESET d = true ∧ d.pwr.down = false)
    (fun d => deviceReset 3 (send (.deviceReset 3) d)) ∧
  Ignored .tl0StoppedReset (fun d => tlState 0 d ≠ 5 ∨ flag F.CPX_CTRL_TL0_RESET d = false)

/-- In RUN, with no interrupt that the hart takes pending: WGATE in HS mode whose four checks pass saves the return address and the
status, sets W and ACT, clears MIE and continues in M-mode at rs1 + 4, in an epoch of its own; one whose check fails raises
exception 24 with tval rs1 and records GATE_FAULT with the reason; elsewhere than in HS mode it raises an illegal or a virtual
instruction exception; with such an interrupt pending, the interrupt is taken instead. WRET in M-mode with W and ACT returns to
the privilege, V and MIE of WSTATUS at WEPC, and W falls on TL1 to TL4 unless PP names M-mode (the model's choice, log 74); a
secure interrupt that is pending is taken at once; elsewhere it is illegal. WENTRY moves the PC on. WTENANT_WRITE writes the
tag, where the access is permitted, and raises its exception where it is not. A trestle that is not in RUN, or is halted,
ignores WGATE, WRET and WENTRY. -/
def Obligations.GatewayCompletes : Prop :=
  (∀ (t : Fin 5) (rs1 : DWord), CompletesBoth (.wgate t rs1)
    (fun m d => tlIdle t.val d = false ∧ irqNext t.val d = none ∧ wgateTrap (tlOf t.val (epochCommit t.val d)).arch = none ∧
      wgateReason rs1.toNat m (epochCommit t.val d) = none)
    (fun m d => (m, let d1 := epochCommit t.val d
      let x := tlOf t.val d1
      let st := mst x.arch
      retired t.val true (tlPut t.val { x with arch := { mstPut (bitsPut st 3 1 0) x.arch with
        wepc := x.arch.pc + 4, wstatus := BitVec.ofNat 5 (1 + 1 * 2 + b2n (st.testBit 3) * 16), w := true, priv := 3, v := false,
        pc := rs1 + 4 } } d1)))) ∧
  (∀ (t : Fin 5) (rs1 : DWord) (why : Nat), CompletesBoth (.wgate t rs1)
    (fun m d => tlIdle t.val d = false ∧ irqNext t.val d = none ∧ wgateTrap (tlOf t.val (epochCommit t.val d)).arch = none ∧
      wgateReason rs1.toNat m (epochCommit t.val d) = some why)
    (fun m d => (m, trap t.val false 24 rs1.toNat
      (recordC 0x0801 rs1.toNat ((rs1.toNat >>> 32) % 256 + why * 256 + t.val * 2 ^ 16) (epochCommit t.val d))))) ∧
  (∀ (t : Fin 5) (rs1 : DWord) (e : Nat), Completes (.wgate t rs1)
    (fun d => tlIdle t.val d = false ∧ irqNext t.val d = none ∧ wgateTrap (tlOf t.val (epochCommit t.val d)).arch = some e)
    (fun d => trap t.val false e 0 (epochCommit t.val d))) ∧
  (∀ (t : Fin 5) (rs1 : DWord) (c : Nat), Completes (.wgate t rs1)
    (fun d => tlIdle t.val d = false ∧ irqNext t.val d = some c) (fun d => interruptTaken t.val c d)) ∧
  (∀ (t : Fin 5), Completes (.wret t)
    (fun d => tlIdle t.val d = false ∧ (tlOf t.val d).arch.priv = 3 ∧ (tlOf t.val d).arch.w = true ∧
      (tlOf t.val d).arch.wstatus.getLsbD 0 = true)
    (fun d => let d1 := epochCommit t.val d
      let x := tlOf t.val d1
      let st := x.arch.wstatus.toNat
      secureIrqTake t.val (retired t.val true (tlPut t.val { x with arch := { mstPut (bitsPut (mst x.arch) 3 1 (bitsOf st 4 1)) x.arch with
        priv := bitsOf st 1 2, v := st.testBit 3 && t.val != 0 && bitsOf st 1 2 != 3, wstatus := BitVec.ofNat 5 (st / 2 * 2),
        w := t.val == 0 || bitsOf st 1 2 == 3, pc := x.arch.wepc } } d1)))) ∧
  (∀ (t : Fin 5), Completes (.wret t)
    (fun d => tlIdle t.val d = false ∧ ((tlOf t.val d).arch.priv ≠ 3 ∨ (tlOf t.val d).arch.w = false ∨
      (tlOf t.val d).arch.wstatus.getLsbD 0 = false)) (fun d => trap t.val false 2 0 d)) ∧
  (∀ (t : Fin 5), Completes (.wentry t) (fun d => tlIdle t.val d = false)
    (fun d => retired t.val false (tlPut t.val { tlOf t.val d with arch := { (tlOf t.val d).arch with pc := (tlOf t.val d).arch.pc + 4 } } d))) ∧
  (∀ (t : Fin 5) (tid : BitVec 3), Completes (.wtenantWrite t tid)
    (fun d => tlIdle t.val d = false ∧ csrTrap t.val 0x5C0 true d = none)
    (fun d => let d1 := tenantTag t.val tid.toNat d
      retired t.val false (tlPut t.val { tlOf t.val d1 with
        arch := { (tlOf t.val d1).arch with pc := (tlOf t.val d1).arch.pc + 4 } } d1))) ∧
  (∀ (t : Fin 5) (tid : BitVec 3) (e : Nat), Completes (.wtenantWrite t tid)
    (fun d => tlIdle t.val d = false ∧ csrTrap t.val 0x5C0 true d = some e) (fun d => trap t.val false e 0 d)) ∧
  (∀ (t : Fin 5) (rs1 : DWord), Ignored (.wgate t rs1) (tlIdle t.val · = true)) ∧
  (∀ (t : Fin 5), Ignored (.wret t) (tlIdle t.val · = true)) ∧ (∀ (t : Fin 5), Ignored (.wentry t) (tlIdle t.val · = true))

/-- TENANT_RESET of tenant 1 to 7 in ACTIVE or FAULTED: BLOCKED, the loads and bridge transfers of the tenant dropped, its ANG slots
disabled, its drawer emptied, the state RESET, local interrupt 18 on the trestles of TLMASK and TENANT_RESET recorded.
TENANT_RELEASE from RESET: FAULTED and blocked when a trestle of TLMASK is FAULTED or STOPPED, else ACTIVE. Tenant 0 ignores
both, and so does a tenant in another state. WLD_SECBLK_WRITE sets the mask with its fixed bits, unless WLD_CTRL.LOCK is set. -/
def Obligations.TenantsAndSecureBlocksComplete : Prop :=
  (∀ (t : Fin 5) (k : Fin 8), Completes (.tenantReset t k)
    (fun d => k.val ≠ 0 ∧ (tenState k.val d = 1 ∨ tenState k.val d = 2))
    (fun d =>
      let d1 := kzCancel k.val (loadsDrop k.val (fput (F.WLD_TEN_STAT_BLOCKED k.val) true d))
      let d2 := drawerEmpty k.val (each (slotsOf k.val d1) (fun n => fput (F.SLOT_CTRL_EN n) false) d1)
      let d3 := fsat (F.WLD_TEN_STAT_RESETS k.val) 1 (fset (F.WLD_TEN_STAT_STATE k.val) 3 d2)
      recordC 0x0807 k.val t.val (tenantIrq k.val
        { d3 with worlds := { d3.worlds with resetAt := tabSet (fun _ => 0) d3.worlds.resetAt k.val d3.clk } }))) ∧
  (∀ (t : Fin 5) (k : Fin 8), Ignored (.tenantReset t k)
    (fun d => k.val = 0 ∨ (tenState k.val d ≠ 1 ∧ tenState k.val d ≠ 2))) ∧
  (∀ (k : Fin 8), Completes (.tenantRelease k) (fun d => k.val ≠ 0 ∧ tenState k.val d = 3)
    (fun d =>
      let bad := (List.range 5).any (fun u =>
        fbit (F.WLD_TEN_CFG_TLMASK k.val) u d && (tlState u d == 5 || tlState u d == 6))
      let d1 := fset (F.WLD_TEN_STAT_STATE k.val) (if bad then 2 else 1) (fput (F.WLD_TEN_STAT_BLOCKED k.val) bad d)
      recordC 0x0808 k.val (msSince (tabGet (fun _ => 0) d1.worlds.resetAt k.val) d1) d1)) ∧
  (∀ (k : Fin 8), Ignored (.tenantRelease k) (fun d => k.val = 0 ∨ tenState k.val d ≠ 3)) ∧
  (∀ (w : Word), Completes (.wldSecblkWrite w) (flag F.WLD_CTRL_LOCK · = false)
    (fset F.WLD_SECBLK_SEC ((w.toNat &&& 0x1FFF7FFF) ||| secFixed))) ∧
  (∀ (w : Word), Ignored (.wldSecblkWrite w) (flag F.WLD_CTRL_LOCK · = true))

/-- READ of a slot that holds bytes with EXP 1 shows them in CAB_DATA; WRITE of 1 to 64 bytes to a slot without LK fills it; LOCK of
a filled slot sets LK; CLEAR of a slot without LK empties it; DERIVE with a filled key slot and an unlocked target writes the
HMAC-SHA-384 of the first LEN bytes of CAB_DATA with EXP 0; operations 6 to 15 do nothing but show error 6. READ with EXP 0
shows error 2, of an empty slot 4; WRITE or CLEAR of a locked slot 3; a WRITE of 0 or more than 64 bytes 5; LOCK of an empty
slot 4; DERIVE from an empty key slot 4, else to a locked target 3, else with LEN 0 or more than 64 error 5; each of these
errors is recorded as CABINET_REFUSED. A write that meets a running operation sets error 1 alone. -/
def Obligations.CabinetOperationsComplete : Prop :=
  (∀ (t : Fin 5) (w : BitVec 20) (bs : List Byte), Completes (.cabRead t w false)
    (fun d => let x := cabOf (fget F.CAB_CMD_SLOT (cabTaken t.val 1 w.toNat d)) d
      x.bytes = some bs ∧ x.exp = true) (fun d => cabShow bs (cabTaken t.val 1 w.toNat d))) ∧
  (∀ (t : Fin 5) (w : BitVec 20) (bs : List Byte), Completes (.cabRead t w false)
    (fun d => let x := cabOf (fget F.CAB_CMD_SLOT (cabTaken t.val 1 w.toNat d)) d
      x.bytes = some bs ∧ x.exp = false)
    (fun d => let d1 := cabTaken t.val 1 w.toNat d
      recordC 0x080B 1 (fget F.CAB_CMD_SLOT d1 + 2 * 16 + t.val * 256) (fset F.CAB_STAT_ERR 2 d1))) ∧
  (∀ (t : Fin 5) (w : BitVec 20), Completes (.cabRead t w false)
    (fun d => (cabOf (fget F.CAB_CMD_SLOT (cabTaken t.val 1 w.toNat d)) d).bytes = none)
    (fun d => let d1 := cabTaken t.val 1 w.toNat d
      recordC 0x080B 1 (fget F.CAB_CMD_SLOT d1 + 4 * 16 + t.val * 256) (fset F.CAB_STAT_ERR 4 d1))) ∧
  (∀ (t : Fin 5) (w : BitVec 20), Completes (.cabWrite t w false)
    (fun d => let d1 := cabTaken t.val 2 w.toNat d
      (cabOf (fget F.CAB_CMD_SLOT d1) d).lk = false ∧ 1 ≤ fget F.CAB_CMD_LEN d1 ∧ fget F.CAB_CMD_LEN d1 ≤ 64)
    (fun d => let d1 := cabTaken t.val 2 w.toNat d
      cabPut (fget F.CAB_CMD_SLOT d1) { bytes := some (cabData (fget F.CAB_CMD_LEN d1) d1), exp := flag F.CAB_CMD_EXP d1 } d1)) ∧
  (∀ (t : Fin 5) (w : BitVec 20), Completes (.cabWrite t w false)
    (fun d => let d1 := cabTaken t.val 2 w.toNat d
      (cabOf (fget F.CAB_CMD_SLOT d1) d).lk = false ∧ (fget F.CAB_CMD_LEN d1 = 0 ∨ 64 < fget F.CAB_CMD_LEN d1))
    (fun d => let d1 := cabTaken t.val 2 w.toNat d
      recordC 0x080B 2 (fget F.CAB_CMD_SLOT d1 + 5 * 16 + t.val * 256) (fset F.CAB_STAT_ERR 5 d1))) ∧
  (∀ (t : Fin 5) (w : BitVec 20), Completes (.cabWrite t w false)
    (fun d => (cabOf (fget F.CAB_CMD_SLOT (cabTaken t.val 2 w.toNat d)) d).lk = true)
    (fun d => let d1 := cabTaken t.val 2 w.toNat d
      recordC 0x080B 2 (fget F.CAB_CMD_SLOT d1 + 3 * 16 + t.val * 256) (fset F.CAB_STAT_ERR 3 d1))) ∧
  (∀ (t : Fin 5) (w : BitVec 20), Completes (.cabLock t w false)
    (fun d => (cabOf (fget F.CAB_CMD_SLOT (cabTaken t.val 3 w.toNat d)) d).bytes ≠ none)
    (fun d => let d1 := cabTaken t.val 3 w.toNat d
      cabPut (fget F.CAB_CMD_SLOT d1) { cabOf (fget F.CAB_CMD_SLOT d1) d with lk := true } d1)) ∧
  (∀ (t : Fin 5) (w : BitVec 20), Completes (.cabClear t w false)
    (fun d => (cabOf (fget F.CAB_CMD_SLOT (cabTaken t.val 4 w.toNat d)) d).lk = false)
    (fun d => let d1 := cabTaken t.val 4 w.toNat d
      cabPut (fget F.CAB_CMD_SLOT d1) {} d1)) ∧
  (∀ (t : Fin 5) (w : BitVec 20), Completes (.cabClear t w false)
    (fun d => (cabOf (fget F.CAB_CMD_SLOT (cabTaken t.val 4 w.toNat d)) d).lk = true)
    (fun d => let d1 := cabTaken t.val 4 w.toNat d
      recordC 0x080B 4 (fget F.CAB_CMD_SLOT d1 + 3 * 16 + t.val * 256) (fset F.CAB_STAT_ERR 3 d1))) ∧
  (∀ (t : Fin 5) (w : BitVec 20) (key : List Byte), Completes (.cabDerive t w false)
    (fun d => let d1 := cabTaken t.val 5 w.toNat d
      (cabOf (fget F.CAB_CMD_SLOT d1) d).bytes = some key ∧ (cabOf (fget F.CAB_CMD_DST d1) d).lk = false ∧
        1 ≤ fget F.CAB_CMD_LEN d1 ∧ fget F.CAB_CMD_LEN d1 ≤ 64)
    (fun d => let d1 := cabTaken t.val 5 w.toNat d
      cabPut (fget F.CAB_CMD_DST d1) { bytes := some (hmac384 key (cabData (fget F.CAB_CMD_LEN d1) d1)) } d1)) ∧
  (∀ (t : Fin 5) (w : BitVec 20), Completes (.cabLock t w false)
    (fun d => (cabOf (fget F.CAB_CMD_SLOT (cabTaken t.val 3 w.toNat d)) d).bytes = none)
    (fun d => let d1 := cabTaken t.val 3 w.toNat d
      recordC 0x080B 3 (fget F.CAB_CMD_SLOT d1 + 4 * 16 + t.val * 256) (fset F.CAB_STAT_ERR 4 d1))) ∧
  (∀ (t : Fin 5) (w : BitVec 20) (e : Nat), Completes (.cabDerive t w false)
    (fun d => let d1 := cabTaken t.val 5 w.toNat d
      let key := (cabOf (fget F.CAB_CMD_SLOT d1) d).bytes
      let locked := (cabOf (fget F.CAB_CMD_DST d1) d).lk
      (key = none ∧ e = 4) ∨ (key ≠ none ∧ locked = true ∧ e = 3) ∨
        (key ≠ none ∧ locked = false ∧ (fget F.CAB_CMD_LEN d1 = 0 ∨ 64 < fget F.CAB_CMD_LEN d1) ∧ e = 5))
    (fun d => let d1 := cabTaken t.val 5 w.toNat d
      recordC 0x080B 5 (fget F.CAB_CMD_SLOT d1 + e * 16 + t.val * 256) (fset F.CAB_STAT_ERR e d1))) ∧
  (∀ (t : Fin 5) (op : Fin 10) (w : BitVec 20), Completes (.cabUndefinedOp t op w false) always
    (fun d => let d1 := cabTaken t.val (op.val + 6) w.toNat d
      recordC 0x080B (op.val + 6) (fget F.CAB_CMD_SLOT d1 + 6 * 16 + t.val * 256) (fset F.CAB_STAT_ERR 6 d1))) ∧
  (∀ (t : Fin 5) (op : Fin 10) (w : BitVec 20), Completes (.cabRead t w true) always (fset F.CAB_STAT_ERR 1) ∧
    Completes (.cabWrite t w true) always (fset F.CAB_STAT_ERR 1) ∧ Completes (.cabLock t w true) always (fset F.CAB_STAT_ERR 1) ∧
    Completes (.cabClear t w true) always (fset F.CAB_STAT_ERR 1) ∧ Completes (.cabDerive t w true) always (fset F.CAB_STAT_ERR 1) ∧
    Completes (.cabUndefinedOp t op w true) always (fset F.CAB_STAT_ERR 1))

/-- After any CAB_CMD write whose operation shows an error in CAB_STAT.ERR, the bytes, EXP and LK of every cabinet slot are as
before, and so is every word of CAB_DATA; this holds for every operation code, every word and every trestle. -/
def Obligations.CabinetErrorLeavesSlots : Prop :=
  ∀ (t op w : Nat) (busy : Bool) (d : Dev), t < 5 → op < 16 → fget F.CAB_STAT_ERR (cabCmd t op w busy d) ≠ 0 →
    (cabCmd t op w busy d).worlds.cab = d.worlds.cab ∧
    ∀ i : Nat, i < 16 → fget (F.CAB_DATA_DATA i) (cabCmd t op w busy d) = fget (F.CAB_DATA_DATA i) d

/-- With the debug block whole: DBG_RT_WRITE sets the run-time enables and what follows from them; DBG_PROG with key 0xA7 and not
BUSY starts programming, else it is void; OTP_PROGRAMMED raises the bits and ends BUSY; HALT_REQUEST of a running hart with no
load under way, under the invasive enable of the trestle's world halts at the next boundary, in secure world under N_INV alone
it waits for normal world; RESUME_REQUEST lets a halted hart go on from a checkpoint; ABSTRACT_COMMAND reads and writes a
register of a halted hart under that enable, and memory through it; SYSTEM_BUS_ACCESS without an enable is refused, a granted
write of memory is carried out; BYPASS, IDCODE and SAMPLE end a scan, EXTEST, CLAMP and HIGHZ begin one under S_INV in a zone
that is not armed. -/
def Obligations.DebugCommandsComplete : Prop :=
  (∀ (rt : BitVec 4), Completes (.dbgRtWrite rt) (whole 27) (fun d => dbgRefresh (fset F.DBG_RT_RT rt.toNat d))) ∧
  (∀ (raise : BitVec 4), Completes (.dbgProg raise 0xA7) (fun d => whole 27 d ∧ flag F.DBG_STAT_BUSY d = false)
    (fun d => fput F.DBG_STAT_BUSY true { d with worlds := { d.worlds with raising := raise.toNat } })) ∧
  (∀ (raise : BitVec 4) (key : Byte), Ignored (.dbgProg raise key) (fun d => key ≠ 0xA7 ∨ flag F.DBG_STAT_BUSY d = true)) ∧
  (∀ (ok : Bool), Completes (.otpProgrammed ok) (fun d => whole 27 d ∧ flag F.DBG_STAT_BUSY d = true)
    (fun d =>
      let d1 := fput F.DBG_STAT_PROG_FAIL (!ok) (fput F.DBG_STAT_BUSY false { d with worlds := { d.worlds with raising := 0 } })
      recordC 0x080C d.worlds.raising (b2n (!ok))
        (if ok then dbgRefresh (fset F.DBG_OTP_OTP (fget F.DBG_OTP_OTP d1 ||| d.worlds.raising) d1) else d1))) ∧
  (∀ (t : Fin 5), Completes (.haltRequest t)
    (fun d => whole 27 d ∧ tlState t.val d = 3 ∧ (tlOf t.val d).halted = false ∧ dbgMay true (tlOf t.val d).arch.w d = true ∧
      (tlOf t.val d).load = none)
    (fun d => haltCheck t.val (tlPut t.val { tlOf t.val d with stepDue := true } d))) ∧
  (∀ (t : Fin 5), Completes (.haltRequest t)
    (fun d => whole 27 d ∧ tlState t.val d = 3 ∧ (tlOf t.val d).halted = false ∧ dbgMay true (tlOf t.val d).arch.w d = false ∧
      (tlOf t.val d).arch.w = true ∧ dbgEff 2 d = true)
    (fun d => fput F.DBG_STAT_HALT_PEND true (tlPut t.val { tlOf t.val d with haltDue := true } d))) ∧
  (∀ (t : Fin 5) (one : Bool), Completes (.resumeRequest t one) (fun d => whole 27 d ∧ (tlOf t.val d).halted = true)
    (fun d => tlPut t.val { tlOf t.val d with halted := false, stepDue := one, shadow := (tlOf t.val d).arch } d)) ∧
  (∀ (t : Fin 5) (r : DebugReg), Completes (.abstractCommand t r none)
    (fun d => whole 27 d ∧ (∀ va size, r ≠ .mem va size) ∧ (tlOf t.val d).halted = true ∧ dbgMay true (tlOf t.val d).arch.w d = true)
    (fun d => send (.debugData t.val (some (dbgGet t.val r d))) d)) ∧
  (∀ (t : Fin 5) (r : DebugReg) (v : DWord), Completes (.abstractCommand t r (some v))
    (fun d => whole 27 d ∧ (∀ va size, r ≠ .mem va size) ∧ (tlOf t.val d).halted = true ∧ dbgMay true (tlOf t.val d).arch.w d = true)
    (dbgSet t.val r v)) ∧
  (∀ (t : Fin 5) (va : DWord) (size : Nat) (v : Option DWord), CompletesBoth (.abstractCommand t (.mem va size) v)
    (fun _ d => whole 27 d ∧ (tlOf t.val d).halted = true ∧ dbgMay true (tlOf t.val d).arch.w d = true)
    (fun m d => debugMem t.val va.toNat size v m d)) ∧
  (∀ (a : BitVec 40) (size : Fin 65) (data : DWord) (c : Nat), CompletesBoth (.systemBusAccess true a size data .good)
    (fun _ d => whole 27 d ∧ (dbgMay true true d = true ∨ dbgMay true false d = true) ∧ accessTarget a.toNat size.val = some c ∧
      (c = 1 ∨ c = 2 ∨ c = 7 ∨ c = 8) ∧ (c = 2 → flag F.EST_CTRL_EN d = false) ∧ granted c a.toNat size.val 1 (attrOf (dbgMay true true d) 0 3 false false) d = true ∧ badMeets a.toNat size.val d = none)
    (fun m d => (memWrite a.toNat (leBytes size.val data.toNat) m, send (.debugData 0 (some 0)) d))) ∧
  (∀ (write : Bool) (a : BitVec 40) (size : Fin 65) (data : DWord) (chk : MemCheck), Completes (.systemBusAccess write a size data chk)
    (fun d => whole 27 d ∧ dbgMay write true d = false ∧ dbgMay write false d = false ∧ d.aix.held = false)
    (fun d => send (.debugData 0 none) (dbgRefuse 2 0 false d))) ∧
  (∀ (x : TapInstr), Completes (.boundaryScanInstruction x)
    (fun d => whole 27 d ∧ (x = .bypass ∨ x = .idcode ∨ x = .sample)) (fput F.DBG_STAT_SCAN_ACT false)) ∧
  (∀ (x : TapInstr), Completes (.boundaryScanInstruction x)
    (fun d => whole 27 d ∧ (x = .extest ∨ x = .clamp ∨ x = .highz) ∧ dbgEff 0 d = true ∧ (zone d = 0 ∨ zone d = 1))
    (fput F.DBG_STAT_SCAN_ACT true))

/-- ROLE_EXCHANGE on a member with the link up: kept and told; LONE negotiates unless the partner is barred, PRIMARY and SECONDARY
only on a restart, NEGOTIATE follows the partner's commit to SECONDARY or negotiates again; on a single device or without the
link nothing happens. ROLE_GRANT_ACK makes a negotiated primary PRIMARY. ALONE_WAIT_TIMEOUT leads from INIT to LONE while
neither link nor monitor is seen. PARTNER_LOST in NEGOTIATE, PRIMARY or SECONDARY, when the partner is lost by the link or the
monitor, is recorded, abandons steps and activation and leads to LONE, and else does nothing. A digest that is heard by a paired
member is compared and marked now when the own set of its frame is kept, marked when it tells of a skip, and kept when it comes
early; DIGEST_LATE is counted. -/
def Obligations.PairCommandsComplete : Prop :=
  (∀ r : RoleReport, Settles (.roleExchange r)
    (fun d => d.pair.mode ≠ 0 ∧ peerUp d = true ∧ (roleHeard r d).pair.role = 5 ∧ r.barred = false)
    (fun m d => (m, negotiate (roleTo 2 (pairPut { (roleHeard r d).pair with fromLone := true } (roleHeard r d)))))) ∧
  (∀ r : RoleReport, Settles (.roleExchange r)
    (fun d => d.pair.mode ≠ 0 ∧ peerUp d = true ∧ (roleHeard r d).pair.role = 5 ∧ r.barred = true)
    (fun m d => (m, roleHeard r d))) ∧
  (∀ r : RoleReport, Settles (.roleExchange r)
    (fun d => d.pair.mode ≠ 0 ∧ peerUp d = true ∧ ((roleHeard r d).pair.role = 3 ∨ (roleHeard r d).pair.role = 4))
    (fun m d => (m, if r.restart then negotiate (roleTo 2 (pairPut { (roleHeard r d).pair with
      fromLone := false, prefers := !r.prefers } (roleHeard r d))) else roleHeard r d))) ∧
  (∀ r : RoleReport, Settles (.roleExchange r)
    (fun d => d.pair.mode ≠ 0 ∧ peerUp d = true ∧ (roleHeard r d).pair.role = 2 ∧ r.role = 3 ∧ negotiated (roleHeard r d) = some false)
    (fun m d => let d1 := relabelTo r.cycle.toNat (roleTo 4 (pairPut { (roleHeard r d).pair with fromLone := false } (roleHeard r d)))
      (if (roleHeard r d).est.alignAll then unalignedSweep d1 m else m, d1))) ∧
  (∀ r : RoleReport, Settles (.roleExchange r)
    (fun d => d.pair.mode ≠ 0 ∧ peerUp d = true ∧ (roleHeard r d).pair.role = 2 ∧
      (r.role ≠ 3 ∨ negotiated (roleHeard r d) ≠ some false)) (fun m d => (m, negotiate (roleHeard r d)))) ∧
  (∀ r : RoleReport, Settles (.roleExchange r) (fun d => d.pair.mode = 0 ∨ peerUp d = false) (fun m d => (m, d))) ∧
  Settles .roleGrantAck (fun d => heard d = true ∧ d.pair.role = 2 ∧ negotiated d = some true)
    (fun m d => (m, roleMessage false (pairPut { (roleTo 3 d).pair with fromLone := false } (roleTo 3 d)))) ∧
  Settles .roleGrantAck (fun d => heard d = false ∨ d.pair.role ≠ 2 ∨ negotiated d ≠ some true) (fun m d => (m, d)) ∧
  Completes .aloneWaitTimeout (fun d => d.pair.role = 1 ∧ peerUp d = false ∧ monitorPulses d = false) (roleTo 5) ∧
  Ignored .aloneWaitTimeout (fun d => d.pair.role ≠ 1 ∨ peerUp d = true ∨ monitorPulses d = true) ∧
  (∀ c : Fin 3, Settles (.partnerLost c) (fun d => 2 ≤ d.pair.role ∧ d.pair.role ≤ 4 ∧ lostBy d = some c.val)
    (fun m d => (m, let d1 := closesAbandon (activationRefused 5 (updLost (record 0x0A41 c.val (cycleNow d) 0 d)))
      peerAngleLost (partnerZonePut 0 (roleTo 5 (pairPut { d1.pair with
        report := none, partnerCrc := none, fromLone := false, digests := [], sets := [] } d1)))))) ∧
  (∀ c : Fin 3, Settles (.partnerLost c) (fun d => d.pair.role < 2 ∨ 5 ≤ d.pair.role ∨ lostBy d ≠ some c.val) (fun m d => (m, d))) ∧
  (∀ g : DigestMsg, CompletesBoth (.digestMessage g) (fun _ d => heard d = true ∧ paired d = true ∧ g.skip = true)
    (fun m d => digestMark g { frame := g.frame.toNat } m d)) ∧
  (∀ (g : DigestMsg) (o : OwnSet), CompletesBoth (.digestMessage g)
    (fun _ d => heard d = true ∧ paired d = true ∧ g.skip = false ∧ d.pair.sets.find? (fun o => o.frame == g.frame.toNat) = some o)
    (fun m d => digestMark g o m (digestCompare g o d))) ∧
  (∀ g : DigestMsg, Completes (.digestMessage g)
    (fun d => heard d = true ∧ paired d = true ∧ g.skip = false ∧ d.pair.sets.find? (fun o => o.frame == g.frame.toNat) = none ∧
      digestEarly g d = true) (fun d => { d with pair := { d.pair with digests := (g :: d.pair.digests).take 3 } })) ∧
  (∀ g : DigestMsg, Ignored (.digestMessage g) (fun d => heard d = false ∨ paired d = false)) ∧
  Completes .digestLate always (fun d => { d with pair := { d.pair with lateDigests := d.pair.lateDigests + 1 } })

/-- Of a message that is heard (the device is one of a pair, with the link up): STEP_REQ at the member that follows: an off step is
taken at once, an on step is confirmed when the string permits it and refused when not. STEP_CONF of the step requested is
answered by STEP_GO, the commit point; STEP_GO of the step confirmed commits it; STEP_REFUSE and CLOSE_ABANDONED of a step not
committed abandon the close with cause 1 and 0; one of another step does nothing. A trip notice trips the same zone or string
with source 6; a close that ends at the partner turns this member's coils off, and ends an on step not yet driven. An activation
request is refused by the own bar of R499, and granted with HOLD where none holds. ALIGN_REQUEST is kept by a primary that may
align; a transfer is dropped by another role or when it failed, installed when its frame is done, else kept. A message that is
not heard does nothing. -/
def Obligations.StepHandshakeCompletes : Prop :=
  (∀ (n : Fin 48) (r : Role) (c : Word), Completes (.stepReq n r false c) (heard · = true)
    (hsPut (some { string := n.val, role := roleCode r, on := false, cycle := c.toNat, phase := 3 }))) ∧
  (∀ (n : Fin 48) (r : Role) (c : Word), Completes (.stepReq n r true c) (fun d => heard d = true ∧ followRefuses n.val d = false)
    (fun d => toPartner (.stepConf n.val (roleCode r) c.toNat)
      (hsPut (some { string := n.val, role := roleCode r, on := true, cycle := c.toNat, phase := 2 }) d))) ∧
  (∀ (n : Fin 48) (r : Role) (c : Word), Completes (.stepReq n r true c) (fun d => heard d = true ∧ followRefuses n.val d = true)
    (fun d => toPartner (.stepRefuse n.val (Config.freeWord (draw d).1).toNat) (draw d).2)) ∧
  (∀ (n : Fin 48) (r : Role) (c : Word) (h : Handshake), Completes (.stepConf n r c)
    (fun d => d.prot.hs = some h ∧ h.string = n.val ∧ h.role = roleCode r ∧ h.cycle = c.toNat ∧ h.phase = 0 ∧ heard d = true)
    (fun d => toPartner (.stepGo n.val (roleCode r) c.toNat) (hsPut (some { h with phase := 1 }) d))) ∧
  (∀ (n : Fin 48) (r : Role) (c : Word) (h : Handshake), Ignored (.stepConf n r c)
    (fun d => d.prot.hs = some h ∧ (h.string ≠ n.val ∨ h.role ≠ roleCode r ∨ h.cycle ≠ c.toNat ∨ h.phase ≠ 0))) ∧
  (∀ (n : Fin 48) (r : Role) (c : Word) (h : Handshake), Completes (.stepGo n r c)
    (fun d => d.prot.hs = some h ∧ h.string = n.val ∧ h.role = roleCode r ∧ h.cycle = c.toNat ∧ h.phase = 2 ∧ heard d = true)
    (hsPut (some { h with phase := 3 }))) ∧
  (∀ (n : Fin 48) (r : Role) (c : Word) (h : Handshake), Ignored (.stepGo n r c)
    (fun d => d.prot.hs = some h ∧ (h.string ≠ n.val ∨ h.role ≠ roleCode r ∨ h.cycle ≠ c.toNat ∨ h.phase ≠ 2))) ∧
  (∀ (n : Fin 48) (h : Handshake), Completes (.stepRefuse n) (fun d => d.prot.hs = some h ∧ h.string = n.val ∧ h.phase = 0 ∧ heard d = true)
    (fun d => recordC 0x050A n.val 1 (closeEnds n.val d))) ∧
  (∀ (h : Handshake), Completes .closeAbandoned (fun d => d.prot.hs = some h ∧ h.phase = 0)
    (fun d => recordC 0x050A h.string 0 (closeEnds h.string d))) ∧
  (∀ (n : Fin 48) (r : Role) (c : Word), Ignored (.stepConf n r c) (·.prot.hs = none) ∧ Ignored (.stepGo n r c) (·.prot.hs = none) ∧
    Ignored (.stepRefuse n) (·.prot.hs = none) ∧ Ignored .closeAbandoned (·.prot.hs = none)) ∧
  (∀ (n : Fin 48), Completes (.partnerTripNotice true n) (fun d => d.prot.runs = true ∧ heard d = true) (tripZone (srcWord 6 0 0 0))) ∧
  (∀ (n : Fin 48), Completes (.partnerTripNotice false n) (fun d => d.prot.runs = true ∧ heard d = true) (tripString n.val (srcWord 6 0 0 0))) ∧
  (∀ (z : Bool) (n : Fin 48), Ignored (.partnerTripNotice z n) (·.prot.runs = false)) ∧
  (∀ (n : Fin 48), Completes (.closeEndNotice n) (fun d => heard d = true ∧ closing n.val d = true)
    (fun d => zoneSettle (recordC 0x0506 n.val 2 (seqTo n.val 0 (coilsOff n.val (hsDrop n.val (queueDrop n.val d))))))) ∧
  (∀ (n : Fin 48), Completes (.closeEndNotice n) (fun d => heard d = true ∧ closing n.val d = false)
    (fun d => if onAgreed n.val d then hsDrop n.val (queueDrop n.val d) else queueDrop n.val d)) ∧
  (∀ (same : Bool), Completes (.activationRequest same)
    (fun d => whole 24 d ∧ heard d = true ∧ ownBar d = none ∧ d.upd.asked = false ∧ updState d ≠ 4 ∧ updState d ≠ 6)
    (fun d => toPartner (.activationAnswer true 0) (fput F.UPD_STATUS_HOLD true d))) ∧
  (∀ (same : Bool) (why : Nat), Completes (.activationRequest same) (fun d => whole 24 d ∧ heard d = true ∧ ownBar d = some why)
    (fun d => toPartner (.activationAnswer false why) (recordC 0x0E0E 1 why d))) ∧
  (∀ (g : Bool) (why : Fin 6), Settles (.activationGrant g why) (fun d => heard d = true ∧ d.upd.asked = true)
    (fun m d => (m, if g then updPut { d.upd with asked := false } d else activationRefused why.val d))) ∧
  (∀ (g : Bool) (why : Fin 6), Settles (.activationGrant g why) (fun d => heard d = false ∨ d.upd.asked = false) (fun m d => (m, d))) ∧
  (∀ (ps : List (Fin 16 × Fin 48)), Completes (.alignRequest ps)
    (fun d => whole 5 d ∧ heard d = true ∧ d.pair.role = 3 ∧ flag F.EST_CTRL_ALIGN_EN d = true)
    (fun d => { d with est := { d.est with alignReq := ps.map (fun e => (e.1.val, e.2.val)) } })) ∧
  (∀ (ps : List (Fin 16 × Fin 48)), Ignored (.alignRequest ps)
    (fun d => d.pair.role ≠ 3 ∨ flag F.EST_CTRL_ALIGN_EN d = false)) ∧
  (∀ (f : Word) (bs : List PosBlocks) (good : Bool), Completes (.alignTransfer f bs good)
    (fun d => whole 5 d ∧ heard d = true ∧ (d.pair.role ≠ 4 ∨ good = false)) alignEnd) ∧
  (∀ (f : Word) (bs : List PosBlocks), CompletesBoth (.alignTransfer f bs true)
    (fun _ d => whole 5 d ∧ heard d = true ∧ d.pair.role = 4 ∧ d.est.work = none ∧ d.est.pub = none ∧ d.est.considered = some f.toNat)
    (fun m d => alignInstall f.toNat bs m d)) ∧
  (∀ (f : Word) (bs : List PosBlocks), Completes (.alignTransfer f bs true)
    (fun d => whole 5 d ∧ heard d = true ∧ d.pair.role = 4 ∧ (d.est.work ≠ none ∨ d.est.pub ≠ none ∨ d.est.considered ≠ some f.toNat))
    (fun d => { d with est := { d.est with xfer := some (f.toNat, bs) } })) ∧
  (∀ (n : Fin 48) (r : Role) (on z same : Bool) (c f : Word) (ps : List (Fin 16 × Fin 48)) (bs : List PosBlocks) (good : Bool),
    Ignored (.stepReq n r on c) (heard · = false) ∧ Ignored (.stepConf n r c) (heard · = false) ∧
    Ignored (.stepGo n r c) (heard · = false) ∧ Ignored (.stepRefuse n) (heard · = false) ∧
    Ignored (.partnerTripNotice z n) (heard · = false) ∧ Ignored (.closeEndNotice n) (heard · = false) ∧
    Ignored (.activationRequest same) (heard · = false) ∧ Ignored (.alignRequest ps) (heard · = false) ∧
    Ignored (.alignTransfer f bs good) (heard · = false))

/-- While the clocks run: CYCLE_BOUNDARY begins the next cycle, takes the trim, tracks the phases, rotation and frequency, qualifies
and selects the sources and runs the loops, in this order (a boundary during a hold does nothing until the held boundary has
passed); BAND_CLASSIFY shows and classifies the three phases; COAST_MAX_EXPIRY in COAST disqualifies the line; SLEW_COMPLETE and
TIMESTAMP_HOLD_END end a slew and a hold; PTP_SYNC of the selected port is judged and of the other only shown; the loss of PTP
and of the peer's angle disqualifies that source; FORCE_HOLD selects again; HOLD_WARN and ANGLE_UNQUALIFIED act in HOLD at their
limits; ANG_PTP_COMMIT takes values in range; and their conditions not met, they do nothing. -/
def Obligations.AngleSourcesComplete : Prop :=
  (∀ (m : LineMeas) (t : PtpTime), Completes (.cycleBoundary m t)
    (fun d => clocksRun d = true ∧ (flag F.ANG_STATUS_HELD d = false ∨ d.ang.wrapped = true))
    (fun d =>
      let (trim, d1) := cycleTrim m (cycleBegin m t d)
      let (align, d2) := cycleTrack m d1
      cycleLoops m (cycleSources trim align d2))) ∧
  (∀ (m : LineMeas) (t : PtpTime), Ignored (.cycleBoundary m t)
    (fun d => flag F.ANG_STATUS_HELD d = true ∧ d.ang.wrapped = false)) ∧
  (∀ (a : Amplitudes), Completes (.bandClassify a) (clocksRun · = true)
    (fun d => trkAct (each [(0, a.a), (1, a.b), (2, a.c)]
      (fun e d => phaseEvents e.1 (phaseOf e.1 d).band e.2 (phaseClassify e.1 e.2 d))
      (fset F.ANG_AMPL_AMPL_C (min 255 (a.c / 100)) (fset F.ANG_AMPL_AMPL_B (min 255 (a.b / 100))
        (fset F.ANG_AMPL_AMPL_A (min 255 (a.a / 100)) d)))))) ∧
  Completes .coastMaxExpiry (fun d => clocksRun d = true ∧ angTrk d = 4)
    (fun d =>
      let d1 := srcQual 1 false (angPut { d.ang with
        lineOut := true, lineOk := 0, aWait := if angRef d = 0 then some 0 else d.ang.aWait } d)
      angSelect 1 (lineQual (bandShow (refLost (angRef d1) d1)))) ∧
  Ignored .coastMaxExpiry (fun d => angTrk d ≠ 4) ∧
  Completes .slewComplete (clocksRun · = true)
    (fun d => angRate (fput F.ANG_STATUS_SLEWING false (angPut { d.ang with slewLeft := 0 } d))) ∧
  Completes .timestampHoldEnd (fun d => clocksRun d = true ∧ flag F.ANG_STATUS_HELD d = true)
    (fun d => let d1 := advance (ticksFor d.ang.hold d) d
      fput F.ANG_STATUS_HELD false (angPut { d1.ang with hold := 0 } d1)) ∧
  Ignored .timestampHoldEnd (flag F.ANG_STATUS_HELD · = false) ∧
  (∀ (port : Fin 2) (ofs : Int) (t : PtpTime), Completes (.ptpSync port ofs t)
    (fun d => clocksRun d = true ∧
      port.val ≠ fget F.ANG_CTRL_PTP_PORT (fset (F.ETH_PTP_OFS_OFS port.val) (ofSigned 32 (clamp32 ofs)) d))
    (fset (F.ETH_PTP_OFS_OFS port.val) (ofSigned 32 (clamp32 ofs)))) ∧
  (∀ (port : Fin 2) (ofs : Int) (t : PtpTime), Completes (.ptpSync port ofs t)
    (fun d => clocksRun d = true ∧ 10000 < ofs.natAbs ∧
      port.val = fget F.ANG_CTRL_PTP_PORT (fset (F.ETH_PTP_OFS_OFS port.val) (ofSigned 32 (clamp32 ofs)) d))
    (fun d =>
      let d1 := fset (F.ETH_PTP_OFS_OFS port.val) (ofSigned 32 (clamp32 ofs)) d
      let diff := halfTurn ((ptpCount t d1 : Int) - (countNow d1 : Nat))
      angFollow 3 diff (srcQual 3 false (angPut { d1.ang with ptpGood := 0, diffPtp := diff } d1)))) ∧
  (∀ (port : Fin 2) (ofs : Int) (t : PtpTime), Completes (.ptpSync port ofs t)
    (fun d => clocksRun d = true ∧ ofs.natAbs ≤ 10000 ∧
      port.val = fget F.ANG_CTRL_PTP_PORT (fset (F.ETH_PTP_OFS_OFS port.val) (ofSigned 32 (clamp32 ofs)) d))
    (fun d =>
      let d1 := fset (F.ETH_PTP_OFS_OFS port.val) (ofSigned 32 (clamp32 ofs)) d
      let good := min 16 (d1.ang.ptpGood + 1)
      let diff := halfTurn ((ptpCount t d1 : Int) - (countNow d1 : Nat))
      let d2 := angPut { d1.ang with ptpGood := good, diffPtp := diff } d1
      angFollow 3 diff (if 16 ≤ good ∧ flag (F.ETH_STATUS_PTP_SYNC port.val) d2 = true then srcQual 3 true d2 else d2))) ∧
  Completes .ptpSyncMissing (clocksRun · = true) (fun d => angSelect 0 (srcQual 3 false (angPut { d.ang with ptpGood := 0 } d))) ∧
  Completes .peerAngleMissing (clocksRun · = true)
    (fun d => angSelect 0 (srcQual 2 false (angPut { d.ang with peerGood := 0, peerLast := none } d))) ∧
  (∀ (on : Bool), Completes (.forceHold on) (clocksRun · = true) (fun d => angSelect 3 (fput F.ANG_CTRL_FORCE_HOLD on d))) ∧
  Completes .holdWarn (fun d => clocksRun d = true ∧ angSrc d = 4 ∧ fget F.ANG_HOLD_WARN d ≤ fget F.ANG_HOLD_CYC_CYC d)
    (fput F.ANG_STATUS_HOLD_WARN true) ∧
  Ignored .holdWarn (fun d => angSrc d ≠ 4 ∨ fget F.ANG_HOLD_CYC_CYC d < fget F.ANG_HOLD_WARN d) ∧
  Completes .angleUnqualified (fun d => clocksRun d = true ∧ angSrc d = 4 ∧
      fget F.ANG_HOLD_MAX d ≤ fget F.ANG_HOLD_CYC_CYC d ∧ flag F.ANG_STATUS_QUALIFIED d = true)
    (fun d => recordC 0x0209 4 (fget F.ANG_HOLD_CYC_CYC d) (fput F.ANG_STATUS_QUALIFIED false d)) ∧
  Ignored .angleUnqualified (fun d => angSrc d ≠ 4 ∨ fget F.ANG_HOLD_CYC_CYC d < fget F.ANG_HOLD_MAX d ∨
    flag F.ANG_STATUS_QUALIFIED d = false) ∧
  Completes .angPtpCommit (fun d => clocksRun d = true ∧ fget F.ANG_PTP_EPOCH_NS_NS d < 1000000000 ∧
      45000000 ≤ fget F.ANG_PTP_FREQ_FREQ d ∧ fget F.ANG_PTP_FREQ_FREQ d ≤ 66000000)
    (fun d => angPut { d.ang with ptpNext := some ⟨fget F.ANG_PTP_EPOCH_S_LO_S_LO d + fget F.ANG_PTP_EPOCH_S_HI_S_HI d * 2 ^ 32,
      fget F.ANG_PTP_EPOCH_NS_NS d, fget F.ANG_PTP_FREQ_FREQ d⟩ } d) ∧
  Ignored .angPtpCommit (fun d => 1000000000 ≤ fget F.ANG_PTP_EPOCH_NS_NS d ∨ fget F.ANG_PTP_FREQ_FREQ d < 45000000 ∨
    66000000 < fget F.ANG_PTP_FREQ_FREQ d)

/-- While the clocks run: an angle message moves the difference, the count of good messages and the qualification of PEER, watches
for a relabelling, selects again and, in PEER, shows the phase error and jumps where it is large; a single device or one without
the link ignores it. ANGLE_MESSAGE_SEND sends the timestamp to the partner except on a single device. ANG_NOW_LO_READ answers
the low half and latches the high half for the trestle. A slot write sets CTRL, CYC or CNT and marks a late target, or clears
FIRED and LATE of STAT by ones. SLOT_FIRE of an armed slot whose target lies ahead in the present cycle brings the count there,
and every slot with that target fires, in ascending order; a slot not armed, of another cycle, behind the count or in a hold
does nothing. -/
def Obligations.AngleMessagesAndSlotsComplete : Prop :=
  (∀ (ts : BitVec 48) (usable : Bool), Completes (.peerAngleMessage ts usable)
    (fun d => clocksRun d = true ∧ d.pair.mode ≠ 0 ∧ peerUp d = true)
    (fun d =>
      let half := fget F.PEER_RTT_RTT d * fget F.ANG_INC_INC d / (20 * 2 ^ 32)
      let e := toSigned 48 ((ts.toNat + half + 2 ^ 48 - tsNow d) % 2 ^ 48)
      let diff := halfTurn e
      let good := match d.ang.peerLast with
        | some l => if (halfTurn (diff - l)).natAbs ≤ 91 then d.ang.peerGood + 1 else 1
        | none => 1
      let d1 := relabelWatch e (angPut { d.ang with
        peerGood := if usable then min good 16 else 0, peerLast := some diff, diffPeer := diff } d)
      angFollow 2 diff (if !usable then srcQual 2 false d1 else if 16 ≤ d1.ang.peerGood then srcQual 2 true d1 else d1))) ∧
  (∀ (ts : BitVec 48) (usable : Bool), Ignored (.peerAngleMessage ts usable) (fun d => d.pair.mode = 0 ∨ peerUp d = false)) ∧
  Completes .angleMessageSend (fun d => clocksRun d = true ∧ d.pair.mode ≠ 0)
    (fun d => toPartner (.angleMessage (tsNow d) (angSrc d) (angSrc d == 1 || angSrc d == 3)) d) ∧
  Ignored .angleMessageSend (fun d => d.pair.mode = 0) ∧
  (∀ (t : Fin 5), Completes (.angNowLoRead t) (clocksRun · = true)
    (fun d => send (.readData t.val R.ANG_NOW_LO (tsNow d % 2 ^ 32))
      (angPut { d.ang with nowHi := tabSet (fun _ => 0) d.ang.nowHi t.val (tsNow d / 2 ^ 32 + 1) } d))) ∧
  (∀ (n : Fin 32) (v : Word), Completes (.slotCtrlWrite n 0 v) (clocksRun · = true)
    (fun d => slotLate n.val (regPut (R.SLOT_CTRL n.val) (BitVec.ofNat 32 (v.toNat &&& 0xFFF03FFF)) d))) ∧
  (∀ (n : Fin 32) (v : Word), Completes (.slotCtrlWrite n 1 v) (clocksRun · = true)
    (fun d => slotLate n.val (fset (F.SLOT_CYC_CYC n.val) v.toNat d))) ∧
  (∀ (n : Fin 32) (v : Word), Completes (.slotCtrlWrite n 2 v) (clocksRun · = true)
    (fun d => slotLate n.val (fset (F.SLOT_CNT_CNT n.val) v.toNat d))) ∧
  (∀ (n : Fin 32) (v : Word), Completes (.slotCtrlWrite n 3 v) (clocksRun · = true)
    (fun d => let d1 := if v.toNat.testBit 0 then fput (F.SLOT_STAT_FIRED n.val) false d else d
      if v.toNat.testBit 1 then fput (F.SLOT_STAT_LATE n.val) false d1 else d1)) ∧
  (∀ (n : Fin 32), Completes (.slotFire n)
    (fun d => clocksRun d = true ∧ slotArmed n.val d = true ∧ slotCycle n.val (cycleNow d) d = true ∧
      countNow d ≤ fget (F.SLOT_CNT_CNT n.val) d ∧ flag F.ANG_STATUS_HELD d = false)
    (fun d => let c := fget (F.SLOT_CNT_CNT n.val) d
      slotsAt c (advanceTo c d))) ∧
  (∀ (n : Fin 32), Ignored (.slotFire n) (fun d => slotArmed n.val d = false ∨ slotCycle n.val (cycleNow d) d = false ∨
    fget (F.SLOT_CNT_CNT n.val) d < countNow d ∨ flag F.ANG_STATUS_HELD d = true))

/-- With the Kazilo block whole and the chain enabled, of which a receiver that is not enabled is ignored: a lock counts the orphans
that a discarding receiver passed over and leads a chain that waits for link to its next state and a lock loss at an owned port
breaks it; a truncated frame is counted, and a data frame recorded; a burst that passes its checks, of an accepted version,
position and frame, and the first of its position, is accepted; one that fails a check is counted as a CRC failure of its port;
a chain without link discards it; a burst with a parity error is counted and recorded; RETX_SEND asks the position that is due
again, RETX_TIMEOUT permits the next; an alert with none before it within the window is kept, acts on the chain and on
protection and enters the FIFO, one seen at the other port is counted, one at version 1 or on a chain that is off does nothing;
a read of the FIFO pops its head and latches its time, or answers 0; CH_CLR_CNT clears the five counters of its chain. -/
def Obligations.ChainReceiversComplete : Prop :=
  (∀ (n : Fin 16) (r : Relock), Completes (.receiverLock n r) (chainHears n.val)
    (fun d => linkupMove n.val (fput (lockBit n.val r.port) true
      (if discards n.val r.port d then fsat (F.KZC_CH_ERR_TRUNC_ORPHAN n.val) r.orphans d else d)))) ∧
  (∀ (n : Fin 16) (p : Port), Completes (.receiverLockLoss n p) (chainHears n.val)
    (fun d => let d1 := discardPut n.val p true (fput (lockBit n.val p) false d)
      if (ownedPorts d1).contains p then chainBreak n.val none none d1 else d1)) ∧
  (∀ (n : Fin 16) (p : Port) (t : TruncInfo), Completes (.frameTruncated n p t) (chainHears n.val)
    (fun d => let d1 := fsat (F.KZC_CH_ERR_TRUNC_ORPHAN n.val) t.orphans (fsat (F.KZC_CH_ERR_TRUNC_TRUNC n.val) 1
        (discardPut n.val p true d))
      if t.isData then recordC 0x0307 (n.val + (if p = .b then 256 else 0)) (t.pos.getD 0x3F) d1 else d1)) ∧
  (∀ (n : Fin 16) (port : Port) (raw bs : List Byte),
    let H (d : Dev) : Prop := chainHears n.val d ∧ burstBody raw = some bs ∧ 2 ≤ chState3 n.val (discardPut n.val port false d) ∧
      field bs 1 1 % 16 = fget (F.KZC_CH_STAT_VER n.val) (discardPut n.val port false d) ∧ field bs 2 1 < 48 ∧
      excluded n.val (field bs 2 1) (discardPut n.val port false d) = false ∧ (posOf n.val (field bs 2 1) d).awaits = false ∧
      (posOf n.val (field bs 2 1) d).rejoins = false ∧ (burstStatus bs).testBit 6 = false ∧
      (discardPut n.val port false d).kzc.collect = some (burstFrame bs) ∧ (posOf n.val (field bs 2 1) d).crc = none
    let f (d : Dev) : Dev := let d1 := gotPut n.val port (field bs 2 1) (discardPut n.val port false d)
      burstAccept n.val port (field bs 2 1) bs
        (if (chainOf n.val d1).retxOut = some (field bs 2 1) then chainPut n.val { chainOf n.val d1 with retxOut := none } d1 else d1)
    Completes (.dataBurst n port raw false) H f ∧ Completes (.dataRetx n port raw) H f) ∧
  (∀ (n : Fin 16) (port : Port) (raw : List Byte) (parity : Bool),
    let H (d : Dev) : Prop := chainHears n.val d ∧ burstBody raw = none
    let f (d : Dev) : Dev := crcFail n.val port (discardPut n.val port false d)
    Completes (.dataBurst n port raw parity) H f ∧ Completes (.dataRetx n port raw) H f) ∧
  (∀ (n : Fin 16) (port : Port) (raw bs : List Byte) (parity : Bool),
    let H (d : Dev) : Prop := chainHears n.val d ∧ burstBody raw = some bs ∧ chState3 n.val (discardPut n.val port false d) ≤ 1
    Completes (.dataBurst n port raw parity) H (discardPut n.val port false) ∧
      Completes (.dataRetx n port raw) H (discardPut n.val port false)) ∧
  (∀ (n : Fin 16) (port : Port) (raw bs : List Byte), Completes (.dataBurst n port raw true)
    (fun d => chainHears n.val d ∧ burstBody raw = some bs ∧ 2 ≤ chState3 n.val (discardPut n.val port false d) ∧
      field bs 1 1 % 16 = fget (F.KZC_CH_STAT_VER n.val) (discardPut n.val port false d) ∧ field bs 2 1 < 48 ∧
      excluded n.val (field bs 2 1) (discardPut n.val port false d) = false ∧ (posOf n.val (field bs 2 1) d).awaits = false ∧
      (posOf n.val (field bs 2 1) d).rejoins = false)
    (fun d => let d1 := discardPut n.val port false d
      record 0x0A10 n.val (field bs 2 1) (cycleNow d1) (fsat F.BRG_CNT_PAR_RXBUF 1 d1))) ∧
  (∀ (n : Fin 16), Completes (.retxTimeout n) (whole 4)
    (fun d => chainPut n.val { chainOf n.val d with retxOut := none } d)) ∧
  (∀ (n : Fin 16), Ignored (.retxSend n) (retxNext n.val · = none)) ∧
  (∀ (n : Fin 16) (p f : Nat), Completes (.retxSend n) (fun d => whole 4 d ∧ retxNext n.val d = some (p, f))
    (fun d => let x := chainOf n.val d
      let d1 := chainPut n.val { x with retxSent := x.retxSent + 1, retxOut := some p, retxTried := maskPut x.retxTried p true } d
      send (.retx n.val (if fromBEnd n.val p d1 then .b else .a) p f) (fsat (F.KZC_CH_ERR_LATE_RETX n.val) 1 d1))) ∧
  (∀ (n : Fin 16) (port : Port) (p c a : Byte), Completes (.alert n port p c a)
    (fun d => chainHears n.val d ∧ chState3 n.val d ≠ 0 ∧ fget (F.KZC_CH_STAT_VER n.val) d = 2 ∧ d.kzc.recent = [])
    (fun d => let d1 := { d with kzc := { d.kzc with
        recent := [{ chain := n.val, port, p := p.toNat, c := c.toNat, a := a.toNat, clk := d.clk }] } }
      let d2 := if c.toNat = 0x07 then chainBreak n.val (if a.toNat = 1 then some (p.toNat % 64) else none)
        (if a.toNat = 0 then some (p.toNat % 64) else none) d1 else d1
      protAlert n.val (p.toNat % 64) c.toNat a.toNat (p.toNat / 64) (alertPush n.val port p.toNat c.toNat a.toNat d2))) ∧
  (∀ (n : Fin 16) (port : Port) (p c a : Byte), Completes (.alert n port p c a)
    (fun d => chainHears n.val d ∧ chState3 n.val d ≠ 0 ∧ fget (F.KZC_CH_STAT_VER n.val) d = 2 ∧
      d.kzc.recent.any (fun e => e.chain == n.val && e.port != port && e.p == p.toNat && e.c == c.toNat && e.a == a.toNat &&
        decide (d.clk - e.clk ≤ fget F.KZC_ALERT_CFG_DEDUP d * tickUs)) = true)
    (fsat (F.KZC_CH_ALERT_DEDUP n.val) 1)) ∧
  (∀ (n : Fin 16) (port : Port) (p c a : Byte), Ignored (.alert n port p c a)
    (fun d => chState3 n.val d = 0 ∨ fget (F.KZC_CH_STAT_VER n.val) d ≠ 2)) ∧
  (∀ (n : Fin 16) (p : Port) (k : Nat) (t : TruncInfo) (raw : List Byte) (parity : Bool) (x c a : Byte),
    Ignored (.receiverLock n { port := p, orphans := k }) (fbit F.KZC_CTRL_CH_EN n.val · = false) ∧
    Ignored (.receiverLockLoss n p) (fbit F.KZC_CTRL_CH_EN n.val · = false) ∧
    Ignored (.frameTruncated n p t) (fbit F.KZC_CTRL_CH_EN n.val · = false) ∧
    Ignored (.dataBurst n p raw parity) (fbit F.KZC_CTRL_CH_EN n.val · = false) ∧
    Ignored (.dataRetx n p raw) (fbit F.KZC_CTRL_CH_EN n.val · = false) ∧
    Ignored (.alert n p x c a) (fbit F.KZC_CTRL_CH_EN n.val · = false)) ∧
  (∀ (t : Fin 5), Completes (.kzcAlertFifoRead t) (fun d => whole 4 d ∧ d.kzc.fifo = [])
    (send (.readData t.val R.KZC_ALERT_FIFO 0))) ∧
  (∀ (t : Fin 5) (e : AlertEntry) (rest : List AlertEntry), Completes (.kzcAlertFifoRead t) (fun d => whole 4 d ∧ d.kzc.fifo = e :: rest)
    (fun d => send (.readData t.val R.KZC_ALERT_FIFO e.word) (alertLevel { d with kzc := { d.kzc with
      fifo := rest, latch := tabSet (fun _ => 0) d.kzc.latch t.val (e.ts + 1) } }))) ∧
  (∀ (n : Fin 16), Completes (.chClrCnt n) (whole 4)
    (each [R.KZC_CH_ERR_CRC n.val, R.KZC_CH_ERR_TRUNC n.val, R.KZC_CH_ERR_LATE n.val, R.KZC_CH_ERR_MISC n.val, R.KZC_CH_ALERT n.val]
      (fun r => regPut r 0)))

/-- With the Kazilo block whole: SYNC_RECEIVED at A marks the ring of B's SYNC, at B shows the travel time, takes a starting
listener on, and gives a listener the scan of the cycle; a listener takes mastership over; a mastered chain fails after FAIL
frames without a burst; a broken chain heals after HEAL intact cycles; ENUM on a mastered chain starts a run, its send and its
timeout send it from their ports, responses are kept by position or as strays, the own ENUM's return is noted, the commit takes
the smallest version; FILL and REENUM_DUE make a fill-in ENUM due, which FILL, at once, and FILL_IN_ENUM send in the service
window. The per-frame message, heard, gives a primary the SYNCs that reached the B ends, and the delay table a secondary the A
delays. -/
def Obligations.ChainStatesComplete : Prop :=
  (∀ (n : Fin 16) (b : SyncBody) (travel : Nat), Completes (.syncReceived n .a b travel) (chainHears n.val)
    (fun d => if b.fromB then chainPut n.val { chainOf n.val d with retB := true } d else d)) ∧
  (∀ (n : Fin 16) (b : SyncBody) (travel : Nat), 
    let shown (d : Dev) : Dev := fset (F.KZC_CH_RT_RT n.val) (min travel 65535) (fput (F.KZC_CH_STAT_SYNC_RET n.val) true
      (chainPut n.val { chainOf n.val d with retA := true, rtLast := min travel 65535 } d))
    Completes (.syncReceived n .b b travel)
      (fun d => chainHears n.val d ∧ b.fromB = false ∧ chState3 n.val (shown d) ≠ 6 ∧ chState3 n.val (shown d) ≠ 7) shown ∧
    Completes (.syncReceived n .b b travel) (fun d => chainHears n.val d ∧ b.fromB = false ∧ chState3 n.val (shown d) = 7)
      (fun d => chNext n.val 6 (shown d)) ∧
    Completes (.syncReceived n .b b travel) (fun d => chainHears n.val d ∧ b.fromB = false ∧ chState3 n.val (shown d) = 6)
      (fun d => listenOrder n.val b (masterSeen n.val (shown d)))) ∧
  (∀ (n : Fin 16), Completes (.mastershipTakeover n) (fun d => whole 4 d ∧ chState3 n.val d = 6)
    (fun d => chainPut n.val { chainOf n.val d with next := some 7, takeoverDue := true } d)) ∧
  (∀ (n : Fin 16), Ignored (.mastershipTakeover n) (fun d => chState3 n.val d ≠ 6)) ∧
  (∀ (n : Fin 16), Completes (.chainFailed n)
    (fun d => whole 4 d ∧ (chState3 n.val d = 3 ∨ chState3 n.val d = 4 ∨ chState3 n.val d = 5 ∨ chState3 n.val d = 7) ∧
      (chainOf n.val d).next ≠ some 8 ∧ fget F.KZC_HEAL_FAIL d ≤ (chainOf n.val d).idle) (fun d => record 0x030B n.val (cycleNow d) 0 (chNext n.val 8 d))) ∧
  (∀ (n : Fin 16), Completes (.chainHeal n)
    (fun d => whole 4 d ∧ (chState3 n.val d = 4 ∨ chState3 n.val d = 5) ∧ fget F.KZC_HEAL_HEAL d ≤ (chainOf n.val d).healRun ∧
      (chainOf n.val d).next = none)
    (fun d => let x := chainOf n.val d
      record 0x0303 n.val ((cycleNow d + 2 ^ 32 - x.broken.getD (cycleNow d)) % 2 ^ 32) 0
        (chainPut n.val { x with next := some 3, broken := none, breakTold := true, healRun := 0 } d))) ∧
  (∀ (n : Fin 16), Ignored (.chainHeal n)
    (fun d => (chState3 n.val d ≠ 4 ∧ chState3 n.val d ≠ 5) ∨ (chainOf n.val d).healRun < fget F.KZC_HEAL_HEAL d)) ∧
  (∀ (n : Fin 16), Completes (.enum n) (fun d => whole 4 d ∧ mayEnum n.val d = true) (enumStart n.val)) ∧
  (∀ (n : Fin 16), Ignored (.enum n) (mayEnum n.val · = false)) ∧
  (∀ (n : Fin 16) (r : EnumRun) (p : Port) (more : List Port), Completes (.enumSend n)
    (fun d => whole 4 d ∧ (chainOf n.val d).run = some r ∧ ownedPorts d = p :: more ∧ chState3 n.val d ≠ 6)
    (fun d => enumOut n.val p (chainPut n.val { chainOf n.val d with run := some { r with strayA := false, strayB := false } } d))) ∧
  (∀ (n : Fin 16) (r : EnumRun), Completes (.enumReturnTimeout n)
    (fun d => whole 4 d ∧ (chainOf n.val d).run = some r ∧ r.returned = false ∧ d.pair.role = 0) (enumOut n.val .b)) ∧
  (∀ (n : Fin 16) (r : EnumRun), Ignored (.enumReturnTimeout n)
    (fun d => (chainOf n.val d).run = some r ∧ (r.returned = true ∨ d.pair.role ≠ 0))) ∧
  (∀ (n : Fin 16) (r : EnumResp) (x : EnumRun), Completes (.enumResp n r)
    (fun d => chainHears n.val d ∧ runOf n.val d = some x ∧ answerTaken n.val r d = true ∧ r.pos < 48)
    (fun d => delayPut n.val r (chainPut n.val { chainOf n.val d with
      run := some { x with answers := tabSet (fun _ => none) x.answers r.pos (some r) } } d))) ∧
  (∀ (n : Fin 16) (r : EnumResp) (x : EnumRun), Completes (.enumResp n r)
    (fun d => chainHears n.val d ∧ runOf n.val d = some x ∧ answerTaken n.val r d = true ∧ 48 ≤ r.pos) (enumStray n.val r x)) ∧
  (∀ (n : Fin 16) (r : EnumResp), Ignored (.enumResp n r) (fun d => runOf n.val d = none ∨ answerTaken n.val r d = false)) ∧
  (∀ (n : Fin 16) (k : Bool), Completes (.enumReceived n (.enum k)) (chainHears n.val)
    (fun d0 => let d := masterSeen n.val d0
      let c := chainOf n.val d
      chainPut n.val { c with enumSeen := c.enumSeen || chState3 n.val d == 6
                              run := c.run.map (fun r => { r with returned := true }) } d)) ∧
  (∀ (n : Fin 16) (ver : Nat) (k : Nat) (alerts : Bool), Completes (.enumReceived n (.commit ver k alerts))
    (fun d => chainHears n.val d ∧ chState3 n.val (masterSeen n.val d) = 6)
    (fun d => enumFinish n.val ver alerts ((runOf n.val (masterSeen n.val d)).getD {}) (masterSeen n.val d))) ∧
  (∀ (n : Fin 16) (x : EnumRun), Completes (.enumCommit n)
    (fun d => whole 4 d ∧ (chainOf n.val d).run = some x ∧ chState3 n.val d ≠ 6)
    (fun d => let ver := x.answers.foldl (fun v e => match e.2 with
        | some r => min v r.maxVer
        | none => v) (min (maxVer d) (x.strayVer.getD 2))
      let alerts := flag F.KZC_CTRL_ALERT_EN d && ver == 2
      enumFinish n.val ver alerts x (each (if x.full then ownedPorts d else masterPorts n.val d)
        (fun p d => send (.enumCommit n.val p ver (fget (F.KZC_CH_CTRL_COUNT n.val) d) alerts) d) d))) ∧
  (∀ (n : Fin 16), Ignored (.enumSend n) (fun d => (chainOf n.val d).run = none) ∧
    Ignored (.enumReturnTimeout n) (fun d => (chainOf n.val d).run = none) ∧
    Ignored (.enumCommit n) (fun d => (chainOf n.val d).run = none)) ∧
  (∀ (n : Fin 16), Completes (.fill n) (fun d => whole 4 d ∧ mayEnum n.val d = true)
    (fun d => fillGo n.val (chainPut n.val { chainOf n.val d with fillDue := true, fillB := false } d))) ∧
  (∀ (n : Fin 16), Ignored (.fill n) (fun d => mayEnum n.val d = false)) ∧
  (∀ (n : Fin 16), Completes (.reenumDue n)
    (fun d => whole 4 d ∧ fget F.KZC_REENUM_CYCLES d ≠ 0 ∧ mayEnum n.val d = true ∧ (positionsOf n.val d).any (fun p =>
      decide (fget F.KZC_REENUM_CYCLES d ≤ (posOf n.val p d).silent) || excluded n.val p d || (posOf n.val p d).awaits) = true)
    (fun d => chainPut n.val { chainOf n.val d with fillDue := true, fillB := false } d)) ∧
  (∀ (n : Fin 16), Ignored (.reenumDue n) (fun d => fget F.KZC_REENUM_CYCLES d = 0 ∨ mayEnum n.val d = false)) ∧
  (∀ (n : Fin 16), Completes (.fillInEnum n) (fun d => whole 4 d ∧ (chainOf n.val d).fillDue = true ∧ mayEnum n.val d = true ∧
      (chainOf n.val d).run = none ∧ svcWindow n.val d = true)
    (fun d => let d1 := chainPut n.val { chainOf n.val d with run := some { full := false }, fillDue := false, fillB := false } d
      each ((masterPorts n.val d1).filter (fun p => !(chainOf n.val d).fillB || p == .b)) (enumOut n.val) d1)) ∧
  (∀ (n : Fin 16), Ignored (.fillInEnum n) (fun d => (chainOf n.val d).fillDue = false ∨ svcWindow n.val d = false)) ∧
  (∀ (syncs enums : BitVec 16), Ignored (.perFramePeerMessage syncs enums) (fun d => heard d = false ∨ d.pair.role ≠ 3)) ∧
  (∀ (syncs enums : BitVec 16), Completes (.perFramePeerMessage syncs enums) (fun d => whole 4 d ∧ heard d = true ∧ d.pair.role = 3 ∧ chainsOn d = [])
    (fun d => d)) ∧
  (∀ (syncs enums : BitVec 16) (n : Nat), Completes (.perFramePeerMessage syncs enums)
    (fun d => whole 4 d ∧ heard d = true ∧ d.pair.role = 3 ∧ chainsOn d = [n] ∧ maskBit enums.toNat n = false ∧ chState3 n d = 5)
    (fun d => chainPut n { chainOf n d with healRun := if maskBit syncs.toNat n then (chainOf n d).healRun + 1 else 0 } d)) ∧
  (∀ (n : Fin 16) (dly : List (Option (BitVec 16))), Completes (.delayTableTransfer n dly)
    (fun d => whole 4 d ∧ heard d = true ∧ d.pair.role = 4)
    (fun d => chainPut n.val { chainOf n.val d with
      dlyPrimary := ((List.range 48).zip dly).foldl (fun t e => tabSet (fun _ => 0) t e.1 (match e.2 with
        | some v => v.toNat + 1
        | none => 0)) [] } d)) ∧
  (∀ (n : Fin 16) (dly : List (Option (BitVec 16))), Ignored (.delayTableTransfer n dly) (fun d => heard d = false ∨ d.pair.role ≠ 4))

/-- With the bridge whole: in the service window KZB_TRANSACTION_START sends the next piece of the first access with a new SEQ,
sends a repeated frame again with its own, or fails an access of a position that the device does not master with cause 4;
outside the window it waits. A response with the matching position and SEQ carries data (a repeated write's too), tells busy
while tries are left, or fails with cause 3; another, and one between the timeout and the repeat, changes nothing. SVC_TIMEOUT
repeats the frame while tries are left, else records and fails with cause 2; KZB_BUSY_RETRY starts the piece again. Data that no
one collected is recorded and discarded. -/
def Obligations.KaziloBridgeCompletes : Prop :=
  (∀ (n : Fin 16) (x : KzAcc) (rest : List KzAcc), Settles (.kzbTransactionStart n)
    (fun d => whole 11 d ∧ svcWindow n.val d = true ∧ (chainOf n.val d).svc = none ∧ kzQueue n.val d = x :: rest ∧
      mastersPos n.val (kzPos (kzPieceAddr x)) d = true)
    (fun m d => let c := chainOf n.val d
      let a := kzPieceAddr x
      let r : SvcRun := { write := x.write, pos := kzPos a, addr := kzWord a, data := (x.data >>> (16 * x.piece)) % 65536,
                          seq := (c.svcSeq + 1) % 256, tries := 0 }
      (m, svcFrame n.val r (chainPut n.val { c with svc := some r, svcSeq := (c.svcSeq + 1) % 256 }
        (kzQueuePut n.val ({ x with started := true } :: rest) d))))) ∧
  (∀ (n : Fin 16) (x : KzAcc) (rest : List KzAcc), Settles (.kzbTransactionStart n)
    (fun d => whole 11 d ∧ svcWindow n.val d = true ∧ (chainOf n.val d).svc = none ∧ kzQueue n.val d = x :: rest ∧
      mastersPos n.val (kzPos (kzPieceAddr x)) d = false) (fun m d => (m, kzFail n.val 4 0 x d))) ∧
  (∀ (n : Fin 16) (r : SvcRun), Settles (.kzbTransactionStart n)
    (fun d => whole 11 d ∧ svcWindow n.val d = true ∧ (chainOf n.val d).svc = some r ∧ r.again = true ∧ r.busy = false)
    (fun m d => (m, svcFrame n.val { r with again := false } (chainPut n.val { chainOf n.val d with
      svc := some { r with again := false } } d)))) ∧
  (∀ (n : Fin 16), Settles (.kzbTransactionStart n) (fun d => whole 11 d ∧ (svcWindow n.val d = false ∨
    ((chainOf n.val d).svc = none ∧ kzQueue n.val d = []))) (fun m d => (m, d))) ∧
  (∀ (n : Fin 16) (pos seq result : Byte) (data : BitVec 16) (r : SvcRun) (x : KzAcc) (rest : List KzAcc),
    let H (d : Dev) : Prop := whole 11 d ∧ (chainOf n.val d).svc = some r ∧ kzQueue n.val d = x :: rest
    let M : Prop := r.pos = pos.toNat ∧ r.seq = seq.toNat ∧ r.busy = false ∧ r.again = false
    (M ∧ (result = 0 ∨ (result = 4 ∧ r.tries ≠ 0)) → Settles (.regResp n pos seq result data) H
      (fun m d => (m, kzPiece n.val data.toNat x d))) ∧
    (M ∧ result = 3 → Settles (.regResp n pos seq result data) (fun d => H d ∧ x.busies < fget F.KZC_SVC_RETRY d)
      (fun m d => (m, chainPut n.val { chainOf n.val d with svc := some { r with busy := true } }
        (kzQueuePut n.val ({ x with busies := x.busies + 1 } :: rest) d)))) ∧
    (M ∧ result = 3 → Settles (.regResp n pos seq result data) (fun d => H d ∧ fget F.KZC_SVC_RETRY d ≤ x.busies)
      (fun m d => (m, kzFail n.val 3 3 x d))) ∧
    (M ∧ result ≠ 0 ∧ result ≠ 3 ∧ result ≠ 4 → Settles (.regResp n pos seq result data) H
      (fun m d => (m, kzFail n.val 3 result.toNat x d))) ∧
    (¬ M ∨ (result = 4 ∧ r.tries = 0) → Settles (.regResp n pos seq result data) H (fun m d => (m, d)))) ∧
  (∀ (n : Fin 16) (r : SvcRun) (x : KzAcc) (rest : List KzAcc),
    let H (d : Dev) : Prop := whole 11 d ∧ (chainOf n.val d).svc = some r ∧ kzQueue n.val d = x :: rest ∧ r.busy = false
    Settles (.svcTimeout n) (fun d => H d ∧ r.tries < fget F.KZC_SVC_RETRY d)
      (fun m d => (m, kzStart n.val (chainPut n.val { chainOf n.val d with
        svc := some { r with tries := r.tries + 1, again := true } } d))) ∧
    Settles (.svcTimeout n) (fun d => H d ∧ fget F.KZC_SVC_RETRY d ≤ r.tries)
      (fun m d => (m, kzFail n.val 2 0 x (record 0x030A n.val r.pos r.addr (fsat (F.KZC_CH_ERR_MISC_SVC_TMO n.val) 1 d))))) ∧
  (∀ (n : Fin 16) (r : SvcRun), Settles (.kzbBusyRetry n) (fun d => whole 11 d ∧ (chainOf n.val d).svc = some r ∧ r.busy = true)
    (fun m d => (m, kzStart n.val (chainPut n.val { chainOf n.val d with svc := none } d)))) ∧
  (∀ (n : Fin 16) (pos seq result : Byte) (data : BitVec 16), 
    Settles (.regResp n pos seq result data) (fun d => whole 11 d ∧ (chainOf n.val d).svc = none) (fun m d => (m, d)) ∧
    Settles (.svcTimeout n) (fun d => whole 11 d ∧ (chainOf n.val d).svc = none) (fun m d => (m, d)) ∧
    Settles (.kzbBusyRetry n) (fun d => whole 11 d ∧ (chainOf n.val d).svc = none) (fun m d => (m, d))) ∧
  (∀ (i : Nat) (h : HeldRead), Completes (.retryExpired i) (fun d => whole 11 d ∧ d.brg.held[i]? = some h)
    (fun d => recordC 0x0A03 h.addr h.attr { d with brg := { d.brg with held := d.brg.held.eraseIdx i } })) ∧
  (∀ (i : Nat), Ignored (.retryExpired i) (fun d => d.brg.held[i]? = none))

/-- FRAME_CLOSE with the count at ACQ_END or brought there closes the frame of the cycle before, once. ESTIMATE_WORK_START with no
transfer waiting skips the frame when the bench is barred, starts its work when it carries less than a cycle, and does nothing
during work. CELL_UPDATE of the next cell of the first entry by the lane whose turn it is commits it, recomputes after a residue
error while tries are left, drops the entry on a FIFO parity error; another lane does nothing. ESTIMATE_WORK_END of finished
work idles the cells left and opens the publish window; PUBLISH_COMMIT places the set in the other bank and shows it. The
controls EN, CELL_INIT, CLR_CNT, the cut-off, the reloads and the lane tests have their effects. -/
def Obligations.BenchCommandsComplete : Prop :=
  CompletesBoth .frameClose (fun _ d => cut 3 d = false ∧ clocksRun d = true ∧
      (advanceTo d.ang.win.acqEnd d).ang.win.acqEnd ≤ countNow (advanceTo d.ang.win.acqEnd d) ∧
      (advanceTo d.ang.win.acqEnd d).acq.closed ≠ some ((cycleNow (advanceTo d.ang.win.acqEnd d) + 2 ^ 32 - 1) % 2 ^ 32))
    (fun m d => let d1 := advanceTo d.ang.win.acqEnd d
      let f := (cycleNow d1 + 2 ^ 32 - 1) % 2 ^ 32
      (m, satFrame m (excClose f (acqClose f d1)))) ∧
  CompletesBoth .frameClose (fun _ d => cut 3 d = false ∧ clocksRun d = true ∧
      (advanceTo d.ang.win.acqEnd d).acq.closed = some ((cycleNow (advanceTo d.ang.win.acqEnd d) + 2 ^ 32 - 1) % 2 ^ 32))
    (fun m d => (m, advanceTo d.ang.win.acqEnd d)) ∧
  Ignored .frameClose (fun d => cut 3 d = true ∨ clocksRun d = false) ∧
  CompletesBoth .estimateWorkStart (fun _ d => d.est.work = none ∧ d.est.xfer = none ∧ estBarred (delayShown d) = true)
    (fun m d => estSkip (nextFrame d) m (shortStep (delayShown d))) ∧
  Completes .estimateWorkStart (fun d => d.est.work = none ∧ d.est.xfer = none ∧ estBarred (delayShown d) = false ∧
      (flag F.ANG_SCHED_DECIM (delayShown d) = false ∨ flag F.ANG_SCHED_SKIP_NEXT (delayShown d) = false) ∧ workCarried d < 65536)
    (fun d => workBegin (nextFrame d) (delayShown d)) ∧
  Ignored .estimateWorkStart (·.est.work ≠ none) ∧
  (∀ (l : Fin 8) (f : Nat) (e : EstEntry) (rest : List EstEntry),
    let H (d : Dev) : Prop := whole 5 d ∧ d.est.work = some f ∧ d.est.queue = e :: rest ∧ laneNext d = some l.val ∧
      d.est.cell < fget (F.ACQ_POS_NCELL e.chain e.pos) d
    let i (d : Dev) : Nat := cellIndex e.chain e.pos d.est.cell
    CompletesBoth (.cellUpdate l .ok) (fun _ d => H d ∧ cellAbsent (cellRec e.burst (i d % 32)) = false ∧
        fbit F.EST_CHEM_BAD (entrySet e d) d = false) (fun m d => cellCommit l.val e (i d) false m d) ∧
    CompletesBoth (.cellUpdate l .ok) (fun _ d => H d ∧ (cellAbsent (cellRec e.burst (i d % 32)) = true ∨
        fbit F.EST_CHEM_BAD (entrySet e d) d = true)) (fun m d => cellIdle (i d) f m (useCycles l.val none d)) ∧
    CompletesBoth (.cellUpdate l .residue)
      (fun _ d => H d ∧ (useCycles l.val none d).est.tries < fget F.EST_CFG_RETRY (useCycles l.val none d))
      (fun m d => let d1 := useCycles l.val none d
        (m, record 0x0401 (i d) l.val f (laneError l.val f { d1 with est := { d1.est with
          tries := d1.est.tries + 1, failLane := some l.val } }))) ∧
    Completes (.cellUpdate l .fifoPar) H
      (fun d => let d1 := record 0x0408 e.chain e.pos f (fsat F.EST_ERR_B_FIFO_PAR 1 d)
        estDrop rest (undone (fun n p => n == e.chain && p == e.pos) d1)) ∧
    CompletesBoth (.cellUpdate l .residue)
      (fun _ d => H d ∧ fget F.EST_CFG_RETRY (useCycles l.val none d) ≤ (useCycles l.val none d).est.tries)
      (fun m d => let d1 := useCycles l.val none d
        cellIdle (i d) f m (record 0x0402 (i d) (d1.est.tries + 1) f (fsat F.EST_ERR_A_RECOMP_FAIL 1 (laneError l.val f d1)))) ∧
    (∀ a : Nat, CompletesBoth (.cellUpdate l (.ucodePar a)) (fun _ => H)
      (fun m d => let d1 := record 0x0409 a 0 f (fsat F.EST_ERR_B_UCODE_PAR 1 d)
        estSkip f m (estRunning (fput F.EST_STATUS_UCODE_RELOAD true { d1 with est := { d1.est with ucodeFrames := 0 } })))) ∧
    (∀ o : Nat, CompletesBoth (.cellUpdate l (.paramPar o)) (fun _ => H)
      (fun m d => cellIdle (i d) f m (useCycles l.val none (setParity (entrySet e d) o f d)))) ∧
    (∀ k : Nat, CompletesBoth (.cellUpdate l (.statePar k)) (fun _ d => H d ∧ cellAbsent (cellRec e.burst (i d % 32)) = false ∧
        fbit F.EST_CHEM_BAD (entrySet e d) (blockParity (i d) k f d) = false)
      (fun m d => cellCommit l.val e (i d) true m (blockParity (i d) k f d)))) ∧
  (∀ (l : Fin 8) (r : LaneResult) (f : Nat) (e : EstEntry) (rest : List EstEntry), Completes (.cellUpdate l r)
    (fun d => whole 5 d ∧ d.est.work = some f ∧ d.est.queue = e :: rest ∧ laneNext d = some l.val ∧
      fget (F.ACQ_POS_NCELL e.chain e.pos) d ≤ d.est.cell) cellNext) ∧
  (∀ (l : Fin 8) (r : LaneResult), Ignored (.cellUpdate l r) (fun d => laneNext d ≠ some l.val)) ∧
  (∀ (l : Fin 8) (r : LaneResult), Ignored (.cellUpdate l r) (fun d => d.est.work = none ∨ d.est.queue = [])) ∧
  Completes .estimateCutoff (whole 5) (fun d => { d with est := { d.est with
    cut := some ((cycleNow d + 2 ^ 32 - if flag F.ANG_SCHED_DECIM d then 2 else 1) % 2 ^ 32) } }) ∧
  (∀ (f : Nat), CompletesBoth .estimateWorkEnd (fun _ d => whole 5 d ∧ d.est.work = some f ∧ workDone f d = true)
    (fun m d => let d1 := lanesWait d
      (idleSweep f (fun i => maskBit d1.est.done i) d1 m, workClose f d1))) ∧
  (∀ (f : Nat), Ignored .estimateWorkEnd (fun d => d.est.work = none ∨ (d.est.work = some f ∧ workDone f d = false))) ∧
  (∀ (f : Nat), CompletesBoth .publishCommit (fun _ d => whole 5 d ∧ d.est.pub = some f)
    (fun m d => ownDone (pubOwn f m d) (memPlace (bankAt (pubBank d) d) (pubImage f m d) m)
      (badCovered (bankAt (pubBank d) d) (pubImage f m d).length (alignSend f m (digestOut f (pubDigests f m) (pubShow f m d)))))) ∧
  Ignored .publishCommit (·.est.pub = none) ∧
  (∀ (c : BitVec 15) (all : Bool), Ignored (.estCellInit c false all) (fun _ => 24576 ≤ c.toNat)) ∧
  (∀ (c : BitVec 15) (all atFrame : Bool), Completes (.estCellInit c all atFrame)
    (fun d => whole 5 d ∧ (all = true ∨ c.toNat < 24576) ∧ d.est.work = none)
    (fun d => let due := if atFrame then some (fget F.EST_INIT_FRAME_FRAME d) else none
      { d with est := { d.est with req := some { all, cell := c.toNat, due } } })) ∧
  Completes (.estCtrlEn true) (whole 5) (fun d => estRunning (fput F.EST_CTRL_EN true d)) ∧
  Completes (.estCtrlEn false) (whole 5) (fun d => let d1 := estRunning (fput F.EST_CTRL_EN false d)
    fput F.EST_STATUS_BUSY false { d1 with est := { d1.est with queue := [], cell := 0, tries := 0, failLane := none } }) ∧
  Completes .estClrCnt (whole 5) (fun d => regPut R.EST_ERR_B 0 (regPut R.EST_ERR_A 0 d)) ∧
  (∀ (mask : Byte), Completes (.laneRestore mask) (whole 5)
    (fun d => { d with est := { d.est with testing := d.est.testing ||| (mask.toNat &&& fget F.EST_LANE_FENCED d) } })) ∧
  (∀ (l : Fin 8), Completes (.laneRestored l true) (fun d => whole 5 d ∧ maskBit d.est.testing l.val = true)
    (fun d =>
      let d1 := fbitPut F.EST_LANE_ST_FAIL l.val false
        { d with est := { d.est with testing := maskPut d.est.testing l.val false } }
      record 0x0404 l.val 0 (frameNow d1) (fput F.EST_STATUS_DOWN false (fbitPut F.EST_LANE_FENCED l.val false d1)))) ∧
  (∀ (l : Fin 8), Completes (.laneRestored l false) (fun d => whole 5 d ∧ maskBit d.est.testing l.val = true)
    (fun d => fbitPut F.EST_LANE_ST_FAIL l.val true
      { d with est := { d.est with testing := maskPut d.est.testing l.val false } })) ∧
  (∀ (l : Fin 8) (ok : Bool), Ignored (.laneRestored l ok) (fun d => maskBit d.est.testing l.val = false)) ∧
  (∀ (v : BitVec 16), Completes (.ucodeReloaded v) (fun d => whole 5 d ∧ flag F.EST_STATUS_UCODE_RELOAD d = true)
    (fun d => let d1 := fset F.EST_UCODE_VERSION v.toNat (estRunning (fput F.EST_STATUS_UCODE_RELOAD false d))
      record 0x040A d1.est.ucodeFrames v.toNat (frameNow d1) { d1 with est := { d1.est with ucodeFrames := 0 } })) ∧
  (∀ (v : BitVec 16), Ignored (.ucodeReloaded v) (flag F.EST_STATUS_UCODE_RELOAD · = false)) ∧
  (∀ (k : Fin 8) (e : Nat × List Byte × Nat), CompletesBoth (.paramReloaded k)
    (fun m d => whole 5 d ∧ fbit F.EST_CHEM_BAD k.val d = true ∧
      (chemSets (slotImage m (fget F.CFG_STATUS_SLOT d))).find? (fun x => x.1 == k.val) = some e)
    (fun m d => let d1 := record 0x0407 k.val (tabGet (fun _ => 0) d.est.badFrames k.val) (frameNow d) (fbitPut F.EST_CHEM_BAD k.val false d)
      (memPlace (chemAt k.val) e.2.1 (memErase (chemAt k.val) 0x20000 m), { d1 with est := { d1.est with badFrames := tabSet (fun _ => 0) d1.est.badFrames k.val 0 } }))) ∧
  (∀ (k : Fin 8), Ignored (.paramReloaded k) (fbit F.EST_CHEM_BAD k.val · = false))

/-- With IOX whole: a new level of a switch input is shown with its change and acts, of the same level only the input's own level is
kept; an analogue sample is shown with WIRE and OVR and tested against its limit. SAFE_N low takes a running zone to SAFE; high
for 10 ms, it is shown, and takes the zone out of SAFE; that it is shown no earlier is the model's choice (log 78). ARM with
every condition met enters ARMED, takes the configuration CRC and closes the automatic strings; DISARM of an armed zone opens
its strings; ZCLR clears the zone latch or is recorded as refused; RECONF in ENGINE_HOLD with the same CRC returns to the state
before. A kick with key 0xA5 clears KICK_LATE; a missed kick enters ENGINE_HOLD when armed and else sets KICK_LATE; the hold's
expiry trips the zone. An output in over-current goes off with FAULT; an output off with an open load shows FAULT. -/
def Obligations.InputsAndZoneComplete : Prop :=
  (∀ (i : Fin 48) (level : Bool) (v : Bool), Completes (.switchInputEdge i level)
    (fun d => whole 25 d ∧
      (if fget (F.IOX_SW_CFG_ROLE i.val) d = 1 then level else level != flag (F.IOX_SW_CFG_INV i.val) d) = v ∧ swLevel i.val d ≠ v)
    (fun d => let d1 := { d with prot := { d.prot with swRaw := maskPut d.prot.swRaw i.val level } }
      nsmEval (inputActs i.val (mask48BitPut F.IOX_SW_CHG_LO_CHG F.IOX_SW_CHG_HI_CHG i.val true
        (mask48BitPut F.IOX_SW_LO_LEVEL F.IOX_SW_HI_LEVEL i.val v d1))))) ∧
  (∀ (i : Fin 48) (level : Bool), Completes (.switchInputEdge i level)
    (fun d => whole 25 d ∧
      swLevel i.val d = if fget (F.IOX_SW_CFG_ROLE i.val) d = 1 then level else level != flag (F.IOX_SW_CFG_INV i.val) d)
    (fun d => { d with prot := { d.prot with swRaw := maskPut d.prot.swRaw i.val level } })) ∧
  (∀ (k : Fin 8) (v : BitVec 16), Completes (.analogSample k v) (whole 25)
    (fun d => let wire := flag (F.IOX_AIN_CFG_MODE k.val) d && decide (v.toNat < 7200)
      let d1 := fput (F.IOX_AIN_VAL_OVR k.val) (decide (44000 < v.toNat))
        (fput (F.IOX_AIN_VAL_WIRE k.val) wire (fset (F.IOX_AIN_VAL_VALUE k.val) v.toNat d))
      ainLimit k.val (if wire && !flag (F.IOX_AIN_VAL_WIRE k.val) d then recordC 0x0521 k.val v.toNat d1 else d1))) ∧
  Completes .safeNFall (fun d => d.prot.runs = true ∧ zone (fput F.PROT_STATUS_SAFE_N false d) ≠ 5)
    (fun d => let d1 := fput F.PROT_STATUS_SAFE_N false d
      let d2 := each d1.prot.queue queueDrop (hsPut none d1)
      zoneTo 5 (each (below 48 (fun n => 1 ≤ seqState n d2 && seqState n d2 ≤ 5)) (fun n => tripCore n (srcWord 5 0 0 0)) d2)) ∧
  Completes .safeNFall (fun d => d.prot.runs = false ∨ zone (fput F.PROT_STATUS_SAFE_N false d) = 5)
    (fput F.PROT_STATUS_SAFE_N false) ∧
  Completes .safeExit (fun d => zone (fput F.PROT_STATUS_SAFE_N true d) = 5)
    (fun d => zoneTo (if d.prot.zoneLatch then 4 else 1) (fput F.PROT_STATUS_SAFE_N true d)) ∧
  Completes .safeExit (fun d => zone (fput F.PROT_STATUS_SAFE_N true d) ≠ 5) (fput F.PROT_STATUS_SAFE_N true) ∧
  Completes .protCmdArm (fun d => zone d = 1 ∧ d.prot.runs = true ∧ flag F.PROT_STATUS_SAFE_N d = true ∧
      d.prot.zoneLatch = false ∧ devFault d = false ∧ flag F.PROT_STATUS_KICK_LATE d = false ∧ pairMayArm d = true)
    (fun d => let d1 := zoneTo 2 (fset F.PROT_ARM_CRC_CRC (fget F.CFG_CRC_CRC d) d)
      each (below 48 (fun n => flag (F.PROT_STR_A_AUTO_CLOSE n) d1)) strClose d1) ∧
  Ignored .protCmdArm (fun d => zone d ≠ 1 ∨ d.prot.runs = false ∨ flag F.PROT_STATUS_SAFE_N d = false ∨
    d.prot.zoneLatch = true ∨ devFault d = true ∨ flag F.PROT_STATUS_KICK_LATE d = true ∨ pairMayArm d = false) ∧
  Completes .protCmdDisarm (fun d => zone d = 2)
    (fun d => let d1 := zoneTo 3 (each d.prot.queue queueDrop d)
      zoneSettle (each (stringsOn d1) strOpen d1)) ∧
  Ignored .protCmdDisarm (fun d => zone d ≠ 2) ∧
  Completes .zclr (fun d => zclrOk d = true)
    (fun d => let d1 := recordC 0x0504 0xFF 0 { d with prot := { d.prot with zoneLatch := false } }
      if zone d1 = 4 then zoneTo 1 d1 else d1) ∧
  Completes .zclr (fun d => zclrOk d = false) (recordC 0x0504 0xFF 1) ∧
  Completes .protCmdReconf (fun d => zone d = 6 ∧ fget F.PROT_RECONF_CRC_CRC d = fget F.PROT_ARM_CRC_CRC d)
    (fun d => zoneSettle (zoneTo d.prot.holdPrev (recordC 0x050E 0 (msSince d.prot.holdAt d) d))) ∧
  Completes .protCmdReconf (fun d => zone d = 6 ∧ fget F.PROT_RECONF_CRC_CRC d ≠ fget F.PROT_ARM_CRC_CRC d)
    (fun d => tripZone (srcWord 7 2 0 0) (recordC 0x050E 2 (msSince d.prot.holdAt d) d)) ∧
  Ignored .protCmdReconf (fun d => zone d ≠ 6) ∧
  Completes (.protKick 0xA5) always (fput F.PROT_STATUS_KICK_LATE false) ∧
  (∀ key : BitVec 8, Ignored (.protKick key) (fun _ => key ≠ 0xA5)) ∧
  Completes .kickMissed (fun d => zone d = 2 ∨ zone d = 3) (engineHold 1) ∧
  Ignored .kickMissed (fun d => zone d = 6) ∧
  Completes .kickMissed (fun d => zone d ≠ 2 ∧ zone d ≠ 3 ∧ zone d ≠ 6) (fput F.PROT_STATUS_KICK_LATE true) ∧
  Completes .engineHoldExpiry (fun d => zone d = 6)
    (fun d => tripZone (srcWord 7 1 0 0) (recordC 0x050E 1 (msSince d.prot.holdAt d) d)) ∧
  Ignored .engineHoldExpiry (fun d => zone d ≠ 6) ∧
  (∀ (k : Fin 16), Completes (.lsoFault k) (fun d => whole 25 d ∧ fbit F.IOX_LSO_STAT_STATE k.val d = true)
    (fun d => let d1 := { d with prot := { d.prot with lsoShut := maskPut d.prot.lsoShut k.val true } }
      let d2 := recordC 0x0520 k.val 0 (fbitPut F.IOX_LSO_STAT_FAULT k.val true (fbitPut F.IOX_LSO_STAT_STATE k.val false d1))
      if coilOn (32 + k.val) d then boundOff (32 + k.val) d2 else d2)) ∧
  (∀ (k : Fin 16), Ignored (.lsoFault k) (fun d => fbit F.IOX_LSO_STAT_STATE k.val d = false)) ∧
  (∀ (k : Fin 16), Completes (.lsoOpenLoad k) (fun d => whole 25 d ∧ fbit F.IOX_LSO_STAT_STATE k.val d = false)
    (fun d => recordC 0x0520 k.val 1 (fbitPut F.IOX_LSO_STAT_FAULT k.val true d))) ∧
  (∀ (k : Fin 16), Ignored (.lsoOpenLoad k) (fun d => fbit F.IOX_LSO_STAT_STATE k.val d = true))

/-- CLOSE of a string that passes the close conditions begins the close and of another does nothing. OPEN of a string that is on
starts its opening, of one that is closing ends the close, of another takes it from the queue and revokes an on step not yet
driven. CLR of a string that permits it clears its trip and takes a latched string, or a welded one whose contactors are all
open, to open; of another it is recorded as refused. A contactor whose feedback does not follow its coil takes the string to its
fault state with its coils off; one whose feedback follows changes nothing. -/
def Obligations.StringCommandsComplete : Prop :=
  (∀ (n : Fin 48), Completes (.protStrCmdClose n) (fun d => closeOk n.val d = true) (closeEnter n.val)) ∧
  (∀ (n : Fin 48), Ignored (.protStrCmdClose n) (fun d => closeOk n.val d = false)) ∧
  (∀ (n : Fin 48), Completes (.protStrCmdOpen n) (fun d => seqState n.val d = 4) (seqTo n.val 5)) ∧
  (∀ (n : Fin 48), Completes (.protStrCmdOpen n) (fun d => closing n.val d = true)
    (fun d => zoneSettle (recordC 0x0506 n.val 0 (closeEnds n.val d)))) ∧
  (∀ (n : Fin 48), Completes (.protStrCmdOpen n) (fun d => seqState n.val d ≠ 4 ∧ closing n.val d = false)
    (fun d => closeRevoked n.val (queueDrop n.val d))) ∧
  (∀ (n : Fin 48), Completes (.protStrCmdClr n) (fun d => clrOk n.val d = true)
    (fun d => let d1 := clearBound n.val (recordC 0x0504 n.val 0 (tripLatchPut n.val false d))
      if seqState n.val d1 = 6 ∨ (seqState n.val d1 = 7 ∧ fbAllOpen n.val d1 = true) then seqTo n.val 0 d1 else d1)) ∧
  (∀ (n : Fin 48), Completes (.protStrCmdClr n) (fun d => clrOk n.val d = false) (recordC 0x0504 n.val 1)) ∧
  (∀ (n : Fin 48) (r : Role), Completes (.contactorFbFault n r)
    (fun d => fbClosed n.val r d ≠ coilOn (roleCh n.val r d) d)
    (fun d => zoneSettle (recordC 0x0508 n.val (roleCode r + if coilOn (roleCh n.val r d) d then 0 else 256)
      (seqTo n.val 7 (coilsOff n.val (hsDrop n.val d)))))) ∧
  (∀ (n : Fin 48) (r : Role), Ignored (.contactorFbFault n r) (fun d => fbClosed n.val r d = coilOn (roleCh n.val r d) d))

/-- With the load switches whole: a channel's command is stored and followed, unless the lock keeps a bound channel to PROT; CLR of
an unbound channel that is not hot, and in whose cycle no protection acted, unlatches it or clears its restarts, else it is
recorded as refused; the duty is stored and taken at a period start, to which time passes; pull-in, ramp and window end;
limitation, shorts and over-temperature act on a channel that is on; a retry turns a waiting channel on, the restart count
clears; open load, after OL_MS below the threshold, and the off-state test show their flags; the loss estimate feeds average and
peak; above the budget one channel is shed; the supply's under- and over-voltage and the loss of ground take every channel off,
and the return ends them. -/
def Obligations.LoadSwitchesComplete : Prop :=
  (∀ (ch : Fin 32) (on : Bool), Completes (.chCmdOn ch on)
    (fun d => whole 7 d ∧ chForeign ch.val d = false ∧ chState ch.val (fput (F.LSW_CH_CMD_ON ch.val) on d) ≠ 6)
    (fun d => chApply ch.val (fput (F.LSW_CH_CMD_ON ch.val) on d))) ∧
  (∀ (ch : Fin 32), Completes (.chCmdOn ch false)
    (fun d => whole 7 d ∧ chForeign ch.val d = false ∧ chState ch.val (fput (F.LSW_CH_CMD_ON ch.val) false d) = 6)
    (fun d => let d1 := fput (F.LSW_CH_CMD_ON ch.val) false d
      chanPut ch.val { chan ch.val d1 with shedZero := true } d1)) ∧
  (∀ (ch : Fin 32), Completes (.chCmdOn ch true)
    (fun d => whole 7 d ∧ chForeign ch.val d = false ∧ chState ch.val (fput (F.LSW_CH_CMD_ON ch.val) true d) = 6)
    (fun d => let d1 := fput (F.LSW_CH_CMD_ON ch.val) true d
      if (chan ch.val d1).shedZero then chApply ch.val (chTurnOff ch.val 0 d1) else d1)) ∧
  (∀ (ch : Fin 32) (on : Bool) (duty : BitVec 11), Ignored (.chCmdOn ch on) (chForeign ch.val · = true) ∧
    Ignored (.chPwmDuty ch duty) (chForeign ch.val · = true) ∧ Ignored (.chCmdClr ch) (isBound ch.val · = true)) ∧
  (∀ (ch : Fin 32) (duty : BitVec 11), Completes (.chPwmDuty ch duty) (fun d => whole 7 d ∧ chForeign ch.val d = false)
    (fset (F.LSW_CH_PWM_DUTY ch.val) duty.toNat)) ∧
  (∀ (ch : Fin 32), Completes (.chCmdClr ch)
    (fun d => whole 7 d ∧ isBound ch.val d = false ∧ (chHot ch.val d = true ∨ (chan ch.val d).lastProt = some d.clk))
    (recordC 0x0605 ch.val 1)) ∧
  (∀ (ch : Fin 32), Completes (.chCmdClr ch)
    (fun d => whole 7 d ∧ isBound ch.val d = false ∧ chHot ch.val d = false ∧ (chan ch.val d).lastProt ≠ some d.clk)
    (fun d => recordC 0x0605 ch.val 0 (if chState ch.val d == 3 || chState ch.val d == 4 then chUnlatch ch.val d
      else fset (F.LSW_CH_STAT_RESTARTS ch.val) 0 d))) ∧
  (∀ (ch : Fin 32) (vf : Nat), Ignored (.pwmPeriodStart ch vf) (fun d => chIsOn ch.val d = false ∨
    (fget (F.LSW_CH_CFG_MODE ch.val) d ≠ 1 ∧ fget (F.LSW_CH_CFG_MODE ch.val) d ≠ 2))) ∧
  (∀ (ch : Fin 32) (vf : Nat), Completes (.pwmPeriodStart ch vf)
    (fun d => whole 7 d ∧ chIsOn ch.val d = true ∧ (fget (F.LSW_CH_CFG_MODE ch.val) d = 1 ∨ fget (F.LSW_CH_CFG_MODE ch.val) d = 2))
    (fun d => let d1 := advance (phaseWait ch.val d) d
      let d2 := chanPut ch.val { chan ch.val d1 with startAt := some d1.clk } d1
      pwmBegin ch.val (fget (F.LSW_CH_CFG_MODE ch.val) d) (dutyRaw ch.val vf d2).1 (dutyRaw ch.val vf d2).2)) ∧
  (∀ (ch : Fin 32), Completes (.pullInEnd ch) (whole 7) (fun d => chSettle ch.val (chanPut ch.val { chan ch.val d with pull := false } d))) ∧
  (∀ (ch : Fin 32), Completes (.slewRampEnd ch) (whole 7) (fun d => chSettle ch.val (chanPut ch.val { chan ch.val d with ramp := false } d))) ∧
  (∀ (ch : Fin 32) (low : Bool), Completes (.inrushWindowEnd ch low)
    (fun d => whole 7 d ∧ chIsOn ch.val d = true ∧ (chan ch.val d).inrush = true)
    (fun d => let d1 := chanPut ch.val { chan ch.val d with inrush := false } d
      if flag (F.LSW_CH_STAT_LIMIT ch.val) d1 || (fget (F.LSW_CH_CFG_MODE ch.val) d1 == 3 && low) then chShortOff ch.val d1
      else chSettle ch.val d1)) ∧
  (∀ (ch : Fin 32) (low : Bool), Ignored (.inrushWindowEnd ch low) (fun d => chIsOn ch.val d = false ∨ (chan ch.val d).inrush = false)) ∧
  (∀ (ch : Fin 32), Completes (.currentLimit ch) (fun d => whole 7 d ∧ chIsOn ch.val d = true) (fput (F.LSW_CH_STAT_LIMIT ch.val) true)) ∧
  (∀ (ch : Fin 32), Completes (.chShort ch) (fun d => whole 7 d ∧ chIsOn ch.val d = true ∧ (chan ch.val d).inrush = false)
    (chShortOff ch.val)) ∧
  (∀ (ch : Fin 32) (byDt : Bool) (tj dt : BitVec 12), Completes (.chOvertemp ch byDt tj dt)
    (fun d => whole 7 d ∧ chIsOn ch.val d = true)
    (fun d => let d1 := fset (F.LSW_CH_TEMP_DT ch.val) dt.toNat (fset (F.LSW_CH_TEMP_TJ ch.val) tj.toNat d)
      let d2 := fput (if byDt then F.LSW_CH_FLT_DT ch.val else F.LSW_CH_FLT_OT ch.val) true d1
      let d3 := if chCoupled ch.val d then fput (F.LSW_CH_FLT_COUPLED ch.val) true d2 else d2
      chProtect ch.val 1 0x0602 (fun _ => tj.toNat + b2n byDt * 2 ^ 16 + b2n (chCoupled ch.val d) * 2 ^ 17)
        (chanPut ch.val { chan ch.val d3 with hot := true } d3))) ∧
  (∀ (ch : Fin 32), Completes (.channelRetry ch)
    (fun d => whole 7 d ∧ chState ch.val d = 3 ∧ chHot ch.val d = false ∧ chWant ch.val d = true) (chTurnOn ch.val)) ∧
  (∀ (ch : Fin 32), Completes (.restartCountClear ch) (fun d => whole 7 d ∧ chIsOn ch.val d = true)
    (fset (F.LSW_CH_STAT_RESTARTS ch.val) 0)) ∧
  (∀ (ch : Fin 32), Completes (.chOpenLoad ch) (fun d => whole 7 d ∧ chIsOn ch.val d = true ∧ (chan ch.val d).inrush = false ∧
      max 1 (fget (F.LSW_CH_DIAG_OL_MS ch.val) d) ≤ (chan ch.val d).lowMs)
    (chDiag (F.LSW_CH_FLT_OL_ON ch.val) ch.val 0)) ∧
  (∀ (ch : Fin 32) (byDt : Bool) (tj dt : BitVec 12), Ignored (.currentLimit ch) (chIsOn ch.val · = false) ∧
    Ignored (.chShort ch) (chIsOn ch.val · = false) ∧ Ignored (.chOvertemp ch byDt tj dt) (chIsOn ch.val · = false) ∧
    Ignored (.restartCountClear ch) (chIsOn ch.val · = false) ∧ Ignored (.chOpenLoad ch) (chIsOn ch.val · = false) ∧
    Ignored (.channelRetry ch) (fun d => chState ch.val d ≠ 3)) ∧
  (∀ (ch : Fin 32) (hiOff hiOn : Bool), Completes (.offStateTest ch hiOff hiOn)
    (fun d => whole 7 d ∧ chState ch.val d = 0 ∧ flag (F.LSW_CH_CFG_OLOFF_EN ch.val) d = true ∧ flag F.LSW_SUPPLY_OV d = false ∧
      flag F.LSW_SUPPLY_UV d = false)
    (fun d => if hiOff then chDiag (F.LSW_CH_FLT_SHORT_VAUX ch.val) ch.val 2 d
      else if hiOn then chDiag (F.LSW_CH_FLT_OL_OFF ch.val) ch.val 1 d else d)) ∧
  (∀ (ch : Fin 32) (hiOff hiOn : Bool), Ignored (.offStateTest ch hiOff hiOn)
    (fun d => chState ch.val d ≠ 0 ∨ flag (F.LSW_CH_CFG_OLOFF_EN ch.val) d = false)) ∧
  (∀ (vaux : Nat) (ms : List ChanMeas), Completes (.lossEstimate vaux ms) (whole 7)
    (fun d => lossShow (ms.take 32) (each ((List.range 32).zip ms) (fun e => chMeasure e.1 e.2)
      (extremes vaux (fset F.LSW_SUPPLY_VAUX (min vaux 65535) d))))) ∧
  (∀ (ch : Nat), Completes .lossBudget
    (fun d => whole 7 d ∧ fget F.LSW_BUDGET_BUDGET d < fget F.LSW_PLOSS_AVG d ∧ shedChoice d = some ch)
    (fun d => let d1 := fput (F.LSW_CH_FLT_SHED ch) true (chTurnOff ch 6 d)
      let d2 := chanPut ch { chan ch d1 with shedZero := false } d1
      let d3 := { d2 with lsw := { d2.lsw with shed := maskPut d2.lsw.shed ch true } }
      recordC 0x060A (fget F.LSW_PLOSS_AVG d) d3.lsw.shed d3)) ∧
  Ignored .lossBudget (fun d => fget F.LSW_PLOSS_AVG d ≤ fget F.LSW_BUDGET_BUDGET d ∧ d.lsw.shed = 0 ∧ d.lsw.emptyTold = false) ∧
  (∀ (v : Nat), Completes (.supplyUvStart v) (fun d => whole 7 d ∧ d.lsw.uv = none)
    (fun d => let d1 := fput F.LSW_SUPPLY_UV true { d with lsw := { d.lsw with uv := some ⟨d.clk, v⟩ } }
      supplyOff (recordC 0x0608 v (onMask d1) d1))) ∧
  (∀ (v : Nat), Completes (.supplyOvStart v) (fun d => whole 7 d ∧ d.lsw.ov = none)
    (fun d => let d1 := fput F.LSW_SUPPLY_OV true { d with lsw := { d.lsw with ov := some ⟨d.clk, v⟩ } }
      supplyOff (recordC 0x0606 v (onMask d1) d1))) ∧
  (∀ (e : Excursion), Completes .supplyUvEnd (fun d => whole 7 d ∧ d.lsw.uv = some e)
    (fun d => let d1 := fput F.LSW_SUPPLY_UV false { d with lsw := { d.lsw with uv := none } }
      supplyBack (recordC 0x0609 (msSince e.clk d1) e.extreme d1))) ∧
  (∀ (e : Excursion), Completes .supplyOvEnd (fun d => whole 7 d ∧ d.lsw.ov = some e)
    (fun d => let d1 := fput F.LSW_SUPPLY_OV false { d with lsw := { d.lsw with ov := none } }
      supplyBack (recordC 0x0607 (msSince e.clk d1) e.extreme d1))) ∧
  (∀ v : Nat, Ignored (.supplyUvStart v) (·.lsw.uv ≠ none) ∧ Ignored (.supplyOvStart v) (·.lsw.ov ≠ none) ∧
    Ignored .supplyUvEnd (·.lsw.uv = none) ∧ Ignored .supplyOvEnd (·.lsw.ov = none)) ∧
  Completes .groundLoss (whole 7) (fun d => supplyOff { d with lsw := { d.lsw with noGround := true } })

/-- A packet that its port takes while the engine runs: HELLO of twelve bytes opens a session of the highest common version, and one
that repeats an earlier HELLO is answered again; BYE is answered and closes its session; PING answers the timestamp and its
bytes, STATUS the status; ABORT of a queued request answers it ABORTED and itself OK, ABORT of the abortable request in progress
commits it with ABORTED. After each the engine goes on with its queue. SESSION_TIMEOUT closes an open session; INTERIM_REPLY is
sent once for a request of version 2 or 3; AIX_CMT commits the request that waits for it with its result. -/
def Obligations.SessionCommandsComplete : Prop :=
  (∀ (r : AixPacket) (v : Nat), let q := reqOf r 1 false none
    CompletesBoth (.hello r) (fun _ d => PortTakes q d ∧ q.payload.length = 12 ∧ helloRepeat q (portCounted q d) = none ∧
      helloVer q = some v) (fun m d => aixGo m (helloOpen q v (portCounted q d)))) ∧
  (∀ (r : AixPacket) (k : Nat) (x : AixSession), let q := reqOf r 1 false none
    CompletesBoth (.hello r) (fun _ d => PortTakes q d ∧ q.payload.length = 12 ∧ helloRepeat q (portCounted q d) = some (k, x))
      (fun m d => let d1 := portCounted q d
        aixGo m (aixFrags { q with ver := x.ver, session := x.id, slot := k } stOk 0 [x.reply]
          (sessPut k (some { x with last := d1.clk }) d1)))) ∧
  (∀ (r : AixPacket) (k : Nat) (x : AixSession), let q := reqOf r 2 false none
    CompletesBoth (.bye r) (fun _ d => SessionTakes q k x d ∧ q.payload = [])
      (fun m d => aixGo m (sessClose k q.seq 0 (aixFinal (inSession q k x) stOk [] (aixHeard q k x d))))) ∧
  (∀ (r : AixPacket) (k : Nat) (x : AixSession), let q := reqOf r 3 false none
    CompletesBoth (.ping r) (fun _ d => SessionTakes q k x d ∧ q.payload.length ≤ 64)
      (fun m d => let d1 := aixHeard q k x d
        aixGo m (aixAnswer (inSession q k x) stOk [leBytes 6 (tsNow d1) ++ [0, 0] ++ q.payload] d1))) ∧
  (∀ (r : AixPacket) (k : Nat) (x : AixSession), let q := reqOf r 4 false none
    CompletesBoth (.status r) (fun _ d => SessionTakes q k x d ∧ q.payload = [])
      (fun m d => aixGo m (aixAnswer (inSession q k x) stOk [opStatus (aixHeard q k x d)] (aixHeard q k x d)))) ∧
  (∀ (r : AixPacket) (k : Nat) (x : AixSession) (z : AixReq), let q := reqOf r 5 false none
    let t := field q.payload 0 2
    CompletesBoth (.abort r) (fun _ d => SessionTakes q k x d ∧ q.payload.length = 2 ∧
        tenantTarget (inSession q k x) t (aixHeard q k x d) = false ∧
        (aixHeard q k x d).aix.queue.find? (fun y => sameSess y (inSession q k x) && y.seq == t) = some z)
      (fun m d =>
        let d1 := abortTold (inSession q k x) t 0 (aixHeard q k x d)
        let d2 := aixPut { (aixHeard q k x d).aix with queue := (aixHeard q k x d).aix.queue.erase z } d1
        aixGo m (abortReply (inSession q k x) stOk 0 (aixFrags z stAborted 0 [] (cachePut z stAborted [] d2))))) ∧
  (∀ (r : AixPacket) (k : Nat) (x : AixSession) (z : AixReq), let q := reqOf r 5 false none
    let t := field q.payload 0 2
    CompletesBoth (.abort r) (fun _ d => SessionTakes q k x d ∧ q.payload.length = 2 ∧
        tenantTarget (inSession q k x) t (aixHeard q k x d) = false ∧ d.aix.queue = [] ∧ d.aix.cur = some z ∧
        sameSess z (inSession q k x) = true ∧ z.seq = t ∧ opAb z.opcode = true)
      (fun m d => let o := aixCommit (some stAborted) m (abortTold (inSession q k x) t 1 (aixHeard q k x d))
        aixGo o.1 (abortReply (inSession q k x) stOk 0 o.2))) ∧
  (∀ (key : Fin 33) (x : AixSession), Completes (.sessionTimeout key) (fun d => whole 10 d ∧ sessOf key.val d = some x)
    (fun d => recordC 0x0902 (key.val % 32 / 4 + key.val % 4 * 8) 1 (sessPut key.val none d))) ∧
  (∀ (key : Fin 33), Ignored (.sessionTimeout key) (sessOf key.val · = none)) ∧
  (∀ (q : AixReq), Completes .interimReply
    (fun d => whole 10 d ∧ d.aix.cur = some q ∧ 2 ≤ q.ver ∧ d.aix.interim = false ∧ engineUp d = true)
    (fun d => aixFrags q stOk 2 [] (aixPut { d.aix with interim := true } d))) ∧
  (∀ (q : AixReq), Ignored .interimReply (fun d => d.aix.cur = none ∨ (d.aix.cur = some q ∧ (q.ver < 2 ∨ d.aix.interim = true)))) ∧
  (∀ (q : AixReq) (st : Nat) (frags : List (List Byte)), CompletesBoth .aixCmt
    (fun _ d => d.aix.held = true ∧ engineUp d = true ∧ d.aix.cur = some q ∧ d.aix.ready = some (st, frags))
    (fun m d => aixGo m (aixDone st frags d))) ∧
  Ignored .aixCmt (fun d => d.aix.held = false ∨ engineUp d = false)

/-- A frame with a bad FCS is counted as received and as such, at a port that takes frames. A datagram at an open port: with a wrong
tag, split or to another UDP port it is counted as dropped; to Aidex with a wrong form, a wrong CRC or a source that the
drawer's list does not permit it is counted at its own counter, the last recorded; at a closed port nothing happens. A
tenant-class request of an active tenant whose ring has room is placed in the ring, or dropped with a ring error where the
access is refused. A tenant's producer and consumer index are taken when the ring then holds at most 16 entries, and the replies
drained while the drawer is enabled and trestle 0 runs; else RING_ERR. A tenant request that has had no final reply is answered
TMO, at once while trestle 0 runs and else once it runs again, and recorded. CLR_CNT clears the eight AIX counters. -/
def Obligations.DatagramsAndDrawersComplete : Prop :=
  (∀ (g : Datagram), let P (d : Dev) : Prop := g.badFcs = false ∧ portOpen g.port.val g.src.toNat d = true
    let d1 (d : Dev) : Dev := fsat (F.ETH_CNT_RX_CNT g.port.val) 1 d
    let q := dgReq g.port.val g.src.toNat g.sport.toNat g.bytes
    let ours (d : Dev) : Prop := P d ∧ vlanOk g.port.val g.vid (d1 d) = true ∧ g.split = false ∧
      g.dport.toNat = fget F.AIX_PORT_PORT (d1 d) ∧ aixOn g.port.val (d1 d) = true
    Ignored (.datagramDiscarded g) (fun d => g.badFcs = false ∧ portOpen g.port.val g.src.toNat d = false) ∧
    Completes (.datagramDiscarded g) (fun d => P d ∧ (vlanOk g.port.val g.vid (d1 d) = false ∨ g.split = true ∨
      g.dport.toNat ≠ fget F.AIX_PORT_PORT (d1 d))) (fun d => fsat (F.ETH_CNT_DROP_CNT g.port.val) 1 (d1 d)) ∧
    Completes (.datagramDiscarded g) (fun d => ours d ∧ (dgForm g.bytes = false ∨ formOk q = false))
      (fun d => fsat F.AIX_CNT_FMT_CNT 1 (d1 d)) ∧
    Completes (.datagramDiscarded g) (fun d => ours d ∧ dgForm g.bytes = true ∧ formOk q = true ∧ dgCrc g.bytes = false)
      (fun d => fsat F.AIX_CNT_CRC_CNT 1 (d1 d)) ∧
    Completes (.datagramDiscarded g) (fun d => ours d ∧ dgForm g.bytes = true ∧ formOk q = true ∧ dgCrc g.bytes = true ∧
        aclPermits q.drawer q.src (d1 d) = false)
      (fun d => recordC 0x0905 q.drawer (q.src % 2 ^ 32) (fsat F.AIX_CNT_ACL_CNT 1 (d1 d))) ∧
    Completes (.datagramDiscarded g) (fun d => g.badFcs = true ∧ ethTakes g.port.val d = true ∧ cut (13 + g.port.val) d = false)
      (fun d => fsat (F.ETH_CNT_FCS_CNT g.port.val) 1 (d1 d)) ∧
    Ignored (.datagramDiscarded g) (fun d => g.badFcs = true ∧ (ethTakes g.port.val d = false ∨ cut (13 + g.port.val) d = true))) ∧
  (∀ (r : AixPacket) (op : BitVec 15) (k : Nat) (x : AixSession), let q := reqOf r (0x8000 + op.toNat) false none
    CompletesBoth (.tenantRequest r op) (fun _ d => SessionTakes q k x d ∧ q.drawer ≠ 0 ∧
        (sessOf k (aixHeard q k x d)).any (fun y => y.long.contains q.seq) = false ∧
        windowFull (inSession q k x) (aixHeard q k x d) = false ∧ tenantDown q.drawer (aixHeard q k x d) = false ∧
        ringFull q.drawer (aixHeard q k x d) = false)
      (fun m d => let o := ringPlace q.drawer (requestBytes (inSession q k x) 0) m (aixHeard q k x d)
        aixGo o.2.1 (if o.1 then aixPut { o.2.2.aix with tenants := o.2.2.aix.tenants ++ [{ req := inSession q k x }] } o.2.2
          else o.2.2))) ∧
  (∀ (k : Fin 7) (v : BitVec 5), CompletesBoth (.tenantReply k v)
    (fun _ d => whole 10 d ∧ ringHeld v.toNat (fget (F.DRW_RSP_CONS_IDX (k.val + 1)) d) ≤ 16)
    (fun m d => let d1 := fset (F.DRW_RSP_PROD_IDX (k.val + 1)) v.toNat d
      (m, if flag (F.DRW_CTRL_EN (k.val + 1)) d1 && tl0Runs d1 then replyDrain (k.val + 1) m 16 d1 else d1))) ∧
  (∀ (k : Fin 7) (v : BitVec 5), CompletesBoth (.tenantReply k v)
    (fun _ d => whole 10 d ∧ 16 < ringHeld v.toNat (fget (F.DRW_RSP_CONS_IDX (k.val + 1)) d))
    (fun m d => let d1 := drwInt (k.val + 1) (F.DRW_INT_RING_ERR (k.val + 1)) d
      (m, if flag (F.DRW_CTRL_EN (k.val + 1)) d1 && tl0Runs d1 then replyDrain (k.val + 1) m 16 d1 else d1))) ∧
  (∀ (k : Fin 7) (v : BitVec 5), Completes (.drwReqCons k v)
    (fun d => whole 10 d ∧ ringHeld (fget (F.DRW_REQ_PROD_IDX (k.val + 1)) d) v.toNat ≤ 16)
    (fset (F.DRW_REQ_CONS_IDX (k.val + 1)) v.toNat)) ∧
  (∀ (k : Fin 7) (v : BitVec 5), Completes (.drwReqCons k v)
    (fun d => whole 10 d ∧ 16 < ringHeld (fget (F.DRW_REQ_PROD_IDX (k.val + 1)) d) v.toNat)
    (drwInt (k.val + 1) (F.DRW_INT_RING_ERR (k.val + 1)))) ∧
  (∀ (i : Nat) (x : AixTenant), Completes (.tenantTimeout i) (fun d => whole 10 d ∧ d.aix.tenants[i]? = some x)
    (fun d => recordC 0x0906 (drawerWord x.req) x.req.opcode (aixOwe x.req stTmo
      (fsat F.AIX_CNT_TMO_CNT 1 { d with aix := { d.aix with tenants := d.aix.tenants.eraseIdx i } })))) ∧
  (∀ (i : Nat), Ignored (.tenantTimeout i) (·.aix.tenants[i]? = none)) ∧
  Completes .aixClrCnt (whole 10) (each [R.AIX_CNT_CRC, R.AIX_CNT_FMT, R.AIX_CNT_ACL, R.AIX_CNT_DUP, R.AIX_CNT_BUSY,
    R.AIX_CNT_DROP, R.AIX_CNT_TMO, R.AIX_CNT_BADRSP] (fun r => regPut r 0))

/-- AIX_CMT of a request that waits for it with its result ready, one reply fragment, no ABORT deferred, nothing queued, while the
engine runs and the request came by Ethernet (and the status is not RECOMPUTED, which version 1 is told as OK): exec answers a
next state in which no request is in progress or held, AIX_CMT_SEQ names its SEQ, drawer and slot, and exactly one datagram more
has left: the reply with its status and bytes, FLAGS REPLY alone, tagged as ETH_VLAN says, to the address and port that the
request came from. The memories and the queue of commands stand. -/
def Obligations.CommittedRequestIsAnswered : Prop :=
  ∀ (q : AixReq) (st : Nat) (p : List Byte) (s : State), s.dev.aix.cur = some q → s.dev.aix.held = true →
    s.dev.aix.ready = some (st, [p]) → s.dev.aix.deferred = [] → s.dev.aix.queue = [] → engineUp s.dev = true → q.via < 2 →
    st ≠ stRecomputed →
    ∃ (u : State) (hop : Nat), exec .aixCmt s = .next u ∧ u.dev.aix.cur = none ∧ u.dev.aix.held = false ∧
      fget F.AIX_CMT_SEQ_SEQ u.dev = q.seq % 65536 ∧ fget F.AIX_CMT_SEQ_DRAWER u.dev = q.drawer % 8 ∧
      fget F.AIX_CMT_SEQ_SLOT u.dev = q.slot % 4 ∧
      u.dev.out = .udp q.via (ethTag q.via s.dev) q.src hop q.sport (fget F.AIX_PORT_PORT s.dev) (aixBytes q 1 st p) :: s.dev.out ∧
      u.mem = s.mem ∧ u.pending = s.pending

/-- Each request here is one of a session that the idle engine takes: its checks pass (EngineTakes), no other request waits, and B
is the device as the engine begins it. The state after it is stated exactly. With the answer OK ready (at once, or kept for the
commit write where the request is held): CONFIG_LOAD whose block is accepted, with RECEIVED; CONFIG_READ of bytes inside the
image, with them; ARM whose conditions are met, the zone armed, with ARM_CRC; DISARM, with the zone state after it; STRING_CMD 1
on a string that passes the close conditions, 2 on any and 3 on one that may be cleared, the string closing, opening or cleared,
with its state; ZONE_CLEAR that is permitted, with the zone state; CHANNEL_CMD to an unbound load channel (the block whole) or
low-side output, commanded, with its state; OUTPUT_STATUS, with the outputs. PAIR_ROLE of a paired member in DISARMED with the
link up starts the negotiation with its preference, tells the partner and stays in progress. CONFIG_COMMIT, not held, that
passes its checks commits with OK and takes effect; held, it waits for its commit write. -/
def Obligations.EngineConfigurationAndOutputsComplete : Prop :=
  (∀ (r : AixPacket) (hold : Bool) (k : Nat) (x : AixSession), let q := reqOf r 0x0101 hold none
    let B := engineBegun q k x
    CompletesBoth (.configLoad r hold) (fun m d => EngineTakes q k x d ∧ (configLoad (field q.payload 0 4) (field q.payload 4 4) (q.payload.drop 8) m (B d)).1 = stOk)
      (fun m d => let e := configLoad (field q.payload 0 4) (field q.payload 4 4) (q.payload.drop 8) m (B d)
        aixPump 1 e.2.1 (aixReady stOk [leBytes 4 (fget F.CFG_STAGE_LEN_RECEIVED e.2.2)] (e.2.2)))) ∧
  (∀ (r : AixPacket) (hold : Bool) (k : Nat) (x : AixSession), let q := reqOf r 0x0103 hold none
    let B := engineBegun q k x
    CompletesBoth (.configRead r hold) (fun m d => EngineTakes q k x d ∧ field q.payload 4 4 + field q.payload 8 2 ≤ (readImage (field q.payload 0 1) m (B d)).length)
      (fun m d => aixPump 1 m (aixReady stOk [((readImage (field q.payload 0 1) m (B d)).drop (field q.payload 4 4)).take (field q.payload 8 2)] (B d)))) ∧
  (∀ (r : AixPacket) (hold : Bool) (k : Nat) (x : AixSession), let q := reqOf r 0x0104 hold none
    let B := engineBegun q k x
    CompletesBoth (.pairRole r hold) (fun _ d => EngineTakes q k x d ∧ paired (B d) = true ∧ zone (B d) = 1 ∧ peerUp (B d) = true)
      (fun m d => aixPump 1 m (roleMessage true (roleTo 2 (pairPut { (B d).pair with prefers := field q.payload 0 1 == 0, fromLone := false } (B d)))))) ∧
  (∀ (r : AixPacket) (hold : Bool) (k : Nat) (x : AixSession), let q := reqOf r 0x0201 hold none
    let B := engineBegun q k x
    CompletesBoth (.arm r hold) (fun _ d => EngineTakes q k x d ∧ armOk (B d) = true)
      (fun m d => aixPump 1 m (aixReady stOk [leBytes 4 (fget F.PROT_ARM_CRC_CRC (protArm (B d)))] (protArm (B d))))) ∧
  (∀ (r : AixPacket) (hold : Bool) (k : Nat) (x : AixSession), let q := reqOf r 0x0202 hold none
    let B := engineBegun q k x
    CompletesBoth (.disarm r hold) (fun _ d => EngineTakes q k x d)
      (fun m d => aixPump 1 m (aixReady stOk [leBytes 1 (zone (protDisarm (B d)))] (protDisarm (B d))))) ∧
  (∀ (r : AixPacket) (hold : Bool) (k : Nat) (x : AixSession), let q := reqOf r 0x0203 hold none
    let B := engineBegun q k x
    CompletesBoth (.stringCmd r hold) (fun _ d => EngineTakes q k x d ∧ field q.payload 1 1 = 1 ∧ closeOk (field q.payload 0 1) (B d) = true)
      (fun m d => let d1 := strClose (field q.payload 0 1) (B d)
        aixPump 1 m (aixReady stOk [leBytes 1 (seqState (field q.payload 0 1) d1) ++ [0]] (d1)))) ∧
  (∀ (r : AixPacket) (hold : Bool) (k : Nat) (x : AixSession), let q := reqOf r 0x0203 hold none
    let B := engineBegun q k x
    CompletesBoth (.stringCmd r hold) (fun _ d => EngineTakes q k x d ∧ field q.payload 1 1 = 2)
      (fun m d => let d1 := strOpen (field q.payload 0 1) (B d)
        aixPump 1 m (aixReady stOk [leBytes 1 (seqState (field q.payload 0 1) d1) ++ [0]] (d1)))) ∧
  (∀ (r : AixPacket) (hold : Bool) (k : Nat) (x : AixSession), let q := reqOf r 0x0203 hold none
    let B := engineBegun q k x
    CompletesBoth (.stringCmd r hold) (fun _ d => EngineTakes q k x d ∧ field q.payload 1 1 = 3 ∧ clrOk (field q.payload 0 1) (B d) = true)
      (fun m d => let d1 := strClr (field q.payload 0 1) (B d)
        aixPump 1 m (aixReady stOk [leBytes 1 (seqState (field q.payload 0 1) d1) ++ [0]] (d1)))) ∧
  (∀ (r : AixPacket) (hold : Bool) (k : Nat) (x : AixSession), let q := reqOf r 0x0204 hold none
    let B := engineBegun q k x
    CompletesBoth (.zoneClear r hold) (fun _ d => EngineTakes q k x d ∧ zclrOk (B d) = true)
      (fun m d => aixPump 1 m (aixReady stOk [leBytes 1 (zone (zclr (B d)))] (zclr (B d))))) ∧
  (∀ (r : AixPacket) (hold : Bool) (k : Nat) (x : AixSession), let q := reqOf r 0x0205 hold none
    let B := engineBegun q k x
    CompletesBoth (.channelCmd r hold) (fun _ d => EngineTakes q k x d ∧ q.drawer = 0 ∧ field q.payload 0 1 < 32 ∧ isBound (field q.payload 0 1) (B d) = false ∧ cut 7 (B d) = false)
      (fun m d => let c := field q.payload 0 1
        let d1 := match field q.payload 1 1 with
          | 0 => chCmdOn c false (B d)
          | 1 => chCmdOn c true (B d)
          | 2 => chPwmDuty c (min (field q.payload 2 2) 0x7FF) (B d)
          | _ => chCmdClr c (B d)
        aixPump 1 m (aixReady stOk [leBytes 1 (chState c d1) ++ [0]] (d1)))) ∧
  (∀ (r : AixPacket) (hold : Bool) (k : Nat) (x : AixSession), let q := reqOf r 0x0205 hold none
    let B := engineBegun q k x
    CompletesBoth (.channelCmd r hold) (fun _ d => EngineTakes q k x d ∧ q.drawer = 0 ∧ 32 ≤ field q.payload 0 1 ∧ isBound (field q.payload 0 1) (B d) = false)
      (fun m d => let c := field q.payload 0 1 - 32
        let d1 := lsoApply c (fbitPut F.IOX_LSO_OUT_ON c (field q.payload 1 1 == 1) (B d))
        aixPump 1 m (aixReady stOk [leBytes 1 (b2n (fbit F.IOX_LSO_STAT_STATE c d1)) ++ [0]] (d1)))) ∧
  (∀ (r : AixPacket) (hold : Bool) (k : Nat) (x : AixSession), let q := reqOf r 0x0206 hold none
    let B := engineBegun q k x
    CompletesBoth (.outputStatus r hold) (fun _ d => EngineTakes q k x d)
      (fun m d => aixPump 1 m (aixReady stOk [opOutputs (B d)] (B d)))) ∧
  (∀ (r : AixPacket) (fault : Option Nat) (k : Nat) (x : AixSession) (frags : List (List Byte)), let q := reqOf r 0x0102 false fault
    let B := engineBegun q k x
    CompletesBoth (.configCommit r false fault) (fun m d => EngineTakes q k x d ∧ (opCommit q.payload m (B d)).1 = some (stOk, frags))
      (fun m d => let o := opCommit q.payload m (B d)
        let e := abEffect (inSession q k x) o.2.1 (aixDone stOk frags o.2.2)
        aixPump 1 e.1 e.2)) ∧
  (∀ (r : AixPacket) (fault : Option Nat) (k : Nat) (x : AixSession), let q := reqOf r 0x0102 true fault
    let B := engineBegun q k x
    CompletesBoth (.configCommit r true fault) (fun _ d => EngineTakes q k x d)
      (fun m d => aixPump 1 m (aixPut { (B d).aix with held := true } (B d))))

/-- Each request here is one of a session that the idle engine takes (EngineTakes; B is the device as the engine begins it), and the
state after it is stated exactly. EST_READ, not held, whose reading of the published set changes nothing commits with the status
and the bytes that it gives, and LOG_READ, not held, whose reading succeeds commits with OK and the records; held, each waits
for its commit write. RECORD_READ ends in what its reading of the device gives. CELL_INIT with the bench whole stores its frame,
keeps the request for the bench and has the answer OK ready, BAL_ENABLE sets the enable and has OK ready, LOG_STATUS has the
state of the log ready: at once, or kept for the commit write where the request is held. BAL_SET whose service access is
accepted enters the access and stays in progress. -/
def Obligations.EngineEstimationAndRecordsComplete : Prop :=
  (∀ (r : AixPacket) (k : Nat) (x : AixSession) (st : Nat) (frags : List (List Byte)), let q := reqOf r 0x0301 false none
    let B := engineBegun q k x
    CompletesBoth (.estRead r false) (fun m d => EngineTakes q k x d ∧ opEstRead q.payload m (B d) = (some (st, frags), m, B d))
      (fun m d => aixPump 1 m (aixDone st frags (B d)))) ∧
  (∀ (r : AixPacket) (k : Nat) (x : AixSession), let q := reqOf r 0x0301 true none
    let B := engineBegun q k x
    CompletesBoth (.estRead r true) (fun _ d => EngineTakes q k x d)
      (fun m d => aixPump 1 m (aixPut { (B d).aix with held := true } (B d)))) ∧
  (∀ (r : AixPacket) (hold : Bool) (k : Nat) (x : AixSession), let q := reqOf r 0x0302 hold none
    let B := engineBegun q k x
    CompletesBoth (.recordRead r hold) (fun _ d => EngineTakes q k x d)
      (fun m d => let o := aixOut (opRecordRead q.payload m (B d))
        aixPump 1 o.1 o.2)) ∧
  (∀ (r : AixPacket) (hold : Bool) (k : Nat) (x : AixSession), let q := reqOf r 0x0303 hold none
    let B := engineBegun q k x
    CompletesBoth (.cellInit r hold) (fun _ d => EngineTakes q k x d ∧ cut 5 (fset F.EST_INIT_FRAME_FRAME (field q.payload 4 4) (B d)) = false)
      (fun m d => aixPump 1 m (aixReady stOk [[]] (cellInit (field q.payload 0 2) (field q.payload 2 1 != 0) (field q.payload 3 1 != 0)
        (fset F.EST_INIT_FRAME_FRAME (field q.payload 4 4) (B d)))))) ∧
  (∀ (r : AixPacket) (hold : Bool) (k : Nat) (x : AixSession), let q := reqOf r 0x0304 hold none
    let B := engineBegun q k x
    CompletesBoth (.balEnable r hold) (fun _ d => EngineTakes q k x d)
      (fun m d => aixPump 1 m (aixReady stOk [[]] (fput F.ACQ_CTRL_BAL_EN (field q.payload 0 1 != 0) (balKeep (B d)))))) ∧
  (∀ (r : AixPacket) (hold : Bool) (k : Nat) (x : AixSession) (d1 : Dev), let q := reqOf r 0x0305 hold none
    let B := engineBegun q k x
    CompletesBoth (.balSet r hold) (fun _ d => EngineTakes q k x d ∧ svcAsk true (field q.payload 0 1) (field q.payload 1 1) ((Config.balWord 0).toNat % 0x20000) (field q.payload 2 2) 1 (B d) = (none, d1))
      (fun m _ => aixPump 1 m d1)) ∧
  (∀ (r : AixPacket) (k : Nat) (x : AixSession) (frags : List (List Byte)), let q := reqOf r 0x0401 false none
    let B := engineBegun q k x
    CompletesBoth (.logRead r false) (fun m d => EngineTakes q k x d ∧ opLogRead q.payload m (B d) = (some (stOk, frags), m, B d))
      (fun m d => aixPump 1 m (aixDone stOk frags (B d)))) ∧
  (∀ (r : AixPacket) (k : Nat) (x : AixSession), let q := reqOf r 0x0401 true none
    let B := engineBegun q k x
    CompletesBoth (.logRead r true) (fun _ d => EngineTakes q k x d)
      (fun m d => aixPump 1 m (aixPut { (B d).aix with held := true } (B d)))) ∧
  (∀ (r : AixPacket) (hold : Bool) (k : Nat) (x : AixSession), let q := reqOf r 0x0402 hold none
    let B := engineBegun q k x
    CompletesBoth (.logStatus r hold) (fun _ d => EngineTakes q k x d)
      (fun m d => aixPump 1 m (aixReady stOk [opLogStatus (B d)] (B d))))

/-- Each request here is one of a session that the idle engine takes (EngineTakes; B is the device as the engine begins it), and the
state after it is stated exactly. UPDATE_BEGIN that succeeds and UPDATE_BLOCK that succeeds, not held, commit with BLOCKS and
with the block and DONE. UPDATE_ACTIVATE whose checks pass starts the activation: where the partner is asked it stays in
progress; else, prepared and not held, it commits and takes effect. SLEEP, not held, with no wake input at its wake level,
commits and begins the sleep; held, it waits for its commit write. UPDATE_STATUS, POWER_STATUS and NET_STATUS have what stands
ready as the answer OK, UPDATE_CANCEL that succeeds cancels and has OK ready. SET_PLEVEL has OK ready where the change is over
at once, and else stays in progress. REG_READ and REG_WRITE end in what their accesses give. SAT_READ and SAT_WRITE whose
service access is accepted enter it and stay in progress. TENANT_CTRL resets or releases a tenant and has its state ready;
NET_SLEEP_POLICY sets channels, target, idle time and enable, and has OK ready; ROUTE_SEND of a route that can take the frame
sends it and has OK ready. An answer that is ready leaves at once, or is kept for the commit write where the request is held. -/
def Obligations.EngineServicesComplete : Prop :=
  (∀ (r : AixPacket) (k : Nat) (x : AixSession) (d1 : Dev), let q := reqOf r 0x0501 false none
    let B := engineBegun q k x
    CompletesBoth (.updateBegin r false) (fun m d => EngineTakes q k x d ∧ updBegin (field q.payload 0 1) (q.payload.drop 4) q.ver m (B d) = (stOk, d1))
      (fun m _ => aixPump 1 m (aixDone stOk [leBytes 4 (fget F.UPD_BLOCKS_BLOCKS d1)] d1))) ∧
  (∀ (r : AixPacket) (k : Nat) (x : AixSession), let q := reqOf r 0x0502 false none
    let B := engineBegun q k x
    CompletesBoth (.updateBlock r false) (fun m d => EngineTakes q k x d ∧ (updBlock (field q.payload 0 4) (q.payload.drop 4) m (B d)).1 = stOk)
      (fun m d => let e := updBlock (field q.payload 0 4) (q.payload.drop 4) m (B d)
        aixPump 1 e.2.1 (aixDone stOk [q.payload.take 4 ++ leBytes 4 (fget F.UPD_DONE_DONE e.2.2)] e.2.2))) ∧
  (∀ (r : AixPacket) (hold : Bool) (k : Nat) (x : AixSession) (d1 : Dev), let q := reqOf r 0x0503 hold none
    let B := engineBegun q k x
    CompletesBoth (.updateActivate r hold) (fun _ d => EngineTakes q k x d ∧ 
        activateCheck (field q.payload 0 1 == 1) q.ver (B d) = (none, d1) ∧
        (activateStart (field q.payload 0 1 == 1) d1).upd.asked = true)
      (fun m _ => aixPump 1 m (activateStart (field q.payload 0 1 == 1) d1))) ∧
  (∀ (r : AixPacket) (k : Nat) (x : AixSession) (d1 : Dev), let q := reqOf r 0x0503 false none
    let B := engineBegun q k x
    CompletesBoth (.updateActivate r false) (fun m d => EngineTakes q k x d ∧ 
        activateCheck (field q.payload 0 1 == 1) q.ver (B d) = (none, d1) ∧
        (activateStart (field q.payload 0 1 == 1) d1).upd.asked = false ∧
        (activateStart (field q.payload 0 1 == 1) d1).aix = (B d).aix ∧
        (activatePrepare m (activateStart (field q.payload 0 1 == 1) d1)).1 = stOk)
      (fun m _ => let e := activatePrepare m (activateStart (field q.payload 0 1 == 1) d1)
        let o := abEffect (inSession q k x) e.2.1 (aixDone stOk [[]] e.2.2)
        aixPump 1 o.1 o.2)) ∧
  (∀ (r : AixPacket) (hold : Bool) (k : Nat) (x : AixSession), let q := reqOf r 0x0504 hold none
    let B := engineBegun q k x
    CompletesBoth (.updateStatus r hold) (fun _ d => EngineTakes q k x d)
      (fun m d => aixPump 1 m (aixReady stOk [opUpdateStatus (B d)] (B d)))) ∧
  (∀ (r : AixPacket) (hold : Bool) (k : Nat) (x : AixSession), let q := reqOf r 0x0505 hold none
    let B := engineBegun q k x
    CompletesBoth (.updateCancel r hold) (fun m d => EngineTakes q k x d ∧ (updCancel m (B d)).1 = stOk)
      (fun m d => let e := updCancel m (B d)
        aixPump 1 e.2.1 (aixReady stOk [[]] e.2.2))) ∧
  (∀ (r : AixPacket) (k : Nat) (x : AixSession), let q := reqOf r 0x0601 false none
    let B := engineBegun q k x
    CompletesBoth (.sleep r false) (fun _ d => EngineTakes q k x d ∧ wakeInputs (B d) = [])
      (fun m d => let d1 := aixDone stOk [q.payload.take 1] (B d)
        aixPump 1 m (sleepBegin (field q.payload 0 1) false (fset F.PWR_SLEEP_STATE (field q.payload 0 1) d1)))) ∧
  (∀ (r : AixPacket) (k : Nat) (x : AixSession), let q := reqOf r 0x0601 true none
    let B := engineBegun q k x
    CompletesBoth (.sleep r true) (fun _ d => EngineTakes q k x d)
      (fun m d => aixPump 1 m (aixPut { (B d).aix with held := true } (B d)))) ∧
  (∀ (r : AixPacket) (hold : Bool) (k : Nat) (x : AixSession), let q := reqOf r 0x0602 hold none
    let B := engineBegun q k x
    CompletesBoth (.setPlevel r hold) (fun _ d => EngineTakes q k x d ∧ flag F.PWR_PL_BUSY (plWrite (field q.payload 0 1) (B d)) = false)
      (fun m d => aixPump 1 m (aixReady stOk [q.payload.take 1] (plWrite (field q.payload 0 1) (B d))))) ∧
  (∀ (r : AixPacket) (hold : Bool) (k : Nat) (x : AixSession), let q := reqOf r 0x0602 hold none
    let B := engineBegun q k x
    CompletesBoth (.setPlevel r hold) (fun _ d => EngineTakes q k x d ∧ flag F.PWR_PL_BUSY (plWrite (field q.payload 0 1) (B d)) = true)
      (fun m d => aixPump 1 m (plWrite (field q.payload 0 1) (B d)))) ∧
  (∀ (r : AixPacket) (hold : Bool) (k : Nat) (x : AixSession), let q := reqOf r 0x0603 hold none
    let B := engineBegun q k x
    CompletesBoth (.powerStatus r hold) (fun _ d => EngineTakes q k x d)
      (fun m d => aixPump 1 m (aixReady stOk [opPowerStatus (B d)] (B d)))) ∧
  (∀ (r : AixPacket) (hold : Bool) (k : Nat) (x : AixSession), let q := reqOf r 0x0701 hold none
    let B := engineBegun q k x
    CompletesBoth (.regRead r hold) (fun _ d => EngineTakes q k x d)
      (fun m d => let o := aixOut (regReads (inSession q k x) m (field q.payload 6 2) (B d))
        aixPump 1 o.1 o.2)) ∧
  (∀ (r : AixPacket) (hold : Bool) (k : Nat) (x : AixSession), let q := reqOf r 0x0702 hold none
    let B := engineBegun q k x
    CompletesBoth (.regWrite r hold) (fun _ d => EngineTakes q k x d)
      (fun m d => let o := aixOut (regWritesDo (inSession q k x) (field q.payload 6 2) m (B d))
        aixPump 1 o.1 o.2)) ∧
  (∀ (r : AixPacket) (hold : Bool) (k : Nat) (x : AixSession) (d1 : Dev), let q := reqOf r 0x0703 hold none
    let B := engineBegun q k x
    CompletesBoth (.satRead r hold) (fun _ d => EngineTakes q k x d ∧ svcAsk false (field q.payload 0 1) (field q.payload 1 1) (field q.payload 2 3) 0 (field q.payload 5 1) (B d) = (none, d1))
      (fun m _ => aixPump 1 m d1)) ∧
  (∀ (r : AixPacket) (hold : Bool) (k : Nat) (x : AixSession) (d1 : Dev), let q := reqOf r 0x0704 hold none
    let B := engineBegun q k x
    CompletesBoth (.satWrite r hold) (fun _ d => EngineTakes q k x d ∧ svcAsk true (field q.payload 0 1) (field q.payload 1 1) (field q.payload 2 3) (field q.payload 5 2) 1 (B d) = (none, d1))
      (fun m _ => aixPump 1 m d1)) ∧
  (∀ (r : AixPacket) (hold : Bool) (k : Nat) (x : AixSession), let q := reqOf r 0x0705 hold none
    let B := engineBegun q k x
    CompletesBoth (.tenantCtrl r hold) (fun _ d => EngineTakes q k x d)
      (fun m d => let t := field q.payload 0 1
        let d1 := if field q.payload 1 1 = 1 then tenantReset 0 t (B d) else tenantRelease t (B d)
        aixPump 1 m (aixReady stOk [leBytes 1 (tenState t d1)] (d1)))) ∧
  (∀ (r : AixPacket) (hold : Bool) (k : Nat) (x : AixSession), let q := reqOf r 0x0801 hold none
    let B := engineBegun q k x
    CompletesBoth (.netSleepPolicy r hold) (fun _ d => EngineTakes q k x d)
      (fun m d => let d1 := fset F.NSM_TIME_IDLE_S (field q.payload 4 2) (fset F.NSM_CTRL_CHANNELS (field q.payload 1 1)
          (fput F.NSM_CTRL_TARGET (field q.payload 2 1 == 4) (B d)))
        aixPump 1 m (aixReady stOk [[]] (if cut 22 d1 then d1 else nsmEval (nsmEnable (field q.payload 0 1 != 0) d1))))) ∧
  (∀ (r : AixPacket) (hold : Bool) (k : Nat) (x : AixSession), let q := reqOf r 0x0802 hold none
    let B := engineBegun q k x
    CompletesBoth (.netStatus r hold) (fun _ d => EngineTakes q k x d)
      (fun m d => aixPump 1 m (aixReady stOk [opNetStatus (B d)] (B d)))) ∧
  (∀ (r : AixPacket) (hold : Bool) (k : Nat) (x : AixSession), let q := reqOf r 0x0803 hold none
    let B := engineBegun q k x
    CompletesBoth (.routeSend r hold) (fun _ d => EngineTakes q k x d ∧ (rtCh (field q.payload 0 2) (B d) = 7 ∨
        txResult (rtCh (field q.payload 0 2) (B d)) 0 (field q.payload 0 2) (q.payload.drop 4).length (B d) = 0))
      (fun m d => aixPump 1 m (aixReady stOk [[]] (routeOut (field q.payload 0 2) (q.payload.drop 4) (B d)).2)))

/-- A frame at a port that takes it is counted, and dropped when its tag is wrong: an ARP request, a neighbour solicitation and an
echo request for an own address are answered, for another only counted; a port that takes nothing ignores it. A new link or PTP
state is shown, recorded and raises its interrupt; the same state changes nothing; CNT_CLR clears the four counters. On the wake
port: with the matcher serving it a transfer wakes; else a write that is not whole or fails its CRC is an error of cause 0 or 1,
a right one is a request; a read gives the ready reply behind its length and begins a sleep that waited for it, or the length 0;
a reply that no one reads expires with an error of cause 2. -/
def Obligations.EthernetAndWakePortComplete : Prop :=
  (∀ (port : Fin 2) (f : NetFrame) (bs : List Byte),
    let takes (d : Dev) : Prop := whole (13 + port.val) d ∧ flag (F.ETH_CTRL_EN port.val) d = true ∧ d.pwr.sealed = false ∧
      d.pwr.down = false
    let d1 (d : Dev) : Dev := fsat (F.ETH_CNT_RX_CNT port.val) 1 d
    let tagged (d : Dev) : Prop := takes d ∧ vlanOk port.val f.vid (d1 d) = true
    let wrong (d : Dev) : Prop := takes d ∧ vlanOk port.val f.vid (d1 d) = false
    let closed (d : Dev) : Prop := flag (F.ETH_CTRL_EN port.val) d = false ∨ d.pwr.sealed = true ∨ d.pwr.down = true
    Completes (.arpRequest port f) (fun d => tagged d ∧ f.dst.toNat ≠ 0 ∧ f.dst.toNat = ownV4 port.val (d1 d))
      (fun d => ethSend port.val (.arpReply port.val (ethTag port.val (d1 d)) f.src.toNat f.dst.toNat) (d1 d)) ∧
    Completes (.arpRequest port f) (fun d => tagged d ∧ (f.dst.toNat = 0 ∨ f.dst.toNat ≠ ownV4 port.val (d1 d))) d1 ∧
    Completes (.neighbourSolicitation port f) (fun d => tagged d ∧ (ownV6 port.val (d1 d)).contains f.dst.toNat = true)
      (fun d => ethSend port.val (.neighbourAdvert port.val (ethTag port.val (d1 d)) f.src.toNat (nextHop port.val f.src.toNat (d1 d)) f.dst.toNat) (d1 d)) ∧
    Completes (.neighbourSolicitation port f) (fun d => tagged d ∧ (ownV6 port.val (d1 d)).contains f.dst.toNat = false) d1 ∧
    Completes (.echoRequest port f bs) (fun d => tagged d ∧ bs.length ≤ 1500 ∧ f.dst ≠ 0 ∧
        (ownV4 port.val (d1 d) :: ownV6 port.val (d1 d)).contains f.dst.toNat = true)
      (fun d => ethSend port.val (.echoReply port.val (ethTag port.val (d1 d)) f.src.toNat (nextHop port.val f.src.toNat (d1 d)) bs) (d1 d)) ∧
    Completes (.arpRequest port f) wrong (fun d => fsat (F.ETH_CNT_DROP_CNT port.val) 1 (d1 d)) ∧
    Completes (.neighbourSolicitation port f) wrong (fun d => fsat (F.ETH_CNT_DROP_CNT port.val) 1 (d1 d)) ∧
    Completes (.echoRequest port f bs) wrong (fun d => fsat (F.ETH_CNT_DROP_CNT port.val) 1 (d1 d)) ∧
    Ignored (.arpRequest port f) closed ∧ Ignored (.neighbourSolicitation port f) closed ∧ Ignored (.echoRequest port f bs) closed) ∧
  (∀ (port : Fin 2) (up : Bool), Completes (.ethLink port up)
    (fun d => whole (13 + port.val) d ∧ flag (F.ETH_STATUS_LINK port.val) d ≠ up)
    (fun d => fput (F.ETH_INT_STAT_LINK port.val) true (recordC 0x0908 port.val (b2n up)
      (fput (F.ETH_STATUS_LINK port.val) up (fput (F.ETH_STATUS_SYNC port.val) up d))))) ∧
  (∀ (port : Fin 2) (up : Bool), Ignored (.ethLink port up) (fun d => flag (F.ETH_STATUS_LINK port.val) d = up)) ∧
  (∀ (port : Fin 2), Completes (.ethPtp port true) (fun d => whole (13 + port.val) d ∧
      flag (F.ETH_STATUS_PTP_SYNC port.val) d = false ∧ flag (F.ETH_CTRL_PTP_EN port.val) d = true)
    (fun d => fput (F.ETH_INT_STAT_PTP port.val) true (recordC 0x0909 port.val 1 (fput (F.ETH_STATUS_PTP_SYNC port.val) true d)))) ∧
  (∀ (port : Fin 2), Completes (.ethPtp port false) (fun d => whole (13 + port.val) d ∧
      flag (F.ETH_STATUS_PTP_SYNC port.val) d = true)
    (fun d => let d1 := fput (F.ETH_INT_STAT_PTP port.val) true (recordC 0x0909 port.val 0
        (fput (F.ETH_STATUS_PTP_SYNC port.val) false d))
      if fget F.ANG_CTRL_PTP_PORT d1 = port.val then ptpLost d1 else d1)) ∧
  (∀ (port : Fin 2) (on : Bool), Ignored (.ethPtp port on) (fun d => flag (F.ETH_STATUS_PTP_SYNC port.val) d = on)) ∧
  (∀ (e : Fin 2), Completes (.ethCntClr e) (whole (13 + e.val))
    (each [R.ETH_CNT_RX e.val, R.ETH_CNT_FCS e.val, R.ETH_CNT_DROP e.val, R.ETH_CNT_TX e.val] (fun r => regPut r 0))) ∧
  (∀ (bs : List Byte) (fast : Bool), let d1 (d : Dev) : Dev := fput F.TWP_CTRL_FAST fast d
    Completes (.twpWriteTransfer bs fast) (fun d => matcherOn (d1 d) = true) (fun d => addressMatch (!bs.isEmpty) (d1 d)) ∧
    Completes (.twpReadTransfer fast) (fun d => matcherOn (d1 d) = true) (fun d => addressMatch false (d1 d)) ∧
    Completes (.twpWriteTransfer bs fast) (fun d => twpOn (d1 d) = true ∧ matcherOn (d1 d) = false ∧ twpWhole bs = false)
      (fun d => recordC 0x0C07 0 bs.length (fsat F.TWP_CNT_ERR_CNT 1 (d1 d))) ∧
    Completes (.twpWriteTransfer bs fast)
      (fun d => twpOn (d1 d) = true ∧ matcherOn (d1 d) = false ∧ twpWhole bs = true ∧ dgCrc bs = false)
      (fun d => recordC 0x0C07 1 bs.length (fsat F.TWP_CNT_ERR_CNT 1 (d1 d))) ∧
    CompletesBoth (.twpWriteTransfer bs fast) (fun _ d => twpOn (d1 d) = true ∧ matcherOn (d1 d) = false ∧ twpWhole bs = true ∧
        dgCrc bs = true ∧ formOk (dgReq 2 0 0 bs) = true ∧ field bs 8 2 = 0)
      (fun m d => aixSource (dgReq 2 0 0 bs) m (fsat F.TWP_CNT_RX_CNT 1 (d1 d))) ∧
    Completes (.twpReadTransfer fast) (fun d => matcherOn (d1 d) = false ∧ d.pwr.booted = true ∧ d.aix.twp = none)
      (fun d => send (.twpRead [0, 0]) (d1 d)) ∧
    (∀ reply : List Byte, Completes (.twpReadTransfer fast)
      (fun d => matcherOn (d1 d) = false ∧ d.pwr.booted = true ∧ d.aix.twp = some reply)
      (fun d => twpSleepGo (send (.twpRead (leBytes 2 reply.length ++ reply)) (fsat F.TWP_CNT_TX_CNT 1
        (fput F.TWP_STATUS_TX_READY false (aixPut { d.aix with twp := none } (d1 d)))))))) ∧
  Completes .twpReplyExpiry (fun d => d.aix.twp ≠ none)
    (fun d => recordC 0x0C07 2 0 (fsat F.TWP_CNT_ERR_CNT 1
      (fput F.TWP_STATUS_TX_READY false (aixPut { d.aix with twp := none, twpSleep := none } d)))) ∧
  Ignored .twpReplyExpiry (·.aix.twp = none)

/-- A power-on reset or the loss of the hutch loses the volatile memories; RST_N, the return of ground and the key 0x5D reset the
device with cause 1, 2 and 4 unless VAUX is down; a brown-out holds it in reset unless it sleeps in S3 or S4. There VAUX, risen
through 16 V again, is no power-on, and starts the boot for a wake decided meanwhile. BOOT runs once after a release: it fails
when TL0's test fails, enters ROM recovery without a usable bank, else starts the engine. SYS_WAKE_ACK ends collection. A level
is taken or held during a change; PL_CHANGE ends it. GO with a state 1 to 4 begins a sleep; SLEEP_SEAL seals it once the stores
have drained; a switch or the wake port's address wakes; WAKE_DECISION abandons, resumes from S1 and S2, or resets from S3 and
S4, where below 16 V it waits. HUTCH_CLOCK shows the crystal stopped; the cut controls take their new masks. -/
def Obligations.ResetsAndPowerComplete : Prop :=
  (∀ x : Bool, CompletesBoth (.powerOnReset x) (fun _ d => asleep d = false) (fun m d => (memLose m, powerOn x d))) ∧
  (∀ x : Bool, Completes (.powerOnReset x) (fun d => asleep d = true ∧ d.pwr.lowWake = none)
    (fun d => pwrPut { d.pwr with low := false } d)) ∧
  (∀ (x : Bool) (w : SleepMeas), CompletesBoth (.powerOnReset x) (fun _ d => asleep d = true ∧ d.pwr.lowWake = some w)
    (fun m d => (memLose m, wakeReset w (pwrPut { d.pwr with low := false } d)))) ∧
  CompletesBoth .hutchRetentionLoss (fun _ _ => True)
    (fun m d => (memLose m, { powerOn false d with pwr := { (powerOn false d).pwr with down := true } })) ∧
  Completes .rstNReset (·.pwr.down = false) (deviceReset 1) ∧
  Completes .groundReturnReset (fun d => d.lsw.noGround = true ∧ d.pwr.down = false) (deviceReset 2) ∧
  Completes (.sysReset 0x5D) (·.pwr.down = false) (deviceReset 4) ∧
  Ignored .rstNReset (·.pwr.down = true) ∧ Ignored .groundReturnReset (fun d => d.lsw.noGround = false ∨ d.pwr.down = true) ∧
  (∀ key : Byte, Ignored (.sysReset key) (fun d => key ≠ 0x5D ∨ d.pwr.down = true)) ∧
  Completes .brownOut (asleep · = false)
    (fun d => let d1 := deviceReset 0 { d with pwr := { d.pwr with past := none } }
      { d1 with pwr := { d1.pwr with down := true } }) ∧
  Completes .brownOut (asleep · = true) (fun d => { d with pwr := { d.pwr with low := true } }) ∧
  (∀ (rs : List TestResult) (slotB : Bool), Settles (.boot rs slotB)
    (fun d => d.pwr.down = true ∨ d.pwr.booted = true ∨ d.pwr.target ≠ 0) (fun m d => (m, d))) ∧
  (∀ (rs : List TestResult) (slotB : Bool),
    let begun (d : Dev) : Dev := { d with pwr := { d.pwr with booted := true }, pair := { d.pair with slotB } }
    let H (d : Dev) : Prop := d.pwr.down = false ∧ d.pwr.booted = false ∧ d.pwr.target = 0
    let tested (d : Dev) : Bool × Dev := trestlesTest rs (begun d)
    Settles (.boot rs slotB) (fun d => H d ∧ (tested d).1 = false) (fun m d => (m, (tested d).2)) ∧
    Settles (.boot rs slotB) (fun d => H d ∧ (tested d).1 = true)
      (fun m d =>
        let (b, m1, d1, ns) := bankBoot 8 m (cabLoad (tested d).2) []
        let d2 := begun d1
        match b with
        | none => (m1, romRecovery (ns ++ bankSpent b m1 ns) m1 d2)
        | some k => engineStart m1 (notesTold (ns ++ bankSpent b m1 ns) (bankUse k (ns ++ bankSpent b m1 ns) m1 d2)))) ∧
  Completes .sysWakeAck always (fun d => pwrPut { d.pwr with collect := false } d) ∧
  (∀ lv : Fin 4, Completes (.pwrPlWrite lv) (flag F.PWR_PL_BUSY · = true) (fun d => pwrPut { d.pwr with plNext := some lv.val } d)) ∧
  (∀ lv : Fin 4, Completes (.pwrPlWrite lv) (flag F.PWR_PL_BUSY · = false)
    (fun d => let d1 := fset F.PWR_PL_TARGET lv.val d
      fput F.PWR_PL_BUSY (decide (lv.val % 4 ≠ fget F.PWR_PL_CUR d1)) d1)) ∧
  Settles .plChange (fun d => flag F.PWR_PL_BUSY d = true ∧ d.pwr.plNext = none ∧ d.pwr.sleepNext = none)
    (fun m d => (m, recordC 0x0C01 (fget F.PWR_PL_CUR d) (fget F.PWR_PL_TARGET d)
      (fput F.PWR_PL_BUSY false (fset F.PWR_PL_CUR (fget F.PWR_PL_TARGET d) d)))) ∧
  Settles .plChange (flag F.PWR_PL_BUSY · = false) (fun m d => (m, d)) ∧
  (∀ st : BitVec 3, Completes (.pwrSleepGo st) (fun _ => 1 ≤ st.toNat ∧ st.toNat ≤ 4)
    (fun d => sleepBegin st.toNat false (fset F.PWR_SLEEP_STATE st.toNat d))) ∧
  (∀ st : BitVec 3, Ignored (.pwrSleepGo st) (fun _ => st.toNat = 0 ∨ 4 < st.toNat)) ∧
  (∀ f : Word, Completes (.sleepSeal f)
    (fun d => d.pwr.target ≠ 0 ∧ d.pwr.sealed = false ∧
      (List.range 5).any (fun t => !(tlOf t (trestlesStop d)).store.isEmpty) = false)
    (fun d =>
      let st := (trestlesStop d).pwr.target
      let d1 := if 2 ≤ st then fset F.PWR_CAL_ENTRY_F (if flag F.PWR_STATUS_HCLK (trestlesStop d) then 0 else f.toNat) (trestlesStop d)
        else trestlesStop d
      let d2 := fset F.PWR_STATUS_LAST st (pwrPut { d1.pwr with sealed := true, cycle := cycleNow d1 } d1)
      let d3 := sleepXcvrs st (if 3 ≤ st then cabClearAll (sessionsShut d2) else d2)
      if (st = 4 ∨ (st = 3 ∧ flag F.NSM_REG_REG_S3 d3 = false)) ∧ flag F.NSM_REG_LEVEL d3 = true then
        send (.regEn false) (fput F.NSM_REG_LEVEL false d3) else d3)) ∧
  (∀ f : Word, Ignored (.sleepSeal f) (fun d => d.pwr.target = 0 ∨ d.pwr.sealed = true)) ∧
  (∀ j : Fin 48, Completes (.switchWake j) (wakeInput j.val · = true) (wakeSource j.val)) ∧
  (∀ j : Fin 48, Ignored (.switchWake j) (wakeInput j.val · = false)) ∧
  (∀ data : Bool, Completes (.twpAddressMatch data) (matcherOn · = true)
    (fun d => let d1 := wakeSource 48 (fput F.TWP_STATUS_MATCH true d)
      if data then fsat F.TWP_CNT_NACK_CNT 1 d1 else d1)) ∧
  (∀ data : Bool, Ignored (.twpAddressMatch data) (matcherOn · = false)) ∧
  (∀ w : SleepMeas, Settles (.wakeDecision w) (fun d => d.pwr.target = 0 ∨ d.pwr.srcs = 0) (fun m d => (m, d)) ∧
    Settles (.wakeDecision w) (fun d => d.pwr.target ≠ 0 ∧ d.pwr.srcs ≠ 0 ∧ d.pwr.sealed = false) (fun m d => (m, sleepAbandon d)) ∧
    Settles (.wakeDecision w) (fun d => d.pwr.target ≠ 0 ∧ d.pwr.srcs ≠ 0 ∧ d.pwr.sealed = true ∧ d.pwr.target ≤ 2)
      (fun m d => (if (wakeResume w d).pair.role = 4 then unalignedSweep (wakeResume w d) m else m, wakeResume w d)) ∧
    Settles (.wakeDecision w) (fun d => d.pwr.srcs ≠ 0 ∧ d.pwr.sealed = true ∧ 3 ≤ d.pwr.target ∧ d.pwr.low = false)
      (fun m d => (memLose m, wakeReset w d)) ∧
    Settles (.wakeDecision w) (fun d => d.pwr.srcs ≠ 0 ∧ d.pwr.sealed = true ∧ 3 ≤ d.pwr.target ∧ d.pwr.low = true)
      (fun m d => (m, pwrPut { d.pwr with lowWake := d.pwr.lowWake <|> some w } d))) ∧
  Completes .hutchClock (fun d => flag F.PWR_STATUS_HCLK d = true ∧ d.pwr.sealed = false)
    (fun d => let d1 := fput F.PWR_STATUS_XTAL_STOP true (fput F.PWR_STATUS_HCLK false d)
      recordC 0x0C05 0 (fget F.PWR_CAL_ENTRY_F d1) d1) ∧
  Completes .hutchClock (fun d => flag F.PWR_STATUS_HCLK d = true ∧ d.pwr.sealed = true)
    (fun d => let d1 := fput F.PWR_STATUS_XTAL_STOP true (fput F.PWR_STATUS_HCLK false d)
      pwrPut { d1.pwr with clocks := d1.pwr.clocks ++ [0] } d1) ∧
  Ignored .hutchClock (flag F.PWR_STATUS_HCLK · = false) ∧
  (∀ (t : Fin 5) (attr : Byte) (w : Word),
    let may (kind : Nat) (d : Dev) : Prop := zone d = 0 ∨ zone d = 1 ∨ below 29 (fun i => maskBit w.toNat i &&
      !maskBit (fget (cutField kind) d) i && cutKept.contains i && maskBit (cutMask kind) i) = []
    let done (kind : Nat) (d : Dev) : Dev :=
      each (below 29 (fun i => maskBit (cutMask kind) i && maskBit w.toNat i != maskBit (fget (cutField kind) d) i)) (fun i d =>
        if fbit F.WLD_SECBLK_SEC i d && !attrWorld attr.toNat then
          recordC 0x0804 i (kind + attrTenant attr.toNat * 256 + t.val * 4096) d
        else
          let d := fbitPut (cutField kind) i (maskBit w.toNat i) d
          if kind = 0 then d else blockReset i d) d
    Completes (.pwrCgWrite t attr w) (may 0) (done 0) ∧ Completes (.pwrRstWrite t attr w) (may 1) (done 1) ∧
    Completes (.pwrPswWrite t attr w) (may 2) (done 2))

/-- With the link enabled in a paired device PEER_LINK_UP shows version and lanes, records, and sends the role message;
PEER_LINK_DOWN resets PEER_STATUS, records, and ends every outstanding request. A lost lane is recorded. A control frame
acknowledges, lets waiting frames leave in the room that this makes, measures and tells the partner's zone state, or is
discarded by its CRC; unacknowledged frames are sent again. A request is answered RETRY by a primary with requests out, cause 0
when inbound access is off or the target is the peer window, else it queues and starts if first; its end sends the response and
starts the next. An answer DATA delivers to the requester, or asks for the upper half of 8 bytes; ERROR fails with cause 9;
RETRY waits for PEER_REQUEST_RETRY, which sends again, or fails with cause 8 when the tries are used. PEER_CLR clears the four
peer counters. -/
def Obligations.PeerLinkCommandsComplete : Prop :=
  (∀ (v : Fin 2) (two : Bool),
    let shown (d : Dev) : Dev :=
      let d1 := fset F.PEER_STATUS_VER (v.val + 1) (fset F.PEER_STATUS_LINK 2
        (fput F.PEER_STATUS_LANE_0 true (fput F.PEER_STATUS_LANE_1 two d)))
      let d2 := recordC 0x0A20 (v.val + 1) (if two then 2 else 1) { d1 with brg := { d1.brg with unacked := 0, waiting := [] } }
      updStateTo (updState d2) (fput F.UPD_PARTNER_VALID false d2)
    let H (d : Dev) : Prop := whole 12 d ∧ d.pair.mode ≠ 0 ∧ flag F.PEER_CTRL_EN d = true ∧ peerUp d = false
    Completes (.peerLinkUp v two) (fun d => H d ∧ (shown d).pair.role = 1) (fun d => roleMessage false (roleTo 2 (shown d))) ∧
    Completes (.peerLinkUp v two) (fun d => H d ∧ (shown d).pair.role ≠ 1) (fun d => roleMessage false (shown d)) ∧
    Ignored (.peerLinkUp v two) (fun d => d.pair.mode = 0 ∨ flag F.PEER_CTRL_EN d = false ∨ peerUp d = true)) ∧
  Settles .peerLinkDown (fun d => whole 12 d ∧ peerUp d = true ∧ (linkDown d).pair.role ≠ 4)
    (fun m d =>
      let n := d.brg.peerOut.length
      let d0 := pairPut { d.pair with monitorDue := monitorExpected (d.clk - 500 * tickUs) d } d
      let d1 := recordC 0x0A21 d.brg.unacked n (regPut R.PEER_STATUS (regReset R.PEER_STATUS) d0)
      let d2 := requestsEnd n { d1 with brg := { d1.brg with unacked := 0, waiting := [] } }
      let d3 := { d2 with brg := { d2.brg with peerIn := (d2.brg.peerIn.take 1).map (fun x => { x with dead := true }) } }
      let d4 := closesAbandon (activationRefused 5 (peerAngleLost d3))
      let d5 := if d4.pair.role = 4 then alignEnd (markAll d4) else d4
      (m, if paired d5 && monitorPulses d5 then record 0x0A42 (cycleNow d5) 0 0 d5 else d5)) ∧
  Settles .peerLinkDown (fun d => whole 12 d ∧ peerUp d = false) (fun m d => (m, d)) ∧
  (∀ lane : Fin 2, let f := if lane.val = 0 then F.PEER_STATUS_LANE_0 else F.PEER_STATUS_LANE_1
    Completes (.peerLane lane) (fun d => whole 12 d ∧ flag f d = true) (fun d => recordC 0x0A22 lane.val 0 (fput f false d)) ∧
    Ignored (.peerLane lane) (flag f · = false)) ∧
  (∀ (acked : Fin 33) (z : Fin 7) (rtt : BitVec 16),
    let H (d : Dev) : Prop := whole 12 d ∧ fget F.PEER_STATUS_LINK d ≠ 0
    let freed (d : Dev) : Dev := framesDrain acked.val (partnerZonePut z.val { d with brg := { d.brg with unacked := d.brg.unacked - acked.val } })
    Completes (.peerLinkControlFrame acked (some rtt) (some z)) H (fun d => fset F.PEER_RTT_RTT rtt.toNat (freed d)) ∧
    Completes (.peerLinkControlFrame acked none (some z)) H freed ∧
    (∀ r, Completes (.peerLinkControlFrame acked r none) H (fsat F.PEER_CNT_CRC_CNT 1)) ∧
    (∀ r zone, Ignored (.peerLinkControlFrame acked r zone) (fget F.PEER_STATUS_LINK · = 0))) ∧
  (∀ n : Fin 33, Completes (.peerRetransmit n) (fun d => whole 12 d ∧ 0 < min n.val d.brg.unacked)
    (fun d => let k := min n.val d.brg.unacked
      send (.peerFrames k) (fsat F.PEER_CNT_RETX_CNT k d)) ∧
    Ignored (.peerRetransmit n) (fun d => min n.val d.brg.unacked = 0)) ∧
  Completes .peerIdleControl (whole 12) (toPartner .peerControl) ∧
  (∀ (wr : Bool) (a : BitVec 40) (size : Fin 65) (data : BitVec 64),
    let up (d : Dev) : Prop := whole 12 d ∧ peerUp d = true ∧ fget F.PEER_STATUS_VER d = 2
    let busy (d : Dev) : Bool := actsPrimary d && !d.brg.peerOut.isEmpty
    let open' (d : Dev) : Bool := flag F.PEER_CTRL_IN_EN d && targetOf a.toNat != some 5
    let kept (d : Dev) : Dev := peerInPut (d.brg.peerIn ++ [{ write := wr, addr := a.toNat, size := size.val, data := data.toNat }]) d
    Completes (.peerRequest wr a size data) (fun d => up d ∧ busy d = true)
      (fun d => toPartner .peerRetry (fsat F.PEER_CNT_RETRY_CNT 1 d)) ∧
    Completes (.peerRequest wr a size data) (fun d => up d ∧ busy d = false ∧ open' d = false) (toPartner (.peerResponse none 0)) ∧
    CompletesBoth (.peerRequest wr a size data) (fun _ d => up d ∧ busy d = false ∧ open' d = true ∧ d.brg.peerIn = [])
      (fun m d => (m, peerInStart m (kept d))) ∧
    Completes (.peerRequest wr a size data) (fun d => up d ∧ busy d = false ∧ open' d = true ∧ d.brg.peerIn ≠ []) kept) ∧
  (∀ (chk : MemCheck) (x : PeerIn) (rest : List PeerIn),
    let H (d : Dev) : Prop := whole 12 d ∧ d.brg.peerIn = x :: rest
    let answered (v : Option Nat) (c : Nat) (d : Dev) : Dev := if x.dead then d else toPartner (.peerResponse v c) d
    let next (m : List Host.Cell) (d : Dev) : List Host.Cell × Dev := (m, peerInStart m (peerInPut rest d))
    (∀ v c, x.result = some (v, c) → CompletesBoth (.peerInboundComplete chk) (fun _ => H) (fun m d => next m (answered v c d))) ∧
    (∀ v, x.result = none ∧ x.write = false ∧ targetOf x.addr ≠ some 4 → CompletesBoth (.peerInboundComplete chk)
      (fun m d => H d ∧ (busRead .peer 8 (peerAttr x.addr d) x.addr x.size chk m d).1 = some (.data v))
      (fun m d => next m (answered (some v) 0 (busRead .peer 8 (peerAttr x.addr d) x.addr x.size chk m d).2))) ∧
    (∀ v, x.result = none ∧ x.write = true ∧ targetOf x.addr ≠ some 4 → CompletesBoth (.peerInboundComplete chk)
      (fun m d => H d ∧ (busWrite .peer 8 (peerAttr x.addr d) x.addr x.size x.data chk m d).1 = some (.data v))
      (fun m d => let r := busWrite .peer 8 (peerAttr x.addr d) x.addr x.size x.data chk m d
        next r.2.1 (answered (some v) 0 r.2.2)))) ∧
  (∀ (i : Fin 8) (x : PeerReq),
    let H (d : Dev) : Prop := whole 12 d ∧ d.brg.peerOut[i.val]? = some x ∧ x.waits = false
    (∀ bs, x.block = false ∧ x.size = 8 ∧ x.half = 0 → Settles (.peerResponse i (.data bs)) H
      (fun m d => let y := { x with half := 1, low := field bs 0 4 }
        (m, peerSend y (peerOutPut (listPut d.brg.peerOut i.val y) d)))) ∧
    (∀ bs, x.block = false ∧ x.size = 8 ∧ x.half = 1 → Settles (.peerResponse i (.data bs)) H
      (fun m d => (m, busDeliver x.origin x.write x.addr x.size x.attr x.mode 1 (.data (x.low + field bs 0 4 * 2 ^ 32))
        (peerLeave i.val d)))) ∧
    (∀ bs, x.block = false ∧ x.size ≠ 8 → Settles (.peerResponse i (.data bs)) H
      (fun m d => (m, busDeliver x.origin x.write x.addr x.size x.attr x.mode 1 (.data (field bs 0 x.size)) (peerLeave i.val d)))) ∧
    (∀ bs, x.block = true → Settles (.peerResponse i (.data bs)) H
      (fun m d => (m, busDeliver x.origin x.write x.addr x.size x.attr x.mode 1 (.data (field bs (x.addr % 64) x.size))
        (peerLeave i.val (peerPfKeep x bs d))))) ∧
    (∀ c, Settles (.peerResponse i (.error c)) H (fun m d => (m, peerFail i.val 9 c.toNat d))) ∧
    Settles (.peerResponse i .retry) (fun d => H d ∧ x.tries < max 1 (fget F.PEER_CFG_RETRY_MAX (fsat F.PEER_CNT_RETRY_CNT 1 d)))
      (fun m d => (m, peerOutPut (listPut d.brg.peerOut i.val { x with waits := true }) (fsat F.PEER_CNT_RETRY_CNT 1 d))) ∧
    Settles (.peerResponse i .retry) (fun d => H d ∧ max 1 (fget F.PEER_CFG_RETRY_MAX (fsat F.PEER_CNT_RETRY_CNT 1 d)) ≤ x.tries)
      (fun m d => (m, peerFail i.val 8 0 (fsat F.PEER_CNT_RETRY_CNT 1 d))) ∧
    Completes (.peerRequestRetry i) (fun d => whole 12 d ∧ d.brg.peerOut[i.val]? = some x ∧ x.waits = true)
      (fun d => let y := { x with waits := false, tries := x.tries + 1 }
        peerSend y (peerOutPut (listPut d.brg.peerOut i.val y) d)) ∧
    Ignored (.peerRequestRetry i) (fun d => d.brg.peerOut[i.val]? = none)) ∧
  Completes .peerClr (whole 12)
    (each [R.PEER_CNT_CRC, R.PEER_CNT_RETX, R.PEER_CNT_RETRY, R.PEER_CNT_ERR] (fun r => regPut r 0))

/-- BE_N_POP and BE_S_POP remove the oldest entry of the trestle's normal or secure queue; BRG_CLR clears the five bridge counters.
STAGING_ERASE_DONE while the update is ERASING erases the staging record and blocks and opens the update, else changes nothing.
BANK_CONFIRMED, while a trial bank runs under a booted TL0 in RUN, marks the bank confirmed, records, and raises the security
versions in OTP that are lower than the bank's; else it changes nothing. A partner's update report that is heard (the device is
one of a pair, with the link up) is kept, and ends a hold when the partner is no longer activating; one that is not heard
changes nothing. -/
def Obligations.BusErrorsAndUpdateEventsComplete : Prop :=
  (∀ t : Fin 5,
    Completes (.beNPop t) always (fun d =>
      let l := (tabGet (fun _ => []) d.brg.beN t.val).drop 1
      { d with brg := { d.brg with beN := tabSet (fun _ => []) d.brg.beN t.val l } }) ∧
    Completes (.beSPop t) always (fun d =>
      let l := (tabGet (fun _ => []) d.brg.beS t.val).drop 1
      { d with brg := { d.brg with beS := tabSet (fun _ => []) d.brg.beS t.val l } })) ∧
  Completes .brgClr always
    (each [R.BRG_CNT_ERR, R.BRG_CNT_RETRY, R.BRG_CNT_PFHIT, R.BRG_CNT_MEM, R.BRG_CNT_PAR] (fun r => regPut r 0)) ∧
  CompletesBoth .stagingEraseDone (fun _ d => whole 24 d ∧ updState d = 1)
    (fun m d => (memErase stageBase (0x1000 + 4096 * fget F.UPD_BLOCKS_BLOCKS d) m,
      updStateTo 2 { d with upd := { d.upd with staged := none } })) ∧
  Ignored .stagingEraseDone (fun d => updState d ≠ 1) ∧
  CompletesBoth .bankConfirmed
    (fun _ d => whole 24 d ∧ flag F.UPD_STATUS_TRIAL d = true ∧ d.pwr.booted = true ∧ tlState 0 d = 3)
    (fun m d =>
      let b := fget F.UPD_STATUS_BANK d
      let m1 := bankMark b 0x3F m
      let d1 := recordC 0x0E07 b (bankSeq m1 b) (fput F.UPD_STATUS_TRIAL false d)
      let d2 := each (List.range 5) (fun c d =>
        let v := min 127 (entryField m1 b c 20 1)
        if fget (svnField c) d < v then recordC 0x0E09 c v (fset (svnField c) v d) else d) d1
      (m1, updStateTo (updState d2) d2)) ∧
  Ignored .bankConfirmed (fun d => flag F.UPD_STATUS_TRIAL d = false ∨ d.pwr.booted = false ∨ tlState 0 d ≠ 3) ∧
  (∀ r : UpdReport,
    let kept (d : Dev) : Dev := fput F.UPD_PARTNER_VALID true (fput F.UPD_PARTNER_TRIAL r.trial
      (fset F.UPD_PARTNER_UCODE_VER r.ucode.toNat (fset F.UPD_PARTNER_PEER_MIN r.peerMin (fset F.UPD_PARTNER_PEER_MAX r.peerMax
        (fset F.UPD_PARTNER_STATE r.state d)))))
    let busy : Prop := r.trial = true ∨ r.state = 4 ∨ r.state = 5 ∨ r.state = 6
    (busy → Completes (.partnerUpdateReport r) (fun d => whole 24 d ∧ heard d = true) kept) ∧
    (¬ busy → Completes (.partnerUpdateReport r) (fun d => whole 24 d ∧ heard d = true)
      (fun d => fput F.UPD_STATUS_HOLD false (kept d))) ∧
    Ignored (.partnerUpdateReport r) (heard · = false))

/-- With the channel whole: TX_CMD with GO and result 0 advances TAG and queues the frame of its routing entry; another result
stands in TX_STAT; without GO nothing. TX_CANCEL removes the frame with its tag with outcome 2, or marks the attempt under way
as the last. A successful attempt sends the frame, removes it with outcome 0, counts it and lowers TEC by 1. A failed one adds 8
to TEC unless exempt, counts the attempt, and abandons the frame after the last retry or collision; TEC above 255 is bus-off. A
lost arbitration is counted, and abandons with RETRY 0. TTL_EXPIRY abandons every frame that is TTL_MS old but the one in
transmission. TX_DONE_READ and RX_POP remove the oldest entry of their page's FIFO; CAN_CNT_CLR clears the five counters. -/
def Obligations.CanTransmissionCompletes : Prop :=
  (∀ (n : Fin 6) (p : Fin 2) (e : BitVec 12) (len : BitVec 7),
    Completes (.txCmd n p e len true) (fun d => whole (16 + n.val) d ∧ txResult n.val p.val e.toNat len.toNat d = 0)
      (fun d =>
        let d1 := fset (F.CAN_TX_STAT_RESULT n.val p.val) 0 d
        let tag := (fget (F.CAN_TX_STAT_TAG n.val p.val) d1 + 1) % 256
        let d2 := fset (F.CAN_TX_STAT_TAG n.val p.val) tag d1
        canEnter n.val { frame := rtFrame e.toNat (txData n.val p.val len.toNat d2) d2, page := p.val, tag, qat := d2.clk } d2) ∧
    Completes (.txCmd n p e len true) (fun d => whole (16 + n.val) d ∧ txResult n.val p.val e.toNat len.toNat d ≠ 0)
      (fun d => fset (F.CAN_TX_STAT_RESULT n.val p.val) (txResult n.val p.val e.toNat len.toNat d) d) ∧
    Ignored (.txCmd n p e len false) always) ∧
  (∀ (n : Fin 6) (p : Fin 2) (tag : Byte) (under : Option Nat) (i : Nat),
    let place (d : Dev) : Option Nat := txPlace n.val p.val tag.toNat d
    Completes (.txCancel n p tag true under)
      (fun d => whole (16 + n.val) d ∧ place d = some i ∧ canUnder under n.val d ≠ some i) (canLeave n.val i 2) ∧
    (∀ x : CanTx, Completes (.txCancel n p tag true under)
      (fun d => whole (16 + n.val) d ∧ place d = some i ∧ canUnder under n.val d = some i ∧ (canOf n.val d).queue[i]? = some x)
      (canQueuePut n.val i { x with cancelled := true })) ∧
    Ignored (.txCancel n p tag true under) (fun d => place d = none) ∧ Ignored (.txCancel n p tag false under) always) ∧
  (∀ (n : Fin 6) (since i : Nat) (x : CanTx),
    let H (d : Dev) : Prop := whole (16 + n.val) d ∧ canSends n.val d = true ∧ canInTx since (canOf n.val d) = some i ∧
      (canOf n.val d).queue[i]? = some x
    let lost (d : Dev) : Dev := fsat (F.CAN_CNT_ERR_ARB n.val) 1 d
    Completes (.canTxSuccess n since) H
      (fun d =>
        let d1 := send (.canFrame n.val x.frame) (fsat (F.CAN_CNT_TX_CNT n.val) 1 (canLeave n.val i 0 d))
        canErrors n.val (fput (F.CAN_STATUS_TXD_TO n.val) false
          (fset (F.CAN_ERRCNT_TEC n.val) (fget (F.CAN_ERRCNT_TEC n.val) d1 - 1) d1))) ∧
    Ignored (.canTxSuccess n since) (fun d => canSends n.val d = false ∨ canInTx since (canOf n.val d) = none) ∧
    (∀ f : CanFail,
      let hits : Nat := if f = .collision then x.collides + 1 else 0
      let y : CanTx := { x with attempts := x.attempts + 1, collides := hits }
      let failed (d : Dev) : Dev :=
        let d1 := canQueuePut n.val i y (fsat (F.CAN_CNT_ERR_ERR n.val) 1 d)
        let d2 := if f = .collision then fsat (F.CAN_CNT_ABN_COLLIDE n.val) 1 d1 else d1
        if f = .exempt then d2 else fsat (F.CAN_ERRCNT_TEC n.val) 8 d2
      let most (d : Dev) : Nat := fget (F.CAN_CFG_COLLIDE_MAX n.val) (failed d)
      let given (d : Dev) : Dev :=
        if f = .collision ∧ most d ≠ 0 ∧ most d ≤ y.collides then
          canLeave n.val i 4 (recordC 0x0B06 n.val x.frame.id (fsat (F.CAN_CNT_ABN_ABANDON n.val) 1 (failed d)))
        else if x.cancelled then canLeave n.val i 2 (failed d)
        else if fget (F.CAN_CFG_RETRY n.val) (failed d) < y.attempts then canAbandon n.val i 1 (failed d) else failed d
      Completes (.canTxError n since f) (fun d => H d ∧ fget (F.CAN_ERRCNT_TEC n.val) (given d) ≤ 255)
        (fun d => canErrors n.val (given d)) ∧
      Completes (.canTxError n since f) (fun d => H d ∧ 255 < fget (F.CAN_ERRCNT_TEC n.val) (given d))
        (fun d => canBusOff n.val x.frame.id (given d)) ∧
      Ignored (.canTxError n since f) (fun d => canSends n.val d = false ∨ canInTx since (canOf n.val d) = none)) ∧
    (Completes (.canArbitrationLost n since) (fun d => H d ∧ x.cancelled = false ∧ fget (F.CAN_CFG_RETRY n.val) (lost d) ≠ 0) lost ∧
      Completes (.canArbitrationLost n since) (fun d => H d ∧ x.cancelled = false ∧ fget (F.CAN_CFG_RETRY n.val) (lost d) = 0)
        (fun d => canAbandon n.val i 1 (lost d)) ∧
      Completes (.canArbitrationLost n since) (fun d => H d ∧ x.cancelled = true) (fun d => canLeave n.val i 2 (lost d)) ∧
      Ignored (.canArbitrationLost n since) (fun d => canSends n.val d = false ∨ canInTx since (canOf n.val d) = none))) ∧
  (∀ (n : Fin 6) (under : Option Nat),
    Completes (.canTtlExpiry n under) (fun d => whole (16 + n.val) d ∧ fget (F.CAN_CFG_TTL_MS n.val) d ≠ 0)
      (fun d => each (ttlDue n.val under d).reverse (fun i => canAbandon n.val i 3) d) ∧
    Ignored (.canTtlExpiry n under) (fget (F.CAN_CFG_TTL_MS n.val) · = 0)) ∧
  (∀ (n : Fin 6) (p : Fin 2),
    Completes (.txDoneRead n p) (whole (16 + n.val)) (fun d =>
      let x := canPage (canOf n.val d) p.val
      canPut n.val (canPagePut p.val { x with done := x.done.drop 1 } (canOf n.val d)) d) ∧
    Completes (.rxPop n p) (whole (16 + n.val)) (fun d =>
      let x := canPage (canOf n.val d) p.val
      canPut n.val (canPagePut p.val { x with rx := x.rx.drop 1 } (canOf n.val d)) d) ∧
    Completes (.canCntClr n) (whole (16 + n.val))
      (each [R.CAN_CNT_RX n.val, R.CAN_CNT_TX n.val, R.CAN_CNT_ERR n.val, R.CAN_CNT_DROP n.val, R.CAN_CNT_ABN n.val]
        (fun r => regPut r 0)))

/-- A frame, or a keep-alive, reaches a channel that is on, not bus-off, with its transceiver in NORMAL or LISTEN and not moving:
counted, checked for the channel's own identifiers, shown to the NSM, and decided by the accept entries: into a receive FIFO, to
the gateway, or dropped without a match; any other channel ignores it. A receive error adds 1 or 8 to REC. RECOVER starts
recovery from bus-off only; bus-on clears both error counters. CAN_MODE puts the mode of CAN_CTRL into effect, OFF emptying the
queue with outcome 5. A transceiver state is selected, its move ends, a TXD timeout is shown and recorded, and a wake in STANDBY
or SLEEP with WAKE_EN is noted. -/
def Obligations.CanReceptionAndChannelsComplete : Prop :=
  (∀ (n : Fin 6) (f : CanFrame) (sof : Word) (node : Fin 64) (bs : List Byte),
    let hears (d : Dev) : Prop := whole (16 + n.val) d ∧ canMode n.val d ≠ 0 ∧ canEstate n.val d < 2 ∧
      fget (F.CAN_XCVR_STATE n.val) d < 2 ∧ (canOf n.val d).moving = false
    let deaf (d : Dev) : Prop := canMode n.val d = 0 ∨ 2 ≤ canEstate n.val d ∨ 2 ≤ fget (F.CAN_XCVR_STATE n.val) d ∨
      (canOf n.val d).moving = true
    let seen (g : CanFrame) (d : Dev) : Dev := nsmFrame n.val g (canForeign n.val g (canReceived n.val d))
    let entry (g : CanFrame) (d : Dev) : Option Nat := (rtUsed (seen g d)).find? (fun e => rtMatches n.val e g (seen g d))
    let kept (d : Dev) : CanFrame := { id := fget F.NSM_NM_BASE d + node.val, data := bs }
    Completes (.canFrameReceived n f sof) (fun d => hears d ∧ entry f d = none)
      (fun d => fsat (F.CAN_CNT_DROP_NOMATCH n.val) 1 (seen f d)) ∧
    (∀ e p, Completes (.canFrameReceived n f sof) (fun d => hears d ∧ entry f d = some e ∧ rtDest e (seen f d) = p ∧ p < 2)
      (fun d => rxEnter n.val p e f sof.toNat (seen f d))) ∧
    (∀ e, Completes (.canFrameReceived n f sof) (fun d => hears d ∧ entry f d = some e ∧ rtDest e (seen f d) = 2)
      (fun d => gwCan n.val e f (seen f d))) ∧
    (∀ e, Completes (.canFrameReceived n f sof) (fun d => hears d ∧ entry f d = some e ∧ rtDest e (seen f d) = 3)
      (fun d => gwEth n.val e f sof.toNat (seen f d))) ∧
    Completes (.keepAlive n node bs sof) (fun d => hears d ∧ entry (kept d) d = none)
      (fun d => fsat (F.CAN_CNT_DROP_NOMATCH n.val) 1 (seen (kept d) d)) ∧
    Ignored (.canFrameReceived n f sof) deaf ∧ Ignored (.keepAlive n node bs sof) deaf) ∧
  (∀ (n : Fin 6) (heavy : Bool), Completes (.canReceiveError n heavy)
    (fun d => whole (16 + n.val) d ∧ canMode n.val d ≠ 0 ∧ canEstate n.val d < 2)
    (fun d => canErrors n.val (fsat (F.CAN_ERRCNT_REC n.val) (if heavy then 8 else 1) (fsat (F.CAN_CNT_ERR_ERR n.val) 1 d))) ∧
    Ignored (.canReceiveError n heavy) (fun d => canMode n.val d = 0 ∨ 2 ≤ canEstate n.val d)) ∧
  (∀ n : Fin 6,
    Completes (.recover n) (fun d => whole (16 + n.val) d ∧ canEstate n.val d = 2) (fset (F.CAN_STATUS_ESTATE n.val) 3) ∧
    Ignored (.recover n) (canEstate n.val · ≠ 2) ∧
    Completes (.canBusOn n) (fun d => whole (16 + n.val) d ∧ canEstate n.val d = 3)
      (fun d =>
        let d1 := fset (F.CAN_STATUS_ESTATE n.val) 0 (regPut (R.CAN_ERRCNT n.val) 0 d)
        let d2 := recordC 0x0B02 n.val 0 (recordC 0x0B04 n.val (msSince (canOf n.val d1).offAt d1) d1)
        canPut n.val (canOf n.val d2) d2) ∧
    Ignored (.canBusOn n) (canEstate n.val · ≠ 3) ∧
    Completes (.canTxdTimeout n) (whole (16 + n.val)) (fun d => recordC 0x0B09 n.val 0 (fput (F.CAN_STATUS_TXD_TO n.val) true d)) ∧
    Completes (.canXcvrMoveComplete n) (whole (16 + n.val)) (fun d => canPut n.val { canOf n.val d with moving := false } d)) ∧
  (∀ n : Fin 6,
    let moded (d : Dev) : Dev := fset (F.CAN_STATUS_EFF_MODE n.val) (fget (F.CAN_CTRL_MODE n.val) d) d
    Completes (.canMode n) (fun d => whole (16 + n.val) d ∧ canMode n.val (moded d) ≠ 0)
      (fun d => canPut n.val (canOf n.val (moded d)) (moded d)) ∧
    Completes (.canMode n) (fun d => whole (16 + n.val) d ∧ canMode n.val (moded d) = 0)
      (fun d => each (canOf n.val (moded d)).queue (fun _ d => canLeave n.val 0 5 d)
        (canPut n.val (canOf n.val (moded d)) (moded d)))) ∧
  (∀ (n : Fin 6) (st : BitVec 2), Completes (.canXcvrState n st) (whole (16 + n.val))
    (fun d =>
      let d1 := fset (F.CAN_XCVR_STATE n.val) st.toNat d
      let c := canOf n.val d1
      let moving := if 2 ≤ fget (F.CAN_XCVR_STATE n.val) d then decide (st.toNat < 2) else c.moving && decide (st.toNat < 2)
      canPut n.val { c with moving } d1)) ∧
  (∀ n : Fin 6,
    let noted (d : Dev) : Dev := fbitPut F.NSM_XWAKE_CH n.val true d
    let H (d : Dev) : Prop := whole (16 + n.val) d ∧ 2 ≤ fget (F.CAN_XCVR_STATE n.val) d ∧ flag (F.CAN_XCVR_WAKE_EN n.val) d = true
    let regs (d : Dev) : Bool := !flag F.NSM_REG_LEVEL (noted d) && flag F.NSM_REG_XWAKE_REG (noted d)
    Completes (.canBusWake n) (fun d => H d ∧ regs d = false) noted ∧
    Completes (.canBusWake n) (fun d => H d ∧ regs d = true) (fun d => send (.regEn true) (fput F.NSM_REG_LEVEL true (noted d))) ∧
    Ignored (.canBusWake n) (fun d => fget (F.CAN_XCVR_STATE n.val) d < 2 ∨ flag (F.CAN_XCVR_WAKE_EN n.val) d = false))

/-- With the NSM's block whole: NSM_EN has no effect in COMMITTED, else sets EN; it leads from OFF to AWAKE when set and to OFF when
cleared. KEEP_ALIVE_SEND sends the keep-alive while EN is set and the own vote is awake. NODE_VOTE_EXPIRY ends a node's vote.
IDLE_EXPIRY leads from READY to PREPARE. NM_NODE_CAPPED caps the only node awake, with CAP_S as its seconds at the least, and
records; it is ignored with CAP_S 0 or for another node. NSM_NODE_CAPPED_CLEAR uncaps. NM_SLEEP_COMMIT, where no input ends
PREPARE in this cycle, takes the wake enable from the channels of capped nodes, puts the transceivers to STANDBY or SLEEP,
records, enters COMMITTED, and asks for S3 or S4; else it only acts on the inputs. -/
def Obligations.SleepAgreementCompletes : Prop :=
  (∀ on : Bool, Ignored (.nsmEn on) (nsmState · = 4)) ∧
  Completes (.nsmEn true) (fun d => whole 22 d ∧ nsmState d = 0) (fun d => nsmEval (nsmTo 1 (fput F.NSM_CTRL_EN true d))) ∧
  Completes (.nsmEn true) (fun d => whole 22 d ∧ nsmState d ≠ 4 ∧ nsmState (fput F.NSM_CTRL_EN true d) ≠ 0)
    (fput F.NSM_CTRL_EN true) ∧
  Completes (.nsmEn false) (fun d => whole 22 d ∧ nsmState d ≠ 4) (fun d => nsmTo 0 (fput F.NSM_CTRL_EN false d)) ∧
  Completes .keepAliveSend (fun d => whole 22 d ∧ flag F.NSM_CTRL_EN d = true ∧ ownVote d ≠ none) (keepAlive 1) ∧
  Ignored .keepAliveSend (fun d => flag F.NSM_CTRL_EN d = false ∨ ownVote d = none) ∧
  (∀ j : Fin 64, Completes (.nodeVoteExpiry j) (whole 22) (fun d => nsmEval (fput (F.NSM_NODE_AWAKE j.val) false d))) ∧
  Completes .idleExpiry (fun d => whole 22 d ∧ nsmState d = 2) (nsmTo 3) ∧ Ignored .idleExpiry (nsmState · ≠ 2) ∧
  (∀ j : Fin 64,
    Completes (.nmNodeCapped j) (fun d => whole 22 d ∧ fget F.NSM_CAP_CAP_S d ≠ 0 ∧ nodesAwake d = [j.val] ∧ ownVote d = none)
      (fun d =>
        let sole := max (fget F.NSM_CAP_CAP_S d) (fget (F.NSM_NODE_SOLE_S j.val) d)
        let d1 := fput (F.NSM_NODE_CAPPED j.val) true (fset (F.NSM_NODE_SOLE_S j.val) sole d)
        nsmEval (recordC 0x0B21 (fget (F.NSM_NODE_CH j.val) d1 + j.val * 2 ^ 8) sole d1)) ∧
    Ignored (.nmNodeCapped j) (fun d => fget F.NSM_CAP_CAP_S d = 0 ∨ nodesAwake d ≠ [j.val] ∨ ownVote d ≠ none) ∧
    Completes (.nsmNodeCappedClear j) (whole 22) (fun d => nsmEval (fput (F.NSM_NODE_CAPPED j.val) false d))) ∧
  (let sleeps (st : Nat) (d : Dev) : Dev :=
    let d1 := each (cappedChannels d) (fun n => fput (F.CAN_XCVR_WAKE_EN n) false) d
    let d2 := each (List.range 6) (fun n => xcvrTo n (if st = 4 then 3 else 2)) d1
    let mask := (cappedChannels d).foldl (fun m n => m + 2 ^ n) 0
    sleepRequest st true (nsmTo 4 (recordC 0x0B23 st (fget F.NSM_CTRL_CHANNELS d2 + mask * 2 ^ 8) d2))
   let H (d : Dev) : Prop := whole 22 d ∧ nsmState (nsmEval d) = 3
   Completes .nmSleepCommit (fun d => H d ∧ flag F.NSM_CTRL_TARGET (nsmEval d) = false) (fun d => sleeps 3 (nsmEval d)) ∧
   Completes .nmSleepCommit (fun d => H d ∧ flag F.NSM_CTRL_TARGET (nsmEval d) = true) (fun d => sleeps 4 (nsmEval d)) ∧
   Completes .nmSleepCommit (fun d => whole 22 d ∧ nsmState (nsmEval d) ≠ 3) nsmEval)

/-- RECORD_WRITE with the ring open takes RECORDS_LOST when events were lost and the intake has room, else the head of the intake,
and stores it; nothing is stored with the ring closed or nothing waiting. REPEAT_EXPIRY ends the run, its closing record behind
it when its count is above 0. TIME_MARK records when the newest record is MARK_MIN minutes old, else not. RING_OPENED, the MRAM
responding, scans, restores the fallback, opens, and stores RING_OPENED and the carried run's closing record. SUB_CMD with GO
answers 1 for a code outside 0x0100 to 0x0FFF, 2 for a full intake, else 0 and takes the event. RD_SEQ shows a valid record with
its words, or that it is overwritten, unreadable with its placeholder, or not held. -/
def Obligations.RecorderCommandsComplete : Prop :=
  (∀ r : MramResult,
    (let H (d : Dev) : Prop := flag F.REC_STATUS_OPEN d = true
     CompletesBoth (.recordWrite r) (fun _ d => H d ∧ 0 < d.side.lostNow ∧ d.side.intake.length < 64)
      (fun m d => recStore r { code := 0x0D02, p1 := d.side.lostNow, p2 := d.side.lostFirst, p3 := cycleNow d, optime := opTime d } m
        (raiseFlag 0x0D02 0 { d with side := { d.side with lostNow := 0, lostFirst := 0 } })) ∧
     (∀ (e : RecEvent) (rest : List RecEvent), CompletesBoth (.recordWrite r)
      (fun _ d => H d ∧ (d.side.lostNow = 0 ∨ 64 ≤ d.side.intake.length) ∧ d.side.intake = e :: rest)
      (fun m d => recStore r e m { d with side := { d.side with intake := rest } }))) ∧
    Ignored (.recordWrite r) (fun d => flag F.REC_STATUS_OPEN d = false ∨ (d.side.lostNow = 0 ∧ d.side.intake = []))) ∧
  Ignored .repeatExpiry (·.side.run = none) ∧
  (∀ x : RecRun,
    let ended (d : Dev) : Dev := { d with side := { d.side with run := none } }
    Completes .repeatExpiry (fun d => d.side.run = some x ∧ x.count = 0) ended ∧
    Completes .repeatExpiry (fun d => d.side.run = some x ∧ x.count ≠ 0 ∧ d.side.intake.length < 64)
      (fun d =>
        let e := { closingOf x with early := !flag F.REC_STATUS_OPEN d }
        { d with side := { d.side with run := none, intake := d.side.intake ++ [e] } }) ∧
    Completes .repeatExpiry (fun d => d.side.run = some x ∧ x.count ≠ 0 ∧ 64 ≤ d.side.intake.length)
      (fun d => recLose x.code (ended d))) ∧
  (let due (d : Dev) : Bool := fget F.REC_CFG_MARK_MIN d != 0
      && decide (60 * fget F.REC_CFG_MARK_MIN d ≤ fget F.PWR_OPSEC_SEC d - d.side.newestAt)
      && !d.side.intake.any (fun e => e.code == 0x0D04 && !e.sw)
   Completes .timeMark (due · = true) (fun d => recordC 0x0D04 (fget F.PWR_OPSEC_SEC d) (fget F.REC_PCYC_PCYC d) d) ∧
   Ignored .timeMark (due · = false)) ∧
  (let back (m : List Host.Cell) (d : Dev) : List RecEntry := recRestorable (recScan m) d
   let refilled (m : List Host.Cell) (d : Dev) : List Host.Cell × Dev :=
    (back m d).foldl (fun (md : List Host.Cell × Dev) x => recRing x md.1 md.2) (m, recScanned (recScan m) d)
   let emptied (d : Dev) : Dev := fput F.REC_STATUS_FALLBACK false { d with side := { d.side with fallback := [] } }
   let opening (m : List Host.Cell) (d : Dev) : List Host.Cell × Dev :=
    let d1 := emptied (refilled m d).2
    let e : RecEvent := { code := 0x0D01, p1 := (recScan m).length
                          p2 := fget F.REC_BADSLOT_SCAN d1 + ((back m d).length <<< 16) + (b2n (recScan m).isEmpty <<< 24)
                          p3 := cycleNow d1, optime := opTime d1 }
    recStore .ok e (refilled m d).1 (raiseFlag 0x0D01 0 (fput F.REC_STATUS_OPEN true d1))
   CompletesBoth (.ringOpened .ok) (fun m d => (opening m d).2.side.carried = none) opening ∧
   (∀ c : RecRun,
    let done (md : List Host.Cell × Dev) : Dev := { md.2 with side := { md.2.side with carried := none } }
    CompletesBoth (.ringOpened .ok) (fun m d => (opening m d).2.side.carried = some c ∧ c.count = 0)
      (fun m d => ((opening m d).1, done (opening m d))) ∧
    CompletesBoth (.ringOpened .ok) (fun m d => (opening m d).2.side.carried = some c ∧ c.count ≠ 0)
      (fun m d => recStore .ok { closingOf c with carried := true } (opening m d).1 (done (opening m d))))) ∧
  (∀ (t : Fin 5) (code : BitVec 16),
    let e (d : Dev) : RecEvent := { code := code.toNat, p1 := fget (F.REC_SUB_P1_P1 t.val) d, p2 := fget (F.REC_SUB_P2_P2 t.val) d
                                    p3 := fget (F.REC_SUB_P3_P3 t.val) d, sw := true, tl := t.val }
    let coded : Prop := 0x0100 ≤ code.toNat ∧ code.toNat ≤ 0x0FFF
    Ignored (.subCmd t code false) always ∧
    Completes (.subCmd t code true) (fun _ => ¬ coded) (fset (F.REC_SUB_CMD_RESULT t.val) 1) ∧
    Completes (.subCmd t code true) (fun d => coded ∧ recFull (e d) d = true) (fset (F.REC_SUB_CMD_RESULT t.val) 2) ∧
    Completes (.subCmd t code true) (fun d => coded ∧ recFull (e d) d = false)
      (fun d => recAccept (e d) (fset (F.REC_SUB_CMD_RESULT t.val) 0 d))) ∧
  (∀ (t : Fin 5) (seq : Word),
    let asked (d : Dev) : Dev := fset (F.REC_RD_SEQ_SEQ t.val) seq.toNat d
    let shows (v : Nat) (d : Dev) : Dev :=
      regPut (R.REC_RD_STAT t.val) (BitVec.ofNat 32 (v + 32 * b2n (flag F.REC_STATUS_FALLBACK d))) d
    (∀ bs, CompletesBoth (.rdSeq t seq) (fun m d => recRead m seq.toNat (asked d) = .valid bs)
      (fun m d => (m, recPortData t.val bs (shows 2 (asked d))))) ∧
    CompletesBoth (.rdSeq t seq) (fun m d => recRead m seq.toNat (asked d) = .overwritten) (fun m d => (m, shows 4 (asked d))) ∧
    CompletesBoth (.rdSeq t seq) (fun m d => recRead m seq.toNat (asked d) = .bad)
      (fun m d => (m, recPortData t.val (recBad seq.toNat) (shows 8 (asked d)))) ∧
    CompletesBoth (.rdSeq t seq) (fun m d => recRead m seq.toNat (asked d) = .gone) (fun m d => (m, shows 16 (asked d))))

/-- On every device, whatever ran before: after a device reset of any cause, and after a power-on, all 32 load channels are OFF with
no output, all 16 low-side outputs are off, no coil is commanded, and the zone is in CONFIG_HOLD, not in ENGINE_HOLD. RST_N,
SYS_RESET with its key, the return of ground, a brown-out and the power-on outside S3 and S4, and the loss of the hutch each
answer such a state. -/
def Obligations.ResetTurnsOutputsOff : Prop :=
  (∀ (cause : Nat) (d : Dev), outputsOff (deviceReset cause d)) ∧ (∀ (x : Bool) (d : Dev), outputsOff (powerOn x d)) ∧
  ∀ s : State,
    (s.dev.pwr.down = false → ∃ t, exec .rstNReset s = .next t ∧ outputsOff t.dev) ∧
    (s.dev.pwr.down = false → ∃ t, exec (.sysReset 0x5D) s = .next t ∧ outputsOff t.dev) ∧
    (s.dev.pwr.down = false ∧ s.dev.lsw.noGround = true → ∃ t, exec .groundReturnReset s = .next t ∧ outputsOff t.dev) ∧
    (asleep s.dev = false → ∃ t, exec .brownOut s = .next t ∧ outputsOff t.dev) ∧
    (∀ x, asleep s.dev = false → ∃ t, exec (.powerOnReset x) s = .next t ∧ outputsOff t.dev) ∧
    ∃ t, exec .hutchRetentionLoss s = .next t ∧ outputsOff t.dev

/-- After a power-on, and after a device reset of any cause but a wake, the timestamp is 0 and the source FREE (code 0). After the
reset of a wake from S3 or S4 the source is FREE, the count is 0, and the cycle number is the one held through the sleep plus
the elapsed time in cycles of the nominal frequency, rounded up, plus 1. -/
def Obligations.TimestampAfterReset : Prop :=
  (∀ (cause : Nat) (d : Dev), tsNow (deviceReset cause d) = 0 ∧ fget F.ANG_STATUS_SRC (deviceReset cause d) = 0) ∧
  (∀ (x : Bool) (d : Dev), tsNow (powerOn x d) = 0 ∧ fget F.ANG_STATUS_SRC (powerOn x d) = 0) ∧
  ∀ (w : SleepMeas) (d : Dev), fget F.ANG_STATUS_SRC (wakeReset w d) = 0 ∧ countNow (wakeReset w d) = 0 ∧
    cycleNow (wakeReset w d) =
      (let e := (elapsedPut w d).1
       let nom := (regReset R.ANG_NOM_FREQ).toNat
       (d.pwr.cycle + (e.1 * nom + e.2 * 1000000 - 1) / (e.2 * 1000000) + 1) % 2 ^ 32)

/-- A member has a trestle fault while TL0, or a trestle whose bit of CRIT_MASK is set, is STOPPED or FAULTED; bit 0 acts as set
whatever it holds. DEV_FAULT, bit 15 of CPX_STATUS, reads 1 in exactly that condition; the member reports itself barred in role
negotiation in that condition or in CONFIG_HOLD; and ARM is refused: nothing changes. -/
def Obligations.TrestleFaultReported : Prop :=
  (∀ d : Dev, (regNow R.CPX_STATUS d).testBit 15 = true ↔ trestleFaulty d) ∧
  (∀ d : Dev, selfBarred d = true ↔ trestleFaulty d ∨ zone d = 0) ∧
  Ignored .protCmdArm trestleFaulty

/-- In any state but COMPLETE the check answers BAD_STATE; in COMPLETE a satellite image with WHEN 1 is answered BAD_PARAM, and a
case that the table does not permit BAD_STATE, nothing changed: classes 0 to 4 need CONFIG_HOLD or DISARMED or WHEN 1, SAT needs
DISARMED and WHEN 0, CUSTOMER is permitted always. A permitted case is never refused by this table: the answer is that of the
version and pair rules. -/
def Obligations.ActivationPermittedByClassAndZone : Prop :=
  ∀ (when1 : Bool) (ver : Nat) (d : Dev),
    let c := fget F.UPD_STATUS_CLASS d
    let permitted : Prop := (c ≤ 4 ∧ (zone d = 0 ∨ zone d = 1 ∨ when1 = true)) ∨ (c = 5 ∧ when1 = false ∧ zone d = 1) ∨ c = 6
    let pairs : Option Nat × Dev := if d.upd.rom then (none, d) else match pairBar d with
      | some r => (some stState, recordC 0x0E0E 0 r d)
      | none => (none, d)
    (updState d ≠ 3 → activateCheck when1 ver d = (some stState, d)) ∧
    (updState d = 3 ∧ c = 5 ∧ when1 = true → activateCheck when1 ver d = (some stParam, d)) ∧
    (updState d = 3 ∧ ¬ permitted ∧ ¬ (c = 5 ∧ when1 = true) → activateCheck when1 ver d = (some stState, d)) ∧
    (updState d = 3 ∧ permitted ∧ ¬ (c = 4 ∧ d.pair.mode ≠ 0 ∧ d.upd.rom = false ∧ peerUp d = false) →
      (∀ st, versionRules d.upd.header ver d = some st → activateCheck when1 ver d = (some st, d)) ∧
      (versionRules d.upd.header ver d = none → activateCheck when1 ver d = pairs))

/-- Both registers reset to 0. A write of a word clears in PROT_INT_STAT the bits below 16 that are 1 in the word and keeps the
others; in PROT_INT_EN each bit below 16 takes the word's; bits 31 to 16 are reserved: a write does not change them. Event
0x0501 + i sets bit i of PROT_INT_STAT for i from 0 to 13, LSO_FAULT (0x0520) bit 14, AIN_WIRE (0x0521) bit 15. -/
def Obligations.ProtectionInterruptRegisters : Prop :=
  (regReset R.PROT_INT_STAT = 0 ∧ regReset R.PROT_INT_EN = 0) ∧
  (∀ (secure : Bool) (w : Word) (d : Dev) (i : Nat), i < 16 →
    (regAfter R.PROT_INT_STAT secure w.toNat d).testBit i = ((regGet d R.PROT_INT_STAT).toNat.testBit i && !w.toNat.testBit i) ∧
    (regAfter R.PROT_INT_EN secure w.toNat d).testBit i = w.toNat.testBit i) ∧
  (∀ (secure : Bool) (w : Word) (d : Dev) (i : Nat), 16 ≤ i →
    (regAfter R.PROT_INT_STAT secure w.toNat d).testBit i = (regGet d R.PROT_INT_STAT).toNat.testBit i ∧
    (regAfter R.PROT_INT_EN secure w.toNat d).testBit i = (regGet d R.PROT_INT_EN).toNat.testBit i) ∧
  (∀ i p : Nat, i ≤ 13 → eventFlag (0x0501 + i) p = some (R.PROT_INT_STAT, i)) ∧
  (∀ p : Nat, eventFlag 0x0520 p = some (R.PROT_INT_STAT, 14) ∧ eventFlag 0x0521 p = some (R.PROT_INT_STAT, 15))

/-- On every device: a read of ANG_NOW_LO by master t returns timestamp bits 31 to 0, and a read of ANG_NOW_HI by t after it returns
bits 47 to 32 as they then stood, whatever other masters read of the two registers between. Without a read of ANG_NOW_LO since
reset ANG_NOW_HI returns the present bits 47 to 32: every reset leaves no copy. The command ANG_NOW_LO_READ of trestle t does
the same: its data leaves, and the copy of no other master changes. -/
def Obligations.TimestampReadLatchesItsUpperBits : Prop :=
  (∀ (t attr : Nat) (d : Dev), (regRead t attr R.ANG_NOW_LO d).1 = tsNow d % 2 ^ 32 ∧
    (∀ attr', (regRead t attr' R.ANG_NOW_HI (regRead t attr R.ANG_NOW_LO d).2).1 = tsNow d / 2 ^ 32) ∧
    (∀ (u attr' attr'' : Nat) (a : Nat), u ≠ t → a = R.ANG_NOW_LO ∨ a = R.ANG_NOW_HI →
      (regRead t attr' R.ANG_NOW_HI (regRead u attr'' a d).2).1 = (regRead t attr' R.ANG_NOW_HI d).1)) ∧
  (∀ (t attr cause : Nat) (x : Bool) (d : Dev),
    (regRead t attr R.ANG_NOW_HI (deviceReset cause d)).1 = tsNow (deviceReset cause d) / 2 ^ 32 ∧
    (regRead t attr R.ANG_NOW_HI (powerOn x d)).1 = tsNow (powerOn x d) / 2 ^ 32) ∧
  ∀ (t : Fin 5) (s : State), clocksRun s.dev = true → ∃ u : State, exec (.angNowLoRead t) s = .next u ∧ u.mem = s.mem ∧
    u.dev.out = .readData t.val R.ANG_NOW_LO (tsNow s.dev % 2 ^ 32) :: s.dev.out ∧ u.dev.regs = s.dev.regs ∧
    nowHiRead t.val u.dev = tsNow s.dev / 2 ^ 32 ∧ ∀ k : Nat, k ≠ t.val → nowHiRead k u.dev = nowHiRead k s.dev

/-- CSR 0x7C0 reads W in bit 0, MPW in bit 1 and 0 above; a write changes MPW by its bit 1 and W never; on TL0 MPW reads 1 and
ignores writes. It traps as illegal from every mode but M. A trap taken into M-mode copies W into MPW and sets W. MRET sets W to
MPW, then MPW to 1; with mstatus.MPP of M, W, which is 1 in M-mode, stays 1. -/
def Obligations.WorldOfTrapsAndReturns : Prop :=
  (∀ (t : Nat) (d : Dev), csrRead t 0x7C0 d =
    (if (tlOf t d).arch.w then 1 else 0) + (if (tlOf t d).arch.mpw = true ∨ t = 0 then 2 else 0)) ∧
  (∀ (t v : Nat) (d : Dev), t < 5 → (tlOf t (csrWrite t 0x7C0 v d)).arch =
    if t = 0 then (tlOf t d).arch else { (tlOf t d).arch with mpw := v.testBit 1 }) ∧
  (∀ (t : Nat) (write : Bool) (d : Dev), csrTrap t 0x7C0 write d = if (tlOf t d).arch.priv = 3 then none else some 2) ∧
  (∀ (t cause tval : Nat) (intr : Bool) (a : Arch), (trapM t intr cause tval a).w = true ∧
    (t ≠ 0 → (trapM t intr cause tval a).mpw = a.w) ∧ (t = 0 → (trapM t intr cause tval a).mpw = true)) ∧
  (∀ (t : Nat) (a : Arch), (retM t a).mpw = true ∧
    (bitsOf (mst a) 11 2 ≠ 3 ∧ t ≠ 0 → (retM t a).w = a.mpw) ∧ (t = 0 ∨ bitsOf (mst a) 11 2 = 3 → (retM t a).w = true))

/-- With the ring open and not failed, holding records, and no lost event to tell: the head of the intake is written as the next
sequence number, modulo 2^32, into slot SEQ mod 65,536 at 0x00_7000_0000 + 32 times the slot: code, SEQ at byte 4, FLAGS at byte
15 with SW, CLOSE, EARLY, CARRIED, TL and bit 7 clear, and the CRC-16 of the first 30 bytes behind. No byte outside the slot
changes, the intake loses its head, and REC_NEWEST is the new number. -/
def Obligations.RecordLayoutInTheRing : Prop :=
  ∀ (s : State) (e : RecEvent) (rest : List RecEvent),
    flag F.REC_STATUS_OPEN s.dev = true → flag F.REC_STATUS_FALLBACK s.dev = false → flag F.REC_STATUS_MRAM_FAIL s.dev = false →
    s.dev.side.lostNow = 0 → s.dev.side.intake = e :: rest → fget F.REC_HELD_HELD s.dev ≠ 0 →
    let seq := (fget F.REC_NEWEST_SEQ s.dev + 1) % 2 ^ 32
    let slot := 0x70000000 + 32 * (seq % 65536)
    ∃ t : State, exec (.recordWrite .ok) s = .next t ∧
      (∀ a : Nat, a < slot ∨ slot + 32 ≤ a → memByte t.mem a = memByte s.mem a) ∧
      field (memRead t.mem slot 32) 0 2 = e.code % 65536 ∧ field (memRead t.mem slot 32) 4 4 = seq ∧
      field (memRead t.mem slot 32) 30 2 = crc16 (memRead t.mem slot 30) ∧
      (memByte t.mem (slot + 15)).toNat = (if e.sw then 1 else 0) + (if e.close then 2 else 0) + (if e.early then 4 else 0)
        + (if e.carried then 8 else 0) + 16 * (e.tl % 8) ∧
      t.dev.side.intake = rest ∧ fget F.REC_NEWEST_SEQ t.dev = seq ∧ t.dev.out = s.dev.out

/-- DBG_OTP and the OTP security versions read the same after a device reset of any cause and after a power-on. The hutch's
registers, among them the elapsed time, the calibrations, the operating seconds, the wake-port address and the power cycle
count, read the same after every device reset. The same holds of the commands RST_N_RESET, SYS_RESET and POWER_ON_RESET. -/
def Obligations.OneTimeAndHutchMemorySurviveResets : Prop :=
  (∀ (cause a : Nat) (d : Dev), a ∈ otpRegs ++ hutchRegs → regGet (deviceReset cause d) a = regGet d a) ∧
  (∀ (x : Bool) (a : Nat) (d : Dev), a ∈ otpRegs → regGet (powerOn x d) a = regGet d a) ∧
  ∀ s t : State,
    (exec .rstNReset s = .next t → ∀ a ∈ otpRegs ++ hutchRegs, regGet t.dev a = regGet s.dev a) ∧
    (∀ key, exec (.sysReset key) s = .next t → ∀ a ∈ otpRegs ++ hutchRegs, regGet t.dev a = regGet s.dev a) ∧
    (∀ x, exec (.powerOnReset x) s = .next t → ∀ a ∈ otpRegs, regGet t.dev a = regGet s.dev a)

/-- PEER_CLR, BRG_CLR, CAN_CNT_CLR and ETH_CNT_CLR, with their block whole, answer a state in which each counter register of the
command reads 0 and every other register reads as before; beside the register file nothing of the state differs. -/
def Obligations.ClearCommandsChangeTheirCountersAlone : Prop :=
  let Clears (c : Instr) (i : Option Nat) (l : List Nat) : Prop := ∀ s : State, (∀ k, i = some k → cut k s.dev = false) →
    ∃ t : State, exec c s = .next t ∧ t = { s with dev := { s.dev with regs := t.dev.regs } } ∧
      ∀ a : Nat, regGet t.dev a = if a ∈ l then 0 else regGet s.dev a
  Clears .peerClr (some 12) [R.PEER_CNT_CRC, R.PEER_CNT_RETX, R.PEER_CNT_RETRY, R.PEER_CNT_ERR] ∧
  Clears .brgClr none [R.BRG_CNT_ERR, R.BRG_CNT_RETRY, R.BRG_CNT_PFHIT, R.BRG_CNT_MEM, R.BRG_CNT_PAR] ∧
  (∀ n : Fin 6, Clears (.canCntClr n) (some (16 + n.val))
    [R.CAN_CNT_RX n.val, R.CAN_CNT_TX n.val, R.CAN_CNT_ERR n.val, R.CAN_CNT_DROP n.val, R.CAN_CNT_ABN n.val]) ∧
  (∀ e : Fin 2, Clears (.ethCntClr e) (some (13 + e.val))
    [R.ETH_CNT_RX e.val, R.ETH_CNT_FCS e.val, R.ETH_CNT_DROP e.val, R.ETH_CNT_TX e.val])

/-- From a state with memories in canonical form, the update engine whole and the update ERASING: the command answers a state in
which every byte from the staging area's base on, for the record and BLOCKS blocks of 4,096 bytes, reads as erased flash, every
other byte reads as before, the update is OPEN, and the queue stands. -/
def Obligations.StagingEraseReachesItsBlocksAlone : Prop :=
  ∀ s : State, Memory.wf s.mem = true → cut 24 s.dev = false → updState s.dev = 1 →
    let size := 0x1000 + 4096 * fget F.UPD_BLOCKS_BLOCKS s.dev
    ∃ t : State, exec .stagingEraseDone s = .next t ∧ t.pending = s.pending ∧ updState t.dev = 2 ∧
      (∀ a : Nat, a < 0x63000000 ∨ 0x63000000 + size ≤ a → memByte t.mem a = memByte s.mem a) ∧
      (∀ a : Nat, 0x63000000 ≤ a ∧ a < 0x63000000 + size ∧ a < 0x64000000 → memByte t.mem a = 0xFF)

/-- For every state with no command waiting: after one step, a tick in the model (log entry 25), the cycle number is the same and
the count not smaller; while a hold is on, or the clocks stand in S2 to S4, the timestamp is the same. The memories, what has
been sent, the bridges, the update and the bench stand. -/
def Obligations.AngleNeverRunsBackward : Prop :=
  ∀ s t : State, s.pending = [] → step s = .next t →
    cycleNow t.dev = cycleNow s.dev ∧ countNow s.dev ≤ countNow t.dev ∧
    (flag F.ANG_STATUS_HELD s.dev = true ∨ clocksRun s.dev = false → tsNow t.dev = tsNow s.dev) ∧
    t.mem = s.mem ∧ t.dev.out = s.dev.out ∧ t.dev.brg = s.dev.brg ∧ t.dev.upd = s.dev.upd ∧ t.dev.est = s.dev.est

/-- For every state: after BANK_CONFIRMED the OTP security version of each class 0 to 4 is at least what it was; after
OTP_PROGRAMMED every bit of DBG_OTP that was 1 is 1, the bits to be raised too when the programming succeeded, and no other bit
has risen. -/
def Obligations.SecurityVersionsAndLifecycleNeverFall : Prop :=
  (∀ (s t : State) (c : Nat), c < 5 → exec .bankConfirmed s = .next t → fget (svnField c) s.dev ≤ fget (svnField c) t.dev) ∧
  (∀ (ok : Bool) (s t : State), exec (.otpProgrammed ok) s = .next t → cut 27 s.dev = false → flag F.DBG_STAT_BUSY s.dev = true →
    fget F.DBG_OTP_OTP t.dev =
      if ok then (fget F.DBG_OTP_OTP s.dev ||| s.dev.worlds.raising) % 2 ^ F.DBG_OTP_OTP.width else fget F.DBG_OTP_OTP s.dev)

/-- For every channel and state: if at most 16 frames count in the queue before TX_CMD, at most 16 do after it; the queue is as it
was, or it is as it was with one frame behind it that carries the page and the next TAG; the queues and FIFOs of every other
channel, all memories and everything sent stand. -/
def Obligations.CanQueueHoldsAtMost16 : Prop :=
  ∀ (n : Fin 6) (p : Fin 2) (e : BitVec 12) (len : BitVec 7) (go : Bool) (s t : State),
    exec (.txCmd n p e len go) s = .next t → canCounted (canOf n.val s.dev) ≤ 16 →
    canCounted (canOf n.val t.dev) ≤ 16 ∧
    ((canOf n.val t.dev).queue = (canOf n.val s.dev).queue ∨
      ∃ x : CanTx, (canOf n.val t.dev).queue = (canOf n.val s.dev).queue ++ [x] ∧ x.page = p.val ∧
        x.tag = (fget (F.CAN_TX_STAT_TAG n.val p.val) s.dev + 1) % 256) ∧
    (∀ k : Nat, k ≠ n.val → canOf k t.dev = canOf k s.dev) ∧ t.mem = s.mem ∧ t.dev.out = s.dev.out

/-- With the zone state neither CONFIG_HOLD nor DISARMED: a valid sleep request of a device that is awake is only recorded as
SLEEP_ABANDONED with cause 2, and no sleep begins; a write that would set a bit of ACQ, KZC, LSW, PEER, NSM or IOX in one of the
three cut registers changes none of its bits and is recorded for each such block. -/
def Obligations.SleepAndCutsRefusedWhileArmed : Prop :=
  (∀ (st : BitVec 3) (s : State), 1 ≤ st.toNat ∧ st.toNat ≤ 4 → s.dev.pwr.target = 0 → zone s.dev ≠ 0 → zone s.dev ≠ 1 →
    ∃ t : State, exec (.pwrSleepGo st) s = .next t ∧ t.dev.pwr = s.dev.pwr ∧
      t = { s with dev := recordC 0x0C03 st.toNat 2 (fset F.PWR_SLEEP_STATE st.toNat s.dev) }) ∧
  (∀ (t : Fin 5) (attr : Byte) (w : Word) (s : State) (i : Nat), zone s.dev ≠ 0 → zone s.dev ≠ 1 → i ∈ cutKept →
    let setsBit (kind : Nat) : Prop := w.toNat.testBit i = true ∧ (fget (cutField kind) s.dev).testBit i = false ∧
      (cutMask kind).testBit i = true
    (setsBit 0 → ∃ u : State, exec (.pwrCgWrite t attr w) s = .next u ∧ fget F.PWR_CG_CG u.dev = fget F.PWR_CG_CG s.dev ∧
      u.dev.out = s.dev.out ∧ u.mem = s.mem) ∧
    (setsBit 1 → ∃ u : State, exec (.pwrRstWrite t attr w) s = .next u ∧ fget F.PWR_RST_RST u.dev = fget F.PWR_RST_RST s.dev ∧
      u.dev.out = s.dev.out ∧ u.mem = s.mem) ∧
    (setsBit 2 → ∃ u : State, exec (.pwrPswWrite t attr w) s = .next u ∧ fget F.PWR_PSW_PSW u.dev = fget F.PWR_PSW_PSW s.dev ∧
      u.dev.out = s.dev.out ∧ u.mem = s.mem))
end

