-- ==== Sys2Proof/Laws/State.lean ====
section
/-!
SUPPORT. Laws/State.lean: what each shared operation leaves and what it reads back: the sparse maps, the register file and its fields,
the fields of Dev under the operations every block uses, and the outcomes of the wrappers of the meanings.
-/

namespace Sys2Proof.Machine

/-! ### Sparse maps -/

theorem tabGet_tabPut_same {α : Type} (f : Nat → α) (t : Tab α) (k : Nat) (v : α) : tabGet f (tabPut t k v) k = v := by
  induction t with
  | nil => simp [tabPut, tabGet]
  | cons e t ih =>
    obtain ⟨k', v'⟩ := e
    by_cases h : k' = k
    · simp [tabPut, tabGet, h]
    · by_cases h2 : k < k' <;> simp [tabPut, tabGet, h, h2, ih]

theorem tabGet_tabPut_ne {α : Type} (f : Nat → α) (t : Tab α) {k j : Nat} (v : α) (h : k ≠ j) :
    tabGet f (tabPut t k v) j = tabGet f t j := by
  induction t with
  | nil => simp [tabPut, tabGet, h]
  | cons e t ih =>
    obtain ⟨k', v'⟩ := e
    by_cases h1 : k' = k
    · subst h1; simp [tabPut, tabGet, h]
    · by_cases h2 : k < k'
      · simp [tabPut, tabGet, h1, h2, h]
      · simp only [tabPut, if_neg h1, if_neg h2, tabGet, ih]

theorem tabGet_tabDel_same {α : Type} (f : Nat → α) (t : Tab α) (k : Nat) : tabGet f (tabDel t k) k = f k := by
  induction t with
  | nil => rfl
  | cons e t ih =>
    obtain ⟨k', v'⟩ := e
    by_cases h : k' = k <;> simp [tabDel, tabGet, h, ih]

theorem tabGet_tabDel_ne {α : Type} (f : Nat → α) (t : Tab α) {k j : Nat} (h : k ≠ j) :
    tabGet f (tabDel t k) j = tabGet f t j := by
  induction t with
  | nil => rfl
  | cons e t ih =>
    obtain ⟨k', v'⟩ := e
    by_cases h1 : k' = k
    · subst h1; simp [tabDel, tabGet, h, ih]
    · simp only [tabDel, if_neg h1, tabGet, ih]

/-- A key reads as what was written to it. -/
@[simp] theorem tabGet_tabSet_same {α : Type} [DecidableEq α] (f : Nat → α) (t : Tab α) (k : Nat) (v : α) :
    tabGet f (tabSet f t k v) k = v := by
  unfold tabSet
  split
  · rename_i h; rw [tabGet_tabDel_same, h]
  · exact tabGet_tabPut_same f t k v

/-- A write leaves every other key. -/
theorem tabGet_tabSet_ne {α : Type} [DecidableEq α] (f : Nat → α) (t : Tab α) {k j : Nat} (v : α) (h : k ≠ j) :
    tabGet f (tabSet f t k v) j = tabGet f t j := by
  unfold tabSet
  split
  · exact tabGet_tabDel_ne f t h
  · exact tabGet_tabPut_ne f t v h

/-! ### The canonical form -/

/-- `k` lies below every key of `t`, and the keys rise. -/
theorem tabRises_tail {α : Type} {k k' : Nat} {v : α} {t : Tab α} (h : tabRises k ((k', v) :: t) = true) :
    k < k' ∧ tabRises k' t = true := by simpa [tabRises] using h

theorem tabRises_weaken {α : Type} {j k : Nat} {t : Tab α} (hjk : j ≤ k) (h : tabRises k t = true) : tabRises j t = true := by
  cases t with
  | nil => rfl
  | cons e t =>
    obtain ⟨k', v⟩ := e
    have := tabRises_tail h
    simp only [tabRises, Bool.and_eq_true, decide_eq_true_eq]
    exact ⟨by omega, this.2⟩

theorem tabRises_tabPut {α : Type} {j k : Nat} (v : α) {t : Tab α} (hj : j < k) (h : tabRises j t = true) :
    tabRises j (tabPut t k v) = true := by
  induction t generalizing j with
  | nil => simp [tabPut, tabRises, hj]
  | cons e t ih =>
    obtain ⟨k', v'⟩ := e
    have h' := tabRises_tail h
    unfold tabPut
    split
    · rename_i hk; subst hk; simp [tabRises, hj, h'.2]
    · split
      · rename_i hlt; simp [tabRises, hj, hlt, h'.2]
      · rename_i h1 h2
        simp only [tabRises, Bool.and_eq_true, decide_eq_true_eq]
        exact ⟨h'.1, ih (by omega) h'.2⟩

theorem tabRises_tabDel {α : Type} {j : Nat} (k : Nat) {t : Tab α} (h : tabRises j t = true) :
    tabRises j (tabDel t k) = true := by
  induction t generalizing j with
  | nil => rfl
  | cons e t ih =>
    obtain ⟨k', v'⟩ := e
    have h' := tabRises_tail h
    unfold tabDel
    split
    · exact ih (tabRises_weaken (by omega) h'.2)
    · simp only [tabRises, Bool.and_eq_true, decide_eq_true_eq]
      exact ⟨h'.1, ih h'.2⟩

/-- The form, with its keys above a bound: `tabWf` as one recursive condition. -/
theorem tabWf_iff {α : Type} [DecidableEq α] (f : Nat → α) (t : Tab α) :
    tabWf f t = true ↔ (match t with
      | [] => True
      | (k, _) :: t' => tabRises k t' = true) ∧ ∀ e ∈ t, e.2 ≠ f e.1 := by
  unfold tabWf
  cases t with
  | nil => simp
  | cons e t => obtain ⟨k, v⟩ := e; simp [List.all_eq_true]

theorem tabPut_mem {α : Type} {k : Nat} {v : α} {t : Tab α} {e : Nat × α} (h : e ∈ tabPut t k v) : e = (k, v) ∨ e ∈ t := by
  induction t with
  | nil => exact .inl (by simpa [tabPut] using h)
  | cons a t ih =>
    obtain ⟨k', v'⟩ := a
    unfold tabPut at h
    split at h
    · rcases List.mem_cons.1 h with h | h
      · exact .inl h
      · exact .inr (List.mem_cons_of_mem _ h)
    · split at h
      · rcases List.mem_cons.1 h with h | h
        · exact .inl h
        · exact .inr h
      · rcases List.mem_cons.1 h with h | h
        · exact .inr (h ▸ List.mem_cons_self)
        · rcases ih h with h | h
          · exact .inl h
          · exact .inr (List.mem_cons_of_mem _ h)

theorem tabDel_mem {α : Type} {k : Nat} {t : Tab α} {e : Nat × α} (h : e ∈ tabDel t k) : e ∈ t := by
  induction t with
  | nil => exact h
  | cons a t ih =>
    obtain ⟨k', v'⟩ := a
    unfold tabDel at h
    split at h
    · exact List.mem_cons_of_mem _ (ih h)
    · rcases List.mem_cons.1 h with h | h
      · exact h ▸ List.mem_cons_self
      · exact List.mem_cons_of_mem _ (ih h)

theorem tabWf_tabDel {α : Type} [DecidableEq α] (f : Nat → α) (t : Tab α) (k : Nat) (h : tabWf f t = true) :
    tabWf f (tabDel t k) = true := by
  rw [tabWf_iff] at h ⊢
  refine ⟨?_, fun e he => h.2 e (tabDel_mem he)⟩
  cases t with
  | nil => simp [tabDel]
  | cons a t =>
    obtain ⟨k', v'⟩ := a
    have h2 : tabRises k' (tabDel t k) = true := tabRises_tabDel k h.1
    by_cases hk : k' = k
    · simp only [tabDel, if_pos hk]
      cases ht : tabDel t k with
      | nil => trivial
      | cons b u =>
        obtain ⟨k2, v2⟩ := b
        rw [ht] at h2
        exact (tabRises_tail h2).2
    · simp only [tabDel, if_neg hk]
      exact h2

theorem tabWf_tabPut {α : Type} [DecidableEq α] (f : Nat → α) (t : Tab α) (k : Nat) (v : α) (hv : v ≠ f k)
    (h : tabWf f t = true) : tabWf f (tabPut t k v) = true := by
  rw [tabWf_iff] at h ⊢
  refine ⟨?_, fun e he => ?_⟩
  · cases t with
    | nil => simp [tabPut, tabRises]
    | cons a t =>
      obtain ⟨k', v'⟩ := a
      have h1 : tabRises k' t = true := h.1
      by_cases hk : k' = k
      · subst hk; simpa only [tabPut, if_true] using h1
      · by_cases hl : k < k'
        · simp [tabPut, hk, hl, tabRises, h1]
        · simp only [tabPut, if_neg hk, if_neg hl]
          exact tabRises_tabPut v (by omega) h1
  · rcases tabPut_mem he with he | he
    · subst he; exact hv
    · exact h.2 e he

/-- A write keeps the canonical form. -/
theorem tabWf_tabSet {α : Type} [DecidableEq α] (f : Nat → α) (t : Tab α) (k : Nat) (v : α) (h : tabWf f t = true) :
    tabWf f (tabSet f t k v) = true := by
  by_cases hv : v = f k
  · simp only [tabSet, if_pos hv]; exact tabWf_tabDel f t k h
  · simp only [tabSet, if_neg hv]; exact tabWf_tabPut f t k v hv h

/-! ### Bits and fields -/

theorem bitsPut_lt {n lo w v : Nat} (hn : n < 2 ^ 32) (hw : lo + w ≤ 32) : bitsPut n lo w v < 2 ^ 32 := by
  unfold bitsPut
  have h1 : n % 2 ^ lo < 2 ^ 32 := lt_of_le_of_lt (Nat.mod_le _ _) hn
  have h2 : (v % 2 ^ w) <<< lo < 2 ^ 32 := by
    rw [Nat.shiftLeft_eq]
    calc v % 2 ^ w * 2 ^ lo < 2 ^ w * 2 ^ lo :=
          Nat.mul_lt_mul_of_pos_right (Nat.mod_lt _ (by positivity)) (by positivity)
      _ = 2 ^ (lo + w) := by rw [← pow_add, Nat.add_comm]
      _ ≤ 2 ^ 32 := Nat.pow_le_pow_right (by decide) hw
  have h3 : (n >>> (lo + w)) <<< (lo + w) < 2 ^ 32 := by
    rw [Nat.shiftRight_eq_div_pow, Nat.shiftLeft_eq]
    exact lt_of_le_of_lt (Nat.div_mul_le_self _ _) hn
  exact Nat.or_lt_two_pow (Nat.or_lt_two_pow h1 h2) h3

theorem bitsOf_testBit (n lo w i : Nat) : (bitsOf n lo w).testBit i = (decide (i < w) && n.testBit (lo + i)) := by
  simp [bitsOf, Nat.testBit_mod_two_pow, Nat.testBit_shiftRight]

theorem bitsPut_testBit (n lo w v i : Nat) :
    (bitsPut n lo w v).testBit i = if lo ≤ i ∧ i < lo + w then v.testBit (i - lo) else n.testBit i := by
  unfold bitsPut
  simp only [Nat.testBit_or, Nat.testBit_mod_two_pow, Nat.testBit_shiftLeft, Nat.testBit_shiftRight]
  by_cases h1 : lo ≤ i
  · by_cases h2 : i < lo + w
    · have h3 : ¬ i < lo := by omega
      have h4 : ¬ lo + w ≤ i := by omega
      have h5 : i - lo < w := by omega
      simp [h1, h2, h3, h4, h5]
    · have h3 : ¬ i < lo := by omega
      have h4 : lo + w ≤ i := by omega
      have h5 : ¬ i - lo < w := by omega
      simp [h1, h2, h3, h4, h5, Nat.add_sub_cancel' h4]
  · have h3 : i < lo := by omega
    have h4 : ¬ lo + w ≤ i := by omega
    simp [h1, h3, h4]

/-- The bits that were put are read back. -/
theorem bitsOf_bitsPut_same (n lo w v : Nat) : bitsOf (bitsPut n lo w v) lo w = v % 2 ^ w := by
  apply Nat.eq_of_testBit_eq
  intro i
  rw [bitsOf_testBit, bitsPut_testBit, Nat.testBit_mod_two_pow]
  by_cases h : i < w
  · simp [h]
  · simp [h]

/-- Bits outside those that were put stay. -/
theorem bitsOf_bitsPut_other (n lo w v lo' w' : Nat) (h : lo' + w' ≤ lo ∨ lo + w ≤ lo') :
    bitsOf (bitsPut n lo w v) lo' w' = bitsOf n lo' w' := by
  apply Nat.eq_of_testBit_eq
  intro i
  rw [bitsOf_testBit, bitsOf_testBit, bitsPut_testBit]
  by_cases h1 : i < w'
  · have : ¬(lo ≤ lo' + i ∧ lo' + i < lo + w) := by omega
    simp [this]
  · simp [h1]

/-! ### The register file -/

@[simp] theorem regGet_regPut_same (a : Nat) (w : Word) (d : Dev) : regGet (regPut a w d) a = w := by
  simp [regGet, regPut]

theorem regGet_regPut_ne {a b : Nat} (w : Word) (d : Dev) (h : a ≠ b) : regGet (regPut a w d) b = regGet d b := by
  simp [regGet, regPut, tabGet_tabSet_ne _ _ _ h]

/-- A register write keeps the canonical form of the register file. -/
theorem regsWf_regPut (a : Nat) (w : Word) (d : Dev) (h : tabWf regReset d.regs = true) :
    tabWf regReset (regPut a w d).regs = true := tabWf_tabSet _ _ _ _ h

/-- A field that was set is read back. -/
theorem fget_fset_same (f : Fld) (v : Nat) (d : Dev) (h : f.lo + f.width ≤ 32) : fget f (fset f v d) = v % 2 ^ f.width := by
  have := bitsPut_lt (v := v) (regGet d f.reg).isLt h
  simp only [fget, fset, regGet_regPut_same, BitVec.toNat_ofNat, Nat.mod_eq_of_lt this, bitsOf_bitsPut_same]

/-- A field of another register stays. -/
theorem fget_fset_ne {f g : Fld} (v : Nat) (d : Dev) (h : f.reg ≠ g.reg) : fget g (fset f v d) = fget g d := by
  simp [fget, fset, regGet_regPut_ne _ _ h]

/-- Another field of the same register stays. -/
theorem fget_fset_apart {f g : Fld} (v : Nat) (d : Dev) (hr : f.reg = g.reg) (hf : f.lo + f.width ≤ 32)
    (h : g.lo + g.width ≤ f.lo ∨ f.lo + f.width ≤ g.lo) : fget g (fset f v d) = fget g d := by
  have := bitsPut_lt (v := v) (regGet d f.reg).isLt hf
  simp only [fget, fset, ← hr, regGet_regPut_same, BitVec.toNat_ofNat, Nat.mod_eq_of_lt this]
  exact bitsOf_bitsPut_other _ _ _ _ _ _ h

theorem regGet_fset_ne {f : Fld} {a : Nat} (v : Nat) (d : Dev) (h : f.reg ≠ a) : regGet (fset f v d) a = regGet d a :=
  regGet_regPut_ne _ _ h

/-- A one-bit field that was set is read back. -/
theorem flag_fput_same (f : Fld) (b : Bool) (d : Dev) (hw : f.width = 1) (h : f.lo + f.width ≤ 32) : flag f (fput f b d) = b := by
  unfold flag fput
  rw [fget_fset_same f _ d h, hw]
  cases b <;> rfl

/-! ### Fields of Dev under the operations every block uses -/

@[simp] theorem regPut_clk (a : Nat) (w : Word) (d : Dev) : (regPut a w d).clk = d.clk := rfl
@[simp] theorem regPut_out (a : Nat) (w : Word) (d : Dev) : (regPut a w d).out = d.out := rfl
@[simp] theorem regPut_free (a : Nat) (w : Word) (d : Dev) : (regPut a w d).free = d.free := rfl
@[simp] theorem regPut_pair (a : Nat) (w : Word) (d : Dev) : (regPut a w d).pair = d.pair := rfl
@[simp] theorem regPut_ang (a : Nat) (w : Word) (d : Dev) : (regPut a w d).ang = d.ang := rfl
@[simp] theorem regPut_kzc (a : Nat) (w : Word) (d : Dev) : (regPut a w d).kzc = d.kzc := rfl
@[simp] theorem regPut_acq (a : Nat) (w : Word) (d : Dev) : (regPut a w d).acq = d.acq := rfl
@[simp] theorem regPut_est (a : Nat) (w : Word) (d : Dev) : (regPut a w d).est = d.est := rfl
@[simp] theorem regPut_prot (a : Nat) (w : Word) (d : Dev) : (regPut a w d).prot = d.prot := rfl
@[simp] theorem regPut_lsw (a : Nat) (w : Word) (d : Dev) : (regPut a w d).lsw = d.lsw := rfl
@[simp] theorem regPut_trestles (a : Nat) (w : Word) (d : Dev) : (regPut a w d).trestles = d.trestles := rfl
@[simp] theorem regPut_worlds (a : Nat) (w : Word) (d : Dev) : (regPut a w d).worlds = d.worlds := rfl
@[simp] theorem regPut_aix (a : Nat) (w : Word) (d : Dev) : (regPut a w d).aix = d.aix := rfl
@[simp] theorem regPut_brg (a : Nat) (w : Word) (d : Dev) : (regPut a w d).brg = d.brg := rfl
@[simp] theorem regPut_nsm (a : Nat) (w : Word) (d : Dev) : (regPut a w d).nsm = d.nsm := rfl
@[simp] theorem regPut_pwr (a : Nat) (w : Word) (d : Dev) : (regPut a w d).pwr = d.pwr := rfl
@[simp] theorem regPut_side (a : Nat) (w : Word) (d : Dev) : (regPut a w d).side = d.side := rfl
@[simp] theorem regPut_upd (a : Nat) (w : Word) (d : Dev) : (regPut a w d).upd = d.upd := rfl

@[simp] theorem fset_clk (f : Fld) (v : Nat) (d : Dev) : (fset f v d).clk = d.clk := rfl
@[simp] theorem fset_out (f : Fld) (v : Nat) (d : Dev) : (fset f v d).out = d.out := rfl
@[simp] theorem fset_free (f : Fld) (v : Nat) (d : Dev) : (fset f v d).free = d.free := rfl
@[simp] theorem fset_pair (f : Fld) (v : Nat) (d : Dev) : (fset f v d).pair = d.pair := rfl
@[simp] theorem fset_ang (f : Fld) (v : Nat) (d : Dev) : (fset f v d).ang = d.ang := rfl
@[simp] theorem fset_kzc (f : Fld) (v : Nat) (d : Dev) : (fset f v d).kzc = d.kzc := rfl
@[simp] theorem fset_acq (f : Fld) (v : Nat) (d : Dev) : (fset f v d).acq = d.acq := rfl
@[simp] theorem fset_est (f : Fld) (v : Nat) (d : Dev) : (fset f v d).est = d.est := rfl
@[simp] theorem fset_prot (f : Fld) (v : Nat) (d : Dev) : (fset f v d).prot = d.prot := rfl
@[simp] theorem fset_lsw (f : Fld) (v : Nat) (d : Dev) : (fset f v d).lsw = d.lsw := rfl
@[simp] theorem fset_trestles (f : Fld) (v : Nat) (d : Dev) : (fset f v d).trestles = d.trestles := rfl
@[simp] theorem fset_aix (f : Fld) (v : Nat) (d : Dev) : (fset f v d).aix = d.aix := rfl
@[simp] theorem fset_nsm (f : Fld) (v : Nat) (d : Dev) : (fset f v d).nsm = d.nsm := rfl
@[simp] theorem fset_pwr (f : Fld) (v : Nat) (d : Dev) : (fset f v d).pwr = d.pwr := rfl
@[simp] theorem fset_side (f : Fld) (v : Nat) (d : Dev) : (fset f v d).side = d.side := rfl
@[simp] theorem fset_upd (f : Fld) (v : Nat) (d : Dev) : (fset f v d).upd = d.upd := rfl

@[simp] theorem send_out (o : Output) (d : Dev) : (send o d).out = o :: d.out := rfl
@[simp] theorem send_regs (o : Output) (d : Dev) : (send o d).regs = d.regs := rfl
@[simp] theorem send_clk (o : Output) (d : Dev) : (send o d).clk = d.clk := rfl
@[simp] theorem send_aix (o : Output) (d : Dev) : (send o d).aix = d.aix := rfl
@[simp] theorem send_pwr (o : Output) (d : Dev) : (send o d).pwr = d.pwr := rfl
@[simp] theorem send_nsm (o : Output) (d : Dev) : (send o d).nsm = d.nsm := rfl
@[simp] theorem send_prot (o : Output) (d : Dev) : (send o d).prot = d.prot := rfl
@[simp] theorem send_side (o : Output) (d : Dev) : (send o d).side = d.side := rfl

@[simp] theorem regGet_send (o : Output) (d : Dev) (a : Nat) : regGet (send o d) a = regGet d a := rfl
@[simp] theorem fget_send (o : Output) (d : Dev) (f : Fld) : fget f (send o d) = fget f d := rfl

/-! ### What an event changes -/

/-- A lost event changes the sideboard and the counter of lost events alone. -/
theorem recLose_fget (code : Nat) (d : Dev) (f : Fld) (h : f.reg ≠ R.REC_LOST) : fget f (recLose code d) = fget f d :=
  fget_fset_ne (f := F.REC_LOST_CNT) (g := f) (satAdd (fget F.REC_LOST_CNT d) 1 (2 ^ F.REC_LOST_CNT.width - 1)) d
    (fun e => h e.symm)

/-- A field reads the register file alone. -/
theorem fget_side (f : Fld) (d : Dev) (x : Sideboard) : fget f { d with side := x } = fget f d := rfl

/-- A run that ends changes the sideboard and the counter of lost events alone. -/
theorem recEndRun_fget (d : Dev) (f : Fld) (h : f.reg ≠ R.REC_LOST) : fget f (recEndRun d) = fget f d := by
  cases hr : d.side.run with
  | none => simp only [recEndRun, hr]
  | some r =>
    simp only [recEndRun, hr]
    split_ifs
    · exact fget_side f d _
    · exact fget_side f d _
    · rw [recLose_fget _ _ f h]; exact fget_side f d _

/-- An accepted event changes the sideboard and the counter of lost events alone. -/
theorem recAccept_fget (e : RecEvent) (d : Dev) (f : Fld) (h : f.reg ≠ R.REC_LOST) : fget f (recAccept e d) = fget f d := by
  unfold recAccept
  split_ifs with h1
  · cases hr : d.side.run with
    | none => rfl
    | some r =>
      dsimp only
      split_ifs
      · rw [recEndRun_fget _ f h]; exact fget_side f d _
      · exact fget_side f d _
  · dsimp only
    split_ifs
    · exact recLose_fget _ _ f h
    · rw [fget_side]; exact recEndRun_fget d f h

/-- The field stands in a register that the event does not touch. -/
def EventLeaves (code p1 : Nat) (f : Fld) : Prop :=
  f.reg ≠ R.REC_LOST ∧ ∀ e, eventFlag code p1 = some e → e.1 ≠ f.reg

/-- A recorded event leaves every field but its status bit and the counter of lost events. -/
theorem record_fget (code p1 p2 p3 : Nat) (d : Dev) (f : Fld) (h : EventLeaves code p1 f) :
    fget f (record code p1 p2 p3 d) = fget f d := by
  unfold record
  rw [recAccept_fget _ _ _ h.1]
  unfold raiseFlag
  split
  · rename_i r i heq
    exact fget_fset_ne _ _ (h.2 _ heq)
  · rfl

theorem recordC_fget (code p1 p2 : Nat) (d : Dev) (f : Fld) (h : EventLeaves code p1 f) :
    fget f (recordC code p1 p2 d) = fget f d := record_fget _ _ _ _ _ _ h

/-- What depends on neither the registers nor the sideboard is untouched by an event. -/
theorem record_keeps {β : Type} (p : Dev → β) (hs : ∀ (d : Dev) (x : Sideboard), p { d with side := x } = p d)
    (hr : ∀ (f : Fld) (v : Nat) (d : Dev), p (fset f v d) = p d) (code p1 p2 p3 : Nat) (d : Dev) :
    p (record code p1 p2 p3 d) = p d := by
  have lose : ∀ c d, p (recLose c d) = p d := fun c d => by unfold recLose; exact (hs _ _).trans (hr _ _ _)
  have ends : ∀ d, p (recEndRun d) = p d := fun d => by
    unfold recEndRun; split
    · rfl
    · dsimp only; split_ifs
      · exact hs _ _
      · exact hs _ _
      · exact (lose _ _).trans (hs _ _)
  have flags : p (raiseFlag code p1 d) = p d := by
    unfold raiseFlag; split
    · exact hr _ _ _
    · rfl
  unfold record recAccept
  split_ifs
  · split
    · exact flags
    · dsimp only; split_ifs
      · exact (ends _).trans ((hs _ _).trans flags)
      · exact (hs _ _).trans flags
  · dsimp only; split_ifs
    · exact (lose _ _).trans flags
    · exact (hs _ _).trans ((ends _).trans flags)

@[simp] theorem recordC_pwr (code p1 p2 : Nat) (d : Dev) : (recordC code p1 p2 d).pwr = d.pwr :=
  record_keeps (·.pwr) (fun _ _ => rfl) (fun _ _ _ => rfl) _ _ _ _ _

@[simp] theorem recordC_aix (code p1 p2 : Nat) (d : Dev) : (recordC code p1 p2 d).aix = d.aix :=
  record_keeps (·.aix) (fun _ _ => rfl) (fun _ _ _ => rfl) _ _ _ _ _

@[simp] theorem recordC_nsm (code p1 p2 : Nat) (d : Dev) : (recordC code p1 p2 d).nsm = d.nsm :=
  record_keeps (·.nsm) (fun _ _ => rfl) (fun _ _ _ => rfl) _ _ _ _ _

@[simp] theorem recordC_out (code p1 p2 : Nat) (d : Dev) : (recordC code p1 p2 d).out = d.out :=
  record_keeps (·.out) (fun _ _ => rfl) (fun _ _ _ => rfl) _ _ _ _ _

/-! ### One operation for each element -/

/-- What no single operation changes, a list of them does not change. -/
theorem each_keeps {α β : Type} (p : Dev → β) (f : α → Dev → Dev) (h : ∀ a d, p (f a d) = p d) (l : List α) (d : Dev) :
    p (each l f d) = p d := by
  induction l generalizing d with
  | nil => rfl
  | cons a l ih =>
    show p (each l f (f a d)) = p d
    rw [ih]; exact h a d

@[simp] theorem each_nil {α : Type} (f : α → Dev → Dev) (d : Dev) : each [] f d = d := rfl

@[simp] theorem each_cons {α : Type} (a : α) (l : List α) (f : α → Dev → Dev) (d : Dev) :
    each (a :: l) f d = each l f (f a d) := rfl

/-- The count of fabric cycles changes the harts' counters alone. -/
theorem countCycles_keeps {β : Type} (p : Dev → β) (h : ∀ (d : Dev) (t : Tab Trestle), p { d with trestles := t } = p d)
    (k : Nat) (d : Dev) : p (countCycles k d) = p d := each_keeps p _ (fun _ _ => h _ _) _ _

/-! ### The wrappers of the meanings -/

@[simp] theorem onDev_next (f : Dev → Dev) (s : State) : onDev f s = .next { s with dev := f s.dev } := rfl

theorem onBlk_whole (i : Nat) (f : Dev → Dev) (s : State) (h : cut i s.dev = false) :
    onBlk i f s = .next { s with dev := f s.dev } := by simp [onBlk, h]

theorem onBlk_cut (i : Nat) (f : Dev → Dev) (s : State) (h : cut i s.dev = true) : onBlk i f s = .next s := by simp [onBlk, h]

theorem onBlkBoth_whole (i : Nat) (f : List Host.Cell → Dev → List Host.Cell × Dev) (s : State) (h : cut i s.dev = false) :
    onBlkBoth i f s = .next { s with mem := (f s.mem s.dev).1, dev := (f s.mem s.dev).2 } := by simp [onBlkBoth, h]

theorem onAng_runs (f : Dev → Dev) (s : State) (h : clocksRun s.dev = true) : onAng f s = .next { s with dev := f s.dev } := by
  simp [onAng, onDev, h]

end Sys2Proof.Machine
end

