-- ==== Sys2Proof/Laws/Aidex.lean ====
section
/-!
SUPPORT. Laws/Aidex.lean: what the arrival of a request comes to where its session, and then the idle engine, takes it.
-/

namespace Sys2Proof.Machine

/-- The use of a session leaves the engine and TL0 as they were. -/
theorem aixHeard_engineUp (r : AixReq) (k : Nat) (x : AixSession) (d : Dev) :
    engineUp (aixHeard r k x d) = engineUp (portCounted r d) := by
  have e : tlState 0 (aixHeard r k x d) = tlState 0 (portCounted r d) := by
    unfold tlState aixHeard sessPut
    exact fget_fset_ne _ _ (by decide)
  simp only [engineUp, tl0Runs, ← tlState.eq_1 0, e]; rfl

/-- A packet that its port takes is accepted. -/
theorem arrive_accept (r : AixReq) (m : List Host.Cell) (d : Dev) (h : PortTakes r d) :
    aixArrive r m d = aixAccept r m (portCounted r d) := by
  obtain ⟨h1, h2, h3, h4, h5, -⟩ := h
  have hv : r.via ≠ 2 := by omega
  simp only [portCounted] at h3 h5
  simp only [aixArrive, aixSource, portCounted, hv, h2, h3, h4, h5, if_false, Bool.not_true, Bool.false_eq_true, if_true]

/-- Its way, in its session. -/
theorem arrive_way (r : AixReq) (k : Nat) (x : AixSession) (m : List Host.Cell) (d : Dev) (h : SessionTakes r k x d) :
    aixTake r true m (portCounted r d) =
      (let w := aixWay (inSession r k x) true m (aixHeard r k x d)
       (if w.1 then some (inSession r k x) else none, w.2.1, w.2.2)) := by
  obtain ⟨-, h1, h2, h3, h4, -⟩ := h
  simp only [aixTake, if_neg h1, h2, h3, Option.bind_some, Option.map_some, if_neg (not_not_intro h4)]
  rfl

/-- A fast opcode is done at once, and the engine goes on. -/
theorem arrive_fast (r : AixReq) (k : Nat) (x : AixSession) (m : List Host.Cell) (d : Dev) (h : SessionTakes r k x d)
    (hf : opFast r.opcode = true) :
    aixArrive r m d = (let o := aixFast (inSession r k x) m (aixHeard r k x d); aixGo o.1 o.2) := by
  have hw := arrive_way r k x m d h
  obtain ⟨hp, h1, h2, h3, h4, h5, h6, h7, h8⟩ := h
  have ht : opTenant (inSession r k x).opcode = false := by
    have : r.opcode ≤ 5 := by simp only [opFast, decide_eq_true_eq] at hf; omega
    have e : (inSession r k x).opcode = r.opcode := rfl
    simp only [opTenant, e]; exact decide_eq_false (by omega)
  have hway : aixWay (inSession r k x) true m (aixHeard r k x d)
      = (false, (aixFast (inSession r k x) m (aixHeard r k x d)).1, (aixFast (inSession r k x) m (aixHeard r k x d)).2) := by
    have e : (inSession r k x).opcode = r.opcode := rfl
    have hc : (if opRd r.opcode = true then none else cached (inSession r k x) (aixHeard r k x d)) = none := by
      rcases h5 with h5 | h5
      · rw [if_pos h5]
      · rw [h5]; split <;> rfl
    simp only [aixWay, e, hc, h6, h7, h8, hf, Bool.false_eq_true, if_false, if_true]
    rw [e] at ht; simp only [ht, Bool.false_eq_true, if_false]
  rw [arrive_accept r m d hp]
  simp only [aixAccept, hp.2.2.2.2.2, hw, hway, Bool.not_true, Bool.false_eq_true, if_false]

/-- The idle engine starts the one request of its queue and goes on. -/
theorem aixPump_start (n : Nat) (m : List Host.Cell) (y : Dev) (z : AixReq) (hu : engineUp y = true)
    (hc : y.aix.cur = none) (hq : y.aix.queue = [z]) (hr : z.raw = false) (hv : z.via ≠ 2) :
    aixPump (n + 1) m y =
      (let o := aixStart z m (aixPut { y.aix with queue := [] } y); aixPump n o.1 o.2) := by
  have hx : aixNext y = some z := by simp [aixNext, hq, hr, hc]
  simp only [aixPump, hx, hu, hq, hr, hv, List.erase_cons_head, Bool.not_true, Bool.false_eq_true, if_false, false_and]

/-- A request for the idle engine is started, and the engine goes on. -/
theorem arrive_engine (r : AixReq) (k : Nat) (x : AixSession) (m : List Host.Cell) (d : Dev) (h : EngineTakes r k x d) :
    aixArrive r m d = (let o := aixStart (inSession r k x) m (aixHeard r k x d); aixPump 1 o.1 o.2) := by
  obtain ⟨h, ht, hf, hr, hc, hq, hd, hl, -⟩ := h
  have hw := arrive_way r k x m d h
  obtain ⟨hp, h1, h2, h3, h4, h5, h6, h7, h8⟩ := h
  have e : (inSession r k x).opcode = r.opcode := rfl
  have e2 : (inSession r k x).drawer = r.drawer := rfl
  have hway : aixWay (inSession r k x) true m (aixHeard r k x d) = (true, m, aixHeard r k x d) := by
    have hn : (if opRd r.opcode = true then none else cached (inSession r k x) (aixHeard r k x d)) = none := by
      rcases h5 with h5 | h5
      · rw [if_pos h5]
      · rw [h5]; split <;> rfl
    simp only [aixWay, e, e2, hn, h6, h7, h8, hf, ht, hd, hl, Bool.false_eq_true, if_false, Bool.or_false, Bool.and_false]
  have hq' : (aixHeard r k x d).aix.queue = [] := hq
  have hc' : (aixHeard r k x d).aix.cur = none := hc
  have hu : engineUp (aixHeard r k x d) = true := by rw [aixHeard_engineUp]; exact hp.2.2.2.2.2
  have hv : r.via ≠ 2 := by have := hp.1; omega
  have hr' : (inSession r k x).raw = false := hr
  have hv' : ¬ ((inSession r k x).via = 2) := hv
  rw [arrive_accept r m d hp]
  simp only [aixAccept, hp.2.2.2.2.2, hw, hway, Bool.not_true, Bool.false_eq_true, if_false, if_true, hq', List.nil_append]
  generalize hy : aixHeard r k x d = y at *
  generalize hz : inSession r k x = z at *
  have hu2 : engineUp (aixPut { y.aix with queue := [z] } y) = true := hu
  have back : aixPut { (aixPut { y.aix with queue := [z] } y).aix with queue := [] } (aixPut { y.aix with queue := [z] } y) = y := by
    have : ({ y.aix with queue := [] } : Aix) = y.aix := by rw [← hq']
    simp only [aixPut, this]
  show aixPump 2 m (aixPut { y.aix with queue := [z] } y) = _
  rw [aixPump_start 1 m _ z hu2 hc' rfl hr' hv', back]

/-- The start of a request whose checks pass, by its kind. -/
theorem start_checked (r : AixReq) (k : Nat) (x : AixSession) (m : List Host.Cell) (d : Dev) (h : EngineTakes r k x d) :
    aixStart (inSession r k x) m (aixHeard r k x d) =
      (if r.opcode = 0x0503 then
        match activateCheck (field r.payload 0 1 == 1) r.ver (engineBegun r k x d) with
        | (some st, d) => (m, aixReady st [] d)
        | (none, d) =>
          let d := activateStart (field r.payload 0 1 == 1) d
          if d.upd.asked then (m, d) else abArrive (inSession r k x) m d
      else if opAb r.opcode then abArrive (inSession r k x) m (engineBegun r k x d)
      else aixOut (opRun (inSession r k x) m (engineBegun r k x d))) := by
  have hw : workCheck (inSession r k x) (aixBegin (inSession r k x) (aixHeard r k x d)) = none := h.2.2.2.2.2.2.2.2
  simp only [aixBegin] at hw
  simp only [aixStart, hw]
  rfl

/-- A request that is not abortable runs at once. -/
theorem arrive_run (r : AixReq) (k : Nat) (x : AixSession) (m : List Host.Cell) (d : Dev) (h : EngineTakes r k x d)
    (ha : opAb r.opcode = false) :
    aixArrive r m d = (let o := aixOut (opRun (inSession r k x) m (engineBegun r k x d)); aixPump 1 o.1 o.2) := by
  have hn : r.opcode ≠ 0x0503 := fun e => by rw [e] at ha; revert ha; decide
  rw [arrive_engine r k x m d h, start_checked r k x m d h, if_neg hn, ha]; rfl

/-- An abortable request other than UPDATE_ACTIVATE comes to the point before its commit. -/
theorem arrive_abortable (r : AixReq) (k : Nat) (x : AixSession) (m : List Host.Cell) (d : Dev) (h : EngineTakes r k x d)
    (ha : opAb r.opcode = true) (hn : r.opcode ≠ 0x0503) :
    aixArrive r m d = (let o := abArrive (inSession r k x) m (engineBegun r k x d); aixPump 1 o.1 o.2) := by
  rw [arrive_engine r k x m d h, start_checked r k x m d h, if_neg hn, ha]; rfl

/-- The commit of an abortable request that is decided and answered with `st`. -/
theorem abArrive_commits (q : AixReq) (m m' : List Host.Cell) (d d' : Dev) (st : Nat) (frags : List (List Byte))
    (hh : q.hold = false) (hc : d.aix.cur = some q) (hr : d.aix.ready = none)
    (ho : abRun q m d = (some (st, frags), m', d')) :
    abArrive q m d = (if st = stOk then abEffect q m' (aixDone st frags d') else (m', aixDone st frags d')) := by
  simp only [abArrive, hh, aixCommit, hc, hr, ho, Bool.false_eq_true, if_false]

end Sys2Proof.Machine
end

