-- ==== Sys2Proof/Laws/Dispatch.lean ====
section
/-!
SUPPORT. Laws/Dispatch.lean: exec on each command is its meaning, one lemma a command, so that no proof unfolds exec itself.
-/

namespace Sys2Proof.Machine

@[simp] theorem exec_registerWrite (t : Fin 5) (attr : Byte) (reg : BitVec 21) (w : Word) (s : State) : exec (.registerWrite t attr reg w) s = execRegisterWrite t attr reg w s := rfl
@[simp] theorem exec_executeInstruction (t : Fin 5) (r : Retired) (chk : RunCheck) (s : State) : exec (.executeInstruction t r chk) s = execExecuteInstruction t r chk s := rfl
@[simp] theorem exec_interruptTaken (t : Fin 5) (cause : BitVec 6) (s : State) : exec (.interruptTaken t cause) s = execInterruptTaken t cause s := rfl
@[simp] theorem exec_load (t : Fin 5) (l : LoadOp) (chk : MemCheck) (s : State) : exec (.load t l chk) s = execLoad t l chk s := rfl
@[simp] theorem exec_loadDataReturn (t : Fin 5) (parity : Bool) (s : State) : exec (.loadDataReturn t parity) s = execLoadDataReturn t parity s := rfl
@[simp] theorem exec_storeDrain (t : Fin 5) (chk : MemCheck) (parity : Bool) (s : State) : exec (.storeDrain t chk parity) s = execStoreDrain t chk parity s := rfl
@[simp] theorem exec_comparatorMismatch (t : Fin 5) (group : BitVec 4) (bit : BitVec 7) (halves : Bool) (s : State) : exec (.comparatorMismatch t group bit halves) s = execComparatorMismatch t group bit halves s := rfl
@[simp] theorem exec_rollbackRestart (t : Fin 5) (parity : Bool) (s : State) : exec (.rollbackRestart t parity) s = execRollbackRestart t parity s := rfl
@[simp] theorem exec_divergenceInterval (s : State) : exec .divergenceInterval s = execDivergenceInterval s := rfl
@[simp] theorem exec_dinChange (t : Fin 5) (k : Fin 16) (level split : Bool) (s : State) : exec (.dinChange t k level split) s = execDinChange t k level split s := rfl
@[simp] theorem exec_tlCtrlRestart (t : Fin 5) (s : State) : exec (.tlCtrlRestart t) s = execTlCtrlRestart t s := rfl
@[simp] theorem exec_tlCtrlStop (t : Fin 5) (s : State) : exec (.tlCtrlStop t) s = execTlCtrlStop t s := rfl
@[simp] theorem exec_tlCtrlTest (t : Fin 5) (s : State) : exec (.tlCtrlTest t) s = execTlCtrlTest t s := rfl
@[simp] theorem exec_tlCtrlClrCnt (t : Fin 5) (s : State) : exec (.tlCtrlClrCnt t) s = execTlCtrlClrCnt t s := rfl
@[simp] theorem exec_comparatorTestDone (t : Fin 5) (r : TestResult) (s : State) : exec (.comparatorTestDone t r) s = execComparatorTestDone t r s := rfl
@[simp] theorem exec_tl0StoppedReset (s : State) : exec .tl0StoppedReset s = execTl0StoppedReset s := rfl
@[simp] theorem exec_wgate (t : Fin 5) (rs1 : DWord) (s : State) : exec (.wgate t rs1) s = execWgate t rs1 s := rfl
@[simp] theorem exec_wret (t : Fin 5) (s : State) : exec (.wret t) s = execWret t s := rfl
@[simp] theorem exec_wentry (t : Fin 5) (s : State) : exec (.wentry t) s = execWentry t s := rfl
@[simp] theorem exec_wtenantWrite (t : Fin 5) (tid : BitVec 3) (s : State) : exec (.wtenantWrite t tid) s = execWtenantWrite t tid s := rfl
@[simp] theorem exec_tenantReset (t : Fin 5) (k : Fin 8) (s : State) : exec (.tenantReset t k) s = execTenantReset t k s := rfl
@[simp] theorem exec_tenantRelease (k : Fin 8) (s : State) : exec (.tenantRelease k) s = execTenantRelease k s := rfl
@[simp] theorem exec_wldSecblkWrite (w : Word) (s : State) : exec (.wldSecblkWrite w) s = execWldSecblkWrite w s := rfl
@[simp] theorem exec_cabRead (t : Fin 5) (w : BitVec 20) (busy : Bool) (s : State) : exec (.cabRead t w busy) s = execCabRead t w busy s := rfl
@[simp] theorem exec_cabWrite (t : Fin 5) (w : BitVec 20) (busy : Bool) (s : State) : exec (.cabWrite t w busy) s = execCabWrite t w busy s := rfl
@[simp] theorem exec_cabLock (t : Fin 5) (w : BitVec 20) (busy : Bool) (s : State) : exec (.cabLock t w busy) s = execCabLock t w busy s := rfl
@[simp] theorem exec_cabClear (t : Fin 5) (w : BitVec 20) (busy : Bool) (s : State) : exec (.cabClear t w busy) s = execCabClear t w busy s := rfl
@[simp] theorem exec_cabDerive (t : Fin 5) (w : BitVec 20) (busy : Bool) (s : State) : exec (.cabDerive t w busy) s = execCabDerive t w busy s := rfl
@[simp] theorem exec_cabUndefinedOp (t : Fin 5) (op : Fin 10) (w : BitVec 20) (busy : Bool) (s : State) : exec (.cabUndefinedOp t op w busy) s = execCabUndefinedOp t op w busy s := rfl
@[simp] theorem exec_dbgRtWrite (rt : BitVec 4) (s : State) : exec (.dbgRtWrite rt) s = execDbgRtWrite rt s := rfl
@[simp] theorem exec_dbgProg (raise : BitVec 4) (key : Byte) (s : State) : exec (.dbgProg raise key) s = execDbgProg raise key s := rfl
@[simp] theorem exec_otpProgrammed (ok : Bool) (s : State) : exec (.otpProgrammed ok) s = execOtpProgrammed ok s := rfl
@[simp] theorem exec_haltRequest (t : Fin 5) (s : State) : exec (.haltRequest t) s = execHaltRequest t s := rfl
@[simp] theorem exec_resumeRequest (t : Fin 5) (step : Bool) (s : State) : exec (.resumeRequest t step) s = execResumeRequest t step s := rfl
@[simp] theorem exec_abstractCommand (t : Fin 5) (r : DebugReg) (v : Option DWord) (s : State) : exec (.abstractCommand t r v) s = execAbstractCommand t r v s := rfl
@[simp] theorem exec_systemBusAccess (write : Bool) (a : BitVec 40) (size : Fin 65) (data : DWord) (chk : MemCheck) (s : State) : exec (.systemBusAccess write a size data chk) s = execSystemBusAccess write a size data chk s := rfl
@[simp] theorem exec_boundaryScanInstruction (x : TapInstr) (s : State) : exec (.boundaryScanInstruction x) s = execBoundaryScanInstruction x s := rfl
@[simp] theorem exec_roleExchange (r : RoleReport) (s : State) : exec (.roleExchange r) s = execRoleExchange r s := rfl
@[simp] theorem exec_roleGrantAck (s : State) : exec .roleGrantAck s = execRoleGrantAck s := rfl
@[simp] theorem exec_aloneWaitTimeout (s : State) : exec .aloneWaitTimeout s = execAloneWaitTimeout s := rfl
@[simp] theorem exec_partnerLost (cause : Fin 3) (s : State) : exec (.partnerLost cause) s = execPartnerLost cause s := rfl
@[simp] theorem exec_digestMessage (msg : DigestMsg) (s : State) : exec (.digestMessage msg) s = execDigestMessage msg s := rfl
@[simp] theorem exec_digestLate (s : State) : exec .digestLate s = execDigestLate s := rfl
@[simp] theorem exec_stepReq (n : Fin 48) (r : Role) (on : Bool) (cycle : Word) (s : State) : exec (.stepReq n r on cycle) s = execStepReq n r on cycle s := rfl
@[simp] theorem exec_stepConf (n : Fin 48) (r : Role) (cycle : Word) (s : State) : exec (.stepConf n r cycle) s = execStepConf n r cycle s := rfl
@[simp] theorem exec_stepRefuse (n : Fin 48) (s : State) : exec (.stepRefuse n) s = execStepRefuse n s := rfl
@[simp] theorem exec_stepGo (n : Fin 48) (r : Role) (cycle : Word) (s : State) : exec (.stepGo n r cycle) s = execStepGo n r cycle s := rfl
@[simp] theorem exec_closeAbandoned (s : State) : exec .closeAbandoned s = execCloseAbandoned s := rfl
@[simp] theorem exec_partnerTripNotice (zone : Bool) (n : Fin 48) (s : State) : exec (.partnerTripNotice zone n) s = execPartnerTripNotice zone n s := rfl
@[simp] theorem exec_closeEndNotice (n : Fin 48) (s : State) : exec (.closeEndNotice n) s = execCloseEndNotice n s := rfl
@[simp] theorem exec_activationRequest (same : Bool) (s : State) : exec (.activationRequest same) s = execActivationRequest same s := rfl
@[simp] theorem exec_alignRequest (ps : List (Fin 16 × Fin 48)) (s : State) : exec (.alignRequest ps) s = execAlignRequest ps s := rfl
@[simp] theorem exec_alignTransfer (f : Word) (bs : List PosBlocks) (good : Bool) (s : State) : exec (.alignTransfer f bs good) s = execAlignTransfer f bs good s := rfl
@[simp] theorem exec_peerAngleMessage (ts : BitVec 48) (usable : Bool) (s : State) : exec (.peerAngleMessage ts usable) s = execPeerAngleMessage ts usable s := rfl
@[simp] theorem exec_angleMessageSend (s : State) : exec .angleMessageSend s = execAngleMessageSend s := rfl
@[simp] theorem exec_cycleBoundary (m : LineMeas) (t : PtpTime) (s : State) : exec (.cycleBoundary m t) s = execCycleBoundary m t s := rfl
@[simp] theorem exec_bandClassify (m : Amplitudes) (s : State) : exec (.bandClassify m) s = execBandClassify m s := rfl
@[simp] theorem exec_coastMaxExpiry (s : State) : exec .coastMaxExpiry s = execCoastMaxExpiry s := rfl
@[simp] theorem exec_slewComplete (s : State) : exec .slewComplete s = execSlewComplete s := rfl
@[simp] theorem exec_timestampHoldEnd (s : State) : exec .timestampHoldEnd s = execTimestampHoldEnd s := rfl
@[simp] theorem exec_ptpSync (port : Fin 2) (offset : Int) (t : PtpTime) (s : State) : exec (.ptpSync port offset t) s = execPtpSync port offset t s := rfl
@[simp] theorem exec_ptpSyncMissing (s : State) : exec .ptpSyncMissing s = execPtpSyncMissing s := rfl
@[simp] theorem exec_peerAngleMissing (s : State) : exec .peerAngleMissing s = execPeerAngleMissing s := rfl
@[simp] theorem exec_angPtpCommit (s : State) : exec .angPtpCommit s = execAngPtpCommit s := rfl
@[simp] theorem exec_forceHold (on : Bool) (s : State) : exec (.forceHold on) s = execForceHold on s := rfl
@[simp] theorem exec_holdWarn (s : State) : exec .holdWarn s = execHoldWarn s := rfl
@[simp] theorem exec_angleUnqualified (s : State) : exec .angleUnqualified s = execAngleUnqualified s := rfl
@[simp] theorem exec_angNowLoRead (t : Fin 5) (s : State) : exec (.angNowLoRead t) s = execAngNowLoRead t s := rfl
@[simp] theorem exec_slotCtrlWrite (n : Fin 32) (reg : Fin 4) (v : Word) (s : State) : exec (.slotCtrlWrite n reg v) s = execSlotCtrlWrite n reg v s := rfl
@[simp] theorem exec_slotFire (n : Fin 32) (s : State) : exec (.slotFire n) s = execSlotFire n s := rfl
@[simp] theorem exec_receiverLock (n : Fin 16) (r : Relock) (s : State) : exec (.receiverLock n r) s = execReceiverLock n r s := rfl
@[simp] theorem exec_receiverLockLoss (n : Fin 16) (p : Port) (s : State) : exec (.receiverLockLoss n p) s = execReceiverLockLoss n p s := rfl
@[simp] theorem exec_frameTruncated (n : Fin 16) (p : Port) (t : TruncInfo) (s : State) : exec (.frameTruncated n p t) s = execFrameTruncated n p t s := rfl
@[simp] theorem exec_dataBurst (n : Fin 16) (port : Port) (bs : List Byte) (parity : Bool) (s : State) : exec (.dataBurst n port bs parity) s = execDataBurst n port bs parity s := rfl
@[simp] theorem exec_dataRetx (n : Fin 16) (port : Port) (bs : List Byte) (s : State) : exec (.dataRetx n port bs) s = execDataRetx n port bs s := rfl
@[simp] theorem exec_retxSend (n : Fin 16) (s : State) : exec (.retxSend n) s = execRetxSend n s := rfl
@[simp] theorem exec_retxTimeout (n : Fin 16) (s : State) : exec (.retxTimeout n) s = execRetxTimeout n s := rfl
@[simp] theorem exec_alert (n : Fin 16) (port : Port) (p c a : Byte) (s : State) : exec (.alert n port p c a) s = execAlert n port p c a s := rfl
@[simp] theorem exec_kzcAlertFifoRead (t : Fin 5) (s : State) : exec (.kzcAlertFifoRead t) s = execKzcAlertFifoRead t s := rfl
@[simp] theorem exec_syncReceived (n : Fin 16) (port : Port) (b : SyncBody) (travel : Nat) (s : State) : exec (.syncReceived n port b travel) s = execSyncReceived n port b travel s := rfl
@[simp] theorem exec_mastershipTakeover (n : Fin 16) (s : State) : exec (.mastershipTakeover n) s = execMastershipTakeover n s := rfl
@[simp] theorem exec_chainFailed (n : Fin 16) (s : State) : exec (.chainFailed n) s = execChainFailed n s := rfl
@[simp] theorem exec_chainHeal (n : Fin 16) (s : State) : exec (.chainHeal n) s = execChainHeal n s := rfl
@[simp] theorem exec_enum (n : Fin 16) (s : State) : exec (.enum n) s = execEnum n s := rfl
@[simp] theorem exec_enumSend (n : Fin 16) (s : State) : exec (.enumSend n) s = execEnumSend n s := rfl
@[simp] theorem exec_enumReturnTimeout (n : Fin 16) (s : State) : exec (.enumReturnTimeout n) s = execEnumReturnTimeout n s := rfl
@[simp] theorem exec_enumResp (n : Fin 16) (r : EnumResp) (s : State) : exec (.enumResp n r) s = execEnumResp n r s := rfl
@[simp] theorem exec_enumReceived (n : Fin 16) (e : EnumSeen) (s : State) : exec (.enumReceived n e) s = execEnumReceived n e s := rfl
@[simp] theorem exec_enumCommit (n : Fin 16) (s : State) : exec (.enumCommit n) s = execEnumCommit n s := rfl
@[simp] theorem exec_fill (n : Fin 16) (s : State) : exec (.fill n) s = execFill n s := rfl
@[simp] theorem exec_reenumDue (n : Fin 16) (s : State) : exec (.reenumDue n) s = execReenumDue n s := rfl
@[simp] theorem exec_fillInEnum (n : Fin 16) (s : State) : exec (.fillInEnum n) s = execFillInEnum n s := rfl
@[simp] theorem exec_chClrCnt (n : Fin 16) (s : State) : exec (.chClrCnt n) s = execChClrCnt n s := rfl
@[simp] theorem exec_regResp (n : Fin 16) (pos seq result : Byte) (data : BitVec 16) (s : State) : exec (.regResp n pos seq result data) s = execRegResp n pos seq result data s := rfl
@[simp] theorem exec_svcTimeout (n : Fin 16) (s : State) : exec (.svcTimeout n) s = execSvcTimeout n s := rfl
@[simp] theorem exec_kzbTransactionStart (n : Fin 16) (s : State) : exec (.kzbTransactionStart n) s = execKzbTransactionStart n s := rfl
@[simp] theorem exec_kzbBusyRetry (n : Fin 16) (s : State) : exec (.kzbBusyRetry n) s = execKzbBusyRetry n s := rfl
@[simp] theorem exec_retryExpired (j : Nat) (s : State) : exec (.retryExpired j) s = execRetryExpired j s := rfl
@[simp] theorem exec_frameClose (s : State) : exec .frameClose s = execFrameClose s := rfl
@[simp] theorem exec_estimateWorkStart (s : State) : exec .estimateWorkStart s = execEstimateWorkStart s := rfl
@[simp] theorem exec_cellUpdate (l : Fin 8) (r : LaneResult) (s : State) : exec (.cellUpdate l r) s = execCellUpdate l r s := rfl
@[simp] theorem exec_paramReloaded (k : Fin 8) (s : State) : exec (.paramReloaded k) s = execParamReloaded k s := rfl
@[simp] theorem exec_ucodeReloaded (version : BitVec 16) (s : State) : exec (.ucodeReloaded version) s = execUcodeReloaded version s := rfl
@[simp] theorem exec_estimateCutoff (s : State) : exec .estimateCutoff s = execEstimateCutoff s := rfl
@[simp] theorem exec_estimateWorkEnd (s : State) : exec .estimateWorkEnd s = execEstimateWorkEnd s := rfl
@[simp] theorem exec_publishCommit (s : State) : exec .publishCommit s = execPublishCommit s := rfl
@[simp] theorem exec_estCellInit (cell : BitVec 15) (all atFrame : Bool) (s : State) : exec (.estCellInit cell all atFrame) s = execEstCellInit cell all atFrame s := rfl
@[simp] theorem exec_estCtrlEn (on : Bool) (s : State) : exec (.estCtrlEn on) s = execEstCtrlEn on s := rfl
@[simp] theorem exec_estClrCnt (s : State) : exec .estClrCnt s = execEstClrCnt s := rfl
@[simp] theorem exec_laneRestore (mask : Byte) (s : State) : exec (.laneRestore mask) s = execLaneRestore mask s := rfl
@[simp] theorem exec_laneRestored (l : Fin 8) (pass : Bool) (s : State) : exec (.laneRestored l pass) s = execLaneRestored l pass s := rfl
@[simp] theorem exec_switchInputEdge (j : Fin 48) (level : Bool) (s : State) : exec (.switchInputEdge j level) s = execSwitchInputEdge j level s := rfl
@[simp] theorem exec_analogSample (k : Fin 8) (value : BitVec 16) (s : State) : exec (.analogSample k value) s = execAnalogSample k value s := rfl
@[simp] theorem exec_safeNFall (s : State) : exec .safeNFall s = execSafeNFall s := rfl
@[simp] theorem exec_safeExit (s : State) : exec .safeExit s = execSafeExit s := rfl
@[simp] theorem exec_protCmdArm (s : State) : exec .protCmdArm s = execProtCmdArm s := rfl
@[simp] theorem exec_protCmdDisarm (s : State) : exec .protCmdDisarm s = execProtCmdDisarm s := rfl
@[simp] theorem exec_zclr (s : State) : exec .zclr s = execZclr s := rfl
@[simp] theorem exec_protCmdReconf (s : State) : exec .protCmdReconf s = execProtCmdReconf s := rfl
@[simp] theorem exec_protStrCmdClose (n : Fin 48) (s : State) : exec (.protStrCmdClose n) s = execProtStrCmdClose n s := rfl
@[simp] theorem exec_protStrCmdOpen (n : Fin 48) (s : State) : exec (.protStrCmdOpen n) s = execProtStrCmdOpen n s := rfl
@[simp] theorem exec_protStrCmdClr (n : Fin 48) (s : State) : exec (.protStrCmdClr n) s = execProtStrCmdClr n s := rfl
@[simp] theorem exec_protKick (key : BitVec 8) (s : State) : exec (.protKick key) s = execProtKick key s := rfl
@[simp] theorem exec_kickMissed (s : State) : exec .kickMissed s = execKickMissed s := rfl
@[simp] theorem exec_engineHoldExpiry (s : State) : exec .engineHoldExpiry s = execEngineHoldExpiry s := rfl
@[simp] theorem exec_contactorFbFault (n : Fin 48) (r : Role) (s : State) : exec (.contactorFbFault n r) s = execContactorFbFault n r s := rfl
@[simp] theorem exec_lsoFault (k : Fin 16) (s : State) : exec (.lsoFault k) s = execLsoFault k s := rfl
@[simp] theorem exec_lsoOpenLoad (k : Fin 16) (s : State) : exec (.lsoOpenLoad k) s = execLsoOpenLoad k s := rfl
@[simp] theorem exec_chCmdOn (ch : Fin 32) (on : Bool) (s : State) : exec (.chCmdOn ch on) s = execChCmdOn ch on s := rfl
@[simp] theorem exec_chCmdClr (ch : Fin 32) (s : State) : exec (.chCmdClr ch) s = execChCmdClr ch s := rfl
@[simp] theorem exec_chPwmDuty (ch : Fin 32) (duty : BitVec 11) (s : State) : exec (.chPwmDuty ch duty) s = execChPwmDuty ch duty s := rfl
@[simp] theorem exec_pwmPeriodStart (ch : Fin 32) (vf : Nat) (s : State) : exec (.pwmPeriodStart ch vf) s = execPwmPeriodStart ch vf s := rfl
@[simp] theorem exec_pullInEnd (ch : Fin 32) (s : State) : exec (.pullInEnd ch) s = execPullInEnd ch s := rfl
@[simp] theorem exec_slewRampEnd (ch : Fin 32) (s : State) : exec (.slewRampEnd ch) s = execSlewRampEnd ch s := rfl
@[simp] theorem exec_inrushWindowEnd (ch : Fin 32) (low : Bool) (s : State) : exec (.inrushWindowEnd ch low) s = execInrushWindowEnd ch low s := rfl
@[simp] theorem exec_currentLimit (ch : Fin 32) (s : State) : exec (.currentLimit ch) s = execCurrentLimit ch s := rfl
@[simp] theorem exec_chShort (ch : Fin 32) (s : State) : exec (.chShort ch) s = execChShort ch s := rfl
@[simp] theorem exec_chOvertemp (ch : Fin 32) (byDt : Bool) (tj dt : BitVec 12) (s : State) : exec (.chOvertemp ch byDt tj dt) s = execChOvertemp ch byDt tj dt s := rfl
@[simp] theorem exec_channelRetry (ch : Fin 32) (s : State) : exec (.channelRetry ch) s = execChannelRetry ch s := rfl
@[simp] theorem exec_restartCountClear (ch : Fin 32) (s : State) : exec (.restartCountClear ch) s = execRestartCountClear ch s := rfl
@[simp] theorem exec_chOpenLoad (ch : Fin 32) (s : State) : exec (.chOpenLoad ch) s = execChOpenLoad ch s := rfl
@[simp] theorem exec_offStateTest (ch : Fin 32) (hiOff hiOn : Bool) (s : State) : exec (.offStateTest ch hiOff hiOn) s = execOffStateTest ch hiOff hiOn s := rfl
@[simp] theorem exec_lossEstimate (vaux : Nat) (ms : List ChanMeas) (s : State) : exec (.lossEstimate vaux ms) s = execLossEstimate vaux ms s := rfl
@[simp] theorem exec_lossBudget (s : State) : exec .lossBudget s = execLossBudget s := rfl
@[simp] theorem exec_supplyUvStart (vaux : Nat) (s : State) : exec (.supplyUvStart vaux) s = execSupplyUvStart vaux s := rfl
@[simp] theorem exec_supplyUvEnd (s : State) : exec .supplyUvEnd s = execSupplyUvEnd s := rfl
@[simp] theorem exec_supplyOvStart (vaux : Nat) (s : State) : exec (.supplyOvStart vaux) s = execSupplyOvStart vaux s := rfl
@[simp] theorem exec_supplyOvEnd (s : State) : exec .supplyOvEnd s = execSupplyOvEnd s := rfl
@[simp] theorem exec_groundLoss (s : State) : exec .groundLoss s = execGroundLoss s := rfl
@[simp] theorem exec_datagramDiscarded (g : Datagram) (s : State) : exec (.datagramDiscarded g) s = execDatagramDiscarded g s := rfl
@[simp] theorem exec_hello (r : AixPacket) (s : State) : exec (.hello r) s = execHello r s := rfl
@[simp] theorem exec_bye (r : AixPacket) (s : State) : exec (.bye r) s = execBye r s := rfl
@[simp] theorem exec_ping (r : AixPacket) (s : State) : exec (.ping r) s = execPing r s := rfl
@[simp] theorem exec_status (r : AixPacket) (s : State) : exec (.status r) s = execStatus r s := rfl
@[simp] theorem exec_abort (r : AixPacket) (s : State) : exec (.abort r) s = execAbort r s := rfl
@[simp] theorem exec_sessionTimeout (key : Fin 33) (s : State) : exec (.sessionTimeout key) s = execSessionTimeout key s := rfl
@[simp] theorem exec_interimReply (s : State) : exec .interimReply s = execInterimReply s := rfl
@[simp] theorem exec_aixCmt (s : State) : exec .aixCmt s = execAixCmt s := rfl
@[simp] theorem exec_configLoad (r : AixPacket) (hold : Bool) (s : State) : exec (.configLoad r hold) s = execConfigLoad r hold s := rfl
@[simp] theorem exec_configCommit (r : AixPacket) (hold : Bool) (fault : Option Nat) (s : State) : exec (.configCommit r hold fault) s = execConfigCommit r hold fault s := rfl
@[simp] theorem exec_configRead (r : AixPacket) (hold : Bool) (s : State) : exec (.configRead r hold) s = execConfigRead r hold s := rfl
@[simp] theorem exec_pairRole (r : AixPacket) (hold : Bool) (s : State) : exec (.pairRole r hold) s = execPairRole r hold s := rfl
@[simp] theorem exec_arm (r : AixPacket) (hold : Bool) (s : State) : exec (.arm r hold) s = execArm r hold s := rfl
@[simp] theorem exec_disarm (r : AixPacket) (hold : Bool) (s : State) : exec (.disarm r hold) s = execDisarm r hold s := rfl
@[simp] theorem exec_stringCmd (r : AixPacket) (hold : Bool) (s : State) : exec (.stringCmd r hold) s = execStringCmd r hold s := rfl
@[simp] theorem exec_zoneClear (r : AixPacket) (hold : Bool) (s : State) : exec (.zoneClear r hold) s = execZoneClear r hold s := rfl
@[simp] theorem exec_channelCmd (r : AixPacket) (hold : Bool) (s : State) : exec (.channelCmd r hold) s = execChannelCmd r hold s := rfl
@[simp] theorem exec_outputStatus (r : AixPacket) (hold : Bool) (s : State) : exec (.outputStatus r hold) s = execOutputStatus r hold s := rfl
@[simp] theorem exec_estRead (r : AixPacket) (hold : Bool) (s : State) : exec (.estRead r hold) s = execEstRead r hold s := rfl
@[simp] theorem exec_recordRead (r : AixPacket) (hold : Bool) (s : State) : exec (.recordRead r hold) s = execRecordRead r hold s := rfl
@[simp] theorem exec_cellInit (r : AixPacket) (hold : Bool) (s : State) : exec (.cellInit r hold) s = execCellInit r hold s := rfl
@[simp] theorem exec_balEnable (r : AixPacket) (hold : Bool) (s : State) : exec (.balEnable r hold) s = execBalEnable r hold s := rfl
@[simp] theorem exec_balSet (r : AixPacket) (hold : Bool) (s : State) : exec (.balSet r hold) s = execBalSet r hold s := rfl
@[simp] theorem exec_logRead (r : AixPacket) (hold : Bool) (s : State) : exec (.logRead r hold) s = execLogRead r hold s := rfl
@[simp] theorem exec_logStatus (r : AixPacket) (hold : Bool) (s : State) : exec (.logStatus r hold) s = execLogStatus r hold s := rfl
@[simp] theorem exec_updateBegin (r : AixPacket) (hold : Bool) (s : State) : exec (.updateBegin r hold) s = execUpdateBegin r hold s := rfl
@[simp] theorem exec_stagingEraseDone (s : State) : exec .stagingEraseDone s = execStagingEraseDone s := rfl
@[simp] theorem exec_updateBlock (r : AixPacket) (hold : Bool) (s : State) : exec (.updateBlock r hold) s = execUpdateBlock r hold s := rfl
@[simp] theorem exec_updateActivate (r : AixPacket) (hold : Bool) (s : State) : exec (.updateActivate r hold) s = execUpdateActivate r hold s := rfl
@[simp] theorem exec_updateStatus (r : AixPacket) (hold : Bool) (s : State) : exec (.updateStatus r hold) s = execUpdateStatus r hold s := rfl
@[simp] theorem exec_updateCancel (r : AixPacket) (hold : Bool) (s : State) : exec (.updateCancel r hold) s = execUpdateCancel r hold s := rfl
@[simp] theorem exec_sleep (r : AixPacket) (hold : Bool) (s : State) : exec (.sleep r hold) s = execSleep r hold s := rfl
@[simp] theorem exec_setPlevel (r : AixPacket) (hold : Bool) (s : State) : exec (.setPlevel r hold) s = execSetPlevel r hold s := rfl
@[simp] theorem exec_powerStatus (r : AixPacket) (hold : Bool) (s : State) : exec (.powerStatus r hold) s = execPowerStatus r hold s := rfl
@[simp] theorem exec_regRead (r : AixPacket) (hold : Bool) (s : State) : exec (.regRead r hold) s = execRegRead r hold s := rfl
@[simp] theorem exec_regWrite (r : AixPacket) (hold : Bool) (s : State) : exec (.regWrite r hold) s = execRegWrite r hold s := rfl
@[simp] theorem exec_satRead (r : AixPacket) (hold : Bool) (s : State) : exec (.satRead r hold) s = execSatRead r hold s := rfl
@[simp] theorem exec_satWrite (r : AixPacket) (hold : Bool) (s : State) : exec (.satWrite r hold) s = execSatWrite r hold s := rfl
@[simp] theorem exec_tenantCtrl (r : AixPacket) (hold : Bool) (s : State) : exec (.tenantCtrl r hold) s = execTenantCtrl r hold s := rfl
@[simp] theorem exec_netSleepPolicy (r : AixPacket) (hold : Bool) (s : State) : exec (.netSleepPolicy r hold) s = execNetSleepPolicy r hold s := rfl
@[simp] theorem exec_netStatus (r : AixPacket) (hold : Bool) (s : State) : exec (.netStatus r hold) s = execNetStatus r hold s := rfl
@[simp] theorem exec_routeSend (r : AixPacket) (hold : Bool) (s : State) : exec (.routeSend r hold) s = execRouteSend r hold s := rfl
@[simp] theorem exec_tenantRequest (r : AixPacket) (opcode : BitVec 15) (s : State) : exec (.tenantRequest r opcode) s = execTenantRequest r opcode s := rfl
@[simp] theorem exec_tenantReply (k : Fin 7) (v : BitVec 5) (s : State) : exec (.tenantReply k v) s = execTenantReply k v s := rfl
@[simp] theorem exec_drwReqCons (k : Fin 7) (v : BitVec 5) (s : State) : exec (.drwReqCons k v) s = execDrwReqCons k v s := rfl
@[simp] theorem exec_tenantTimeout (j : Nat) (s : State) : exec (.tenantTimeout j) s = execTenantTimeout j s := rfl
@[simp] theorem exec_aixClrCnt (s : State) : exec .aixClrCnt s = execAixClrCnt s := rfl
@[simp] theorem exec_arpRequest (port : Fin 2) (f : NetFrame) (s : State) : exec (.arpRequest port f) s = execArpRequest port f s := rfl
@[simp] theorem exec_neighbourSolicitation (port : Fin 2) (f : NetFrame) (s : State) : exec (.neighbourSolicitation port f) s = execNeighbourSolicitation port f s := rfl
@[simp] theorem exec_echoRequest (port : Fin 2) (f : NetFrame) (bytes : List Byte) (s : State) : exec (.echoRequest port f bytes) s = execEchoRequest port f bytes s := rfl
@[simp] theorem exec_ethLink (port : Fin 2) (up : Bool) (s : State) : exec (.ethLink port up) s = execEthLink port up s := rfl
@[simp] theorem exec_ethPtp (port : Fin 2) (sync : Bool) (s : State) : exec (.ethPtp port sync) s = execEthPtp port sync s := rfl
@[simp] theorem exec_ethCntClr (e : Fin 2) (s : State) : exec (.ethCntClr e) s = execEthCntClr e s := rfl
@[simp] theorem exec_twpWriteTransfer (bytes : List Byte) (fast : Bool) (s : State) : exec (.twpWriteTransfer bytes fast) s = execTwpWriteTransfer bytes fast s := rfl
@[simp] theorem exec_twpReadTransfer (fast : Bool) (s : State) : exec (.twpReadTransfer fast) s = execTwpReadTransfer fast s := rfl
@[simp] theorem exec_twpReplyExpiry (s : State) : exec .twpReplyExpiry s = execTwpReplyExpiry s := rfl
@[simp] theorem exec_powerOnReset (xtal : Bool) (s : State) : exec (.powerOnReset xtal) s = execPowerOnReset xtal s := rfl
@[simp] theorem exec_rstNReset (s : State) : exec .rstNReset s = execRstNReset s := rfl
@[simp] theorem exec_groundReturnReset (s : State) : exec .groundReturnReset s = execGroundReturnReset s := rfl
@[simp] theorem exec_brownOut (s : State) : exec .brownOut s = execBrownOut s := rfl
@[simp] theorem exec_hutchRetentionLoss (s : State) : exec .hutchRetentionLoss s = execHutchRetentionLoss s := rfl
@[simp] theorem exec_sysReset (key : Byte) (s : State) : exec (.sysReset key) s = execSysReset key s := rfl
@[simp] theorem exec_boot (rs : List TestResult) (slotB : Bool) (s : State) : exec (.boot rs slotB) s = execBoot rs slotB s := rfl
@[simp] theorem exec_sysWakeAck (s : State) : exec .sysWakeAck s = execSysWakeAck s := rfl
@[simp] theorem exec_bankConfirmed (s : State) : exec .bankConfirmed s = execBankConfirmed s := rfl
@[simp] theorem exec_beNPop (t : Fin 5) (s : State) : exec (.beNPop t) s = execBeNPop t s := rfl
@[simp] theorem exec_beSPop (t : Fin 5) (s : State) : exec (.beSPop t) s = execBeSPop t s := rfl
@[simp] theorem exec_brgClr (s : State) : exec .brgClr s = execBrgClr s := rfl
@[simp] theorem exec_peerLinkUp (ver : Fin 2) (two : Bool) (s : State) : exec (.peerLinkUp ver two) s = execPeerLinkUp ver two s := rfl
@[simp] theorem exec_peerLinkDown (s : State) : exec .peerLinkDown s = execPeerLinkDown s := rfl
@[simp] theorem exec_peerLane (lane : Fin 2) (s : State) : exec (.peerLane lane) s = execPeerLane lane s := rfl
@[simp] theorem exec_peerLinkControlFrame (acked : Fin 33) (rtt : Option (BitVec 16)) (zone : Option (Fin 7)) (s : State) : exec (.peerLinkControlFrame acked rtt zone) s = execPeerLinkControlFrame acked rtt zone s := rfl
@[simp] theorem exec_peerRetransmit (n : Fin 33) (s : State) : exec (.peerRetransmit n) s = execPeerRetransmit n s := rfl
@[simp] theorem exec_peerIdleControl (s : State) : exec .peerIdleControl s = execPeerIdleControl s := rfl
@[simp] theorem exec_peerRequest (write : Bool) (a : BitVec 40) (size : Fin 65) (data : BitVec 64) (s : State) : exec (.peerRequest write a size data) s = execPeerRequest write a size data s := rfl
@[simp] theorem exec_peerInboundComplete (chk : MemCheck) (s : State) : exec (.peerInboundComplete chk) s = execPeerInboundComplete chk s := rfl
@[simp] theorem exec_peerResponse (j : Fin 8) (a : PeerAnswer) (s : State) : exec (.peerResponse j a) s = execPeerResponse j a s := rfl
@[simp] theorem exec_peerRequestRetry (j : Fin 8) (s : State) : exec (.peerRequestRetry j) s = execPeerRequestRetry j s := rfl
@[simp] theorem exec_peerClr (s : State) : exec .peerClr s = execPeerClr s := rfl
@[simp] theorem exec_canFrameReceived (n : Fin 6) (f : CanFrame) (sof : Word) (s : State) : exec (.canFrameReceived n f sof) s = execCanFrameReceived n f sof s := rfl
@[simp] theorem exec_keepAlive (n : Fin 6) (node : Fin 64) (data : List Byte) (sof : Word) (s : State) : exec (.keepAlive n node data sof) s = execKeepAlive n node data sof s := rfl
@[simp] theorem exec_txCmd (n : Fin 6) (p : Fin 2) (route : BitVec 12) (len : BitVec 7) (go : Bool) (s : State) : exec (.txCmd n p route len go) s = execTxCmd n p route len go s := rfl
@[simp] theorem exec_txCancel (n : Fin 6) (p : Fin 2) (tag : Byte) (go : Bool) (under : Option Nat) (s : State) : exec (.txCancel n p tag go under) s = execTxCancel n p tag go under s := rfl
@[simp] theorem exec_txDoneRead (n : Fin 6) (p : Fin 2) (s : State) : exec (.txDoneRead n p) s = execTxDoneRead n p s := rfl
@[simp] theorem exec_rxPop (n : Fin 6) (p : Fin 2) (s : State) : exec (.rxPop n p) s = execRxPop n p s := rfl
@[simp] theorem exec_canTxSuccess (n : Fin 6) (since : Nat) (s : State) : exec (.canTxSuccess n since) s = execCanTxSuccess n since s := rfl
@[simp] theorem exec_canTxError (n : Fin 6) (since : Nat) (f : CanFail) (s : State) : exec (.canTxError n since f) s = execCanTxError n since f s := rfl
@[simp] theorem exec_canTtlExpiry (n : Fin 6) (under : Option Nat) (s : State) : exec (.canTtlExpiry n under) s = execCanTtlExpiry n under s := rfl
@[simp] theorem exec_recover (n : Fin 6) (s : State) : exec (.recover n) s = execRecover n s := rfl
@[simp] theorem exec_canBusOn (n : Fin 6) (s : State) : exec (.canBusOn n) s = execCanBusOn n s := rfl
@[simp] theorem exec_canMode (n : Fin 6) (s : State) : exec (.canMode n) s = execCanMode n s := rfl
@[simp] theorem exec_canXcvrState (n : Fin 6) (st : BitVec 2) (s : State) : exec (.canXcvrState n st) s = execCanXcvrState n st s := rfl
@[simp] theorem exec_canTxdTimeout (n : Fin 6) (s : State) : exec (.canTxdTimeout n) s = execCanTxdTimeout n s := rfl
@[simp] theorem exec_canBusWake (n : Fin 6) (s : State) : exec (.canBusWake n) s = execCanBusWake n s := rfl
@[simp] theorem exec_canCntClr (n : Fin 6) (s : State) : exec (.canCntClr n) s = execCanCntClr n s := rfl
@[simp] theorem exec_nsmEn (on : Bool) (s : State) : exec (.nsmEn on) s = execNsmEn on s := rfl
@[simp] theorem exec_keepAliveSend (s : State) : exec .keepAliveSend s = execKeepAliveSend s := rfl
@[simp] theorem exec_nodeVoteExpiry (j : Fin 64) (s : State) : exec (.nodeVoteExpiry j) s = execNodeVoteExpiry j s := rfl
@[simp] theorem exec_idleExpiry (s : State) : exec .idleExpiry s = execIdleExpiry s := rfl
@[simp] theorem exec_nmSleepCommit (s : State) : exec .nmSleepCommit s = execNmSleepCommit s := rfl
@[simp] theorem exec_nmNodeCapped (j : Fin 64) (s : State) : exec (.nmNodeCapped j) s = execNmNodeCapped j s := rfl
@[simp] theorem exec_nsmNodeCappedClear (j : Fin 64) (s : State) : exec (.nsmNodeCappedClear j) s = execNsmNodeCappedClear j s := rfl
@[simp] theorem exec_pwrPlWrite (lv : Fin 4) (s : State) : exec (.pwrPlWrite lv) s = execPwrPlWrite lv s := rfl
@[simp] theorem exec_plChange (s : State) : exec .plChange s = execPlChange s := rfl
@[simp] theorem exec_pwrSleepGo (st : BitVec 3) (s : State) : exec (.pwrSleepGo st) s = execPwrSleepGo st s := rfl
@[simp] theorem exec_sleepSeal (fEntry : Word) (s : State) : exec (.sleepSeal fEntry) s = execSleepSeal fEntry s := rfl
@[simp] theorem exec_switchWake (j : Fin 48) (s : State) : exec (.switchWake j) s = execSwitchWake j s := rfl
@[simp] theorem exec_twpAddressMatch (data : Bool) (s : State) : exec (.twpAddressMatch data) s = execTwpAddressMatch data s := rfl
@[simp] theorem exec_wakeDecision (m : SleepMeas) (s : State) : exec (.wakeDecision m) s = execWakeDecision m s := rfl
@[simp] theorem exec_hutchClock (s : State) : exec .hutchClock s = execHutchClock s := rfl
@[simp] theorem exec_pwrCgWrite (t : Fin 5) (attr : Byte) (w : Word) (s : State) : exec (.pwrCgWrite t attr w) s = execPwrCgWrite t attr w s := rfl
@[simp] theorem exec_pwrRstWrite (t : Fin 5) (attr : Byte) (w : Word) (s : State) : exec (.pwrRstWrite t attr w) s = execPwrRstWrite t attr w s := rfl
@[simp] theorem exec_pwrPswWrite (t : Fin 5) (attr : Byte) (w : Word) (s : State) : exec (.pwrPswWrite t attr w) s = execPwrPswWrite t attr w s := rfl
@[simp] theorem exec_recordWrite (r : MramResult) (s : State) : exec (.recordWrite r) s = execRecordWrite r s := rfl
@[simp] theorem exec_repeatExpiry (s : State) : exec .repeatExpiry s = execRepeatExpiry s := rfl
@[simp] theorem exec_timeMark (s : State) : exec .timeMark s = execTimeMark s := rfl
@[simp] theorem exec_ringOpened (r : MramResult) (s : State) : exec (.ringOpened r) s = execRingOpened r s := rfl
@[simp] theorem exec_subCmd (t : Fin 5) (code : BitVec 16) (go : Bool) (s : State) : exec (.subCmd t code go) s = execSubCmd t code go s := rfl
@[simp] theorem exec_rdSeq (t : Fin 5) (seq : Word) (s : State) : exec (.rdSeq t seq) s = execRdSeq t seq s := rfl
@[simp] theorem exec_canArbitrationLost (n : Fin 6) (since : Nat) (s : State) : exec (.canArbitrationLost n since) s = execCanArbitrationLost n since s := rfl
@[simp] theorem exec_canReceiveError (n : Fin 6) (heavy : Bool) (s : State) : exec (.canReceiveError n heavy) s = execCanReceiveError n heavy s := rfl
@[simp] theorem exec_canXcvrMoveComplete (n : Fin 6) (s : State) : exec (.canXcvrMoveComplete n) s = execCanXcvrMoveComplete n s := rfl
@[simp] theorem exec_activationGrant (granted : Bool) (reason : Fin 6) (s : State) : exec (.activationGrant granted reason) s = execActivationGrant granted reason s := rfl
@[simp] theorem exec_partnerUpdateReport (r : UpdReport) (s : State) : exec (.partnerUpdateReport r) s = execPartnerUpdateReport r s := rfl
@[simp] theorem exec_perFramePeerMessage (syncs enums : BitVec 16) (s : State) : exec (.perFramePeerMessage syncs enums) s = execPerFramePeerMessage syncs enums s := rfl
@[simp] theorem exec_delayTableTransfer (n : Fin 16) (dly : List (Option (BitVec 16))) (s : State) : exec (.delayTableTransfer n dly) s = execDelayTableTransfer n dly s := rfl

end Sys2Proof.Machine
end

