-- ==== Sys2Proof/Laws/Memory.lean ====
section
/-!
SUPPORT. Laws/Memory.lean: every memory operation keeps the canonical form, and what a byte reads after each.
-/

namespace Sys2Proof.Machine

theorem memPut_wf (a : Nat) (b : Byte) (m : List Host.Cell) (h : Memory.wf m = true) : Memory.wf (memPut a b m) = true :=
  tabWf_tabSet memRest m a b h

@[simp] theorem memByte_memPut_same (a : Nat) (b : Byte) (m : List Host.Cell) : memByte (memPut a b m) a = b :=
  tabGet_tabSet_same memRest m a b

theorem memByte_memPut_ne {a c : Nat} (b : Byte) (m : List Host.Cell) (h : a ≠ c) : memByte (memPut a b m) c = memByte m c :=
  tabGet_tabSet_ne memRest m b h

theorem memWrite_wf (bs : List Byte) (a : Nat) (m : List Host.Cell) (h : Memory.wf m = true) :
    Memory.wf (memWrite a bs m) = true := by
  induction bs generalizing a m with
  | nil => exact h
  | cons b bs ih => exact ih _ _ (memPut_wf a b m h)

/-- Writing bytes leaves every byte outside them. -/
theorem memByte_memWrite_outside (bs : List Byte) {a c : Nat} (m : List Host.Cell) (h : c < a ∨ a + bs.length ≤ c) :
    memByte (memWrite a bs m) c = memByte m c := by
  induction bs generalizing a m with
  | nil => rfl
  | cons b bs ih =>
    simp only [List.length_cons] at h
    rw [memWrite, ih _ (by omega)]
    exact memByte_memPut_ne _ _ (by omega)

/-- Each byte written is read back. -/
theorem memByte_memWrite_inside (bs : List Byte) {a c : Nat} (m : List Host.Cell) (h1 : a ≤ c) (h2 : c < a + bs.length) :
    memByte (memWrite a bs m) c = bs.getD (c - a) 0 := by
  induction bs generalizing a m with
  | nil => simp at h2; omega
  | cons b bs ih =>
    simp only [List.length_cons] at h2
    by_cases hc : c = a
    · subst hc
      rw [memWrite, memByte_memWrite_outside _ _ (by omega), memByte_memPut_same]
      simp
    · rw [memWrite, ih _ (by omega) (by omega)]
      obtain ⟨k, rfl⟩ : ∃ k, c = a + (k + 1) := ⟨c - a - 1, by omega⟩
      have e1 : a + (k + 1) - (a + 1) = k := by omega
      have e2 : a + (k + 1) - a = k + 1 := by omega
      rw [e1, e2]; rfl

/-! ### Regions -/

/-- All addresses of the list lie from `a` on, rise, and no entry is what it reads as unlisted: the form as one condition. -/
def cellsFrom (a : Nat) : List Host.Cell → Prop
  | [] => True
  | (k, v) :: t => a ≤ k ∧ v ≠ memRest k ∧ cellsFrom (k + 1) t

theorem tabRises_all {k : Nat} {t : List Host.Cell} : (tabRises k t = true ∧ ∀ e ∈ t, e.2 ≠ memRest e.1) ↔ cellsFrom (k + 1) t := by
  induction t generalizing k with
  | nil => simp [tabRises, cellsFrom]
  | cons e t ih =>
    obtain ⟨k', v⟩ := e
    simp only [tabRises, cellsFrom, Bool.and_eq_true, decide_eq_true_eq, List.forall_mem_cons, ← ih]
    constructor
    · rintro ⟨⟨h1, h2⟩, h3, h4⟩; exact ⟨h1, h3, h2, h4⟩
    · rintro ⟨h1, h2, h3, h4⟩; exact ⟨⟨h1, h3⟩, h2, h4⟩

/-- The canonical form, as one recursive condition. -/
theorem memory_wf_iff (m : List Host.Cell) : Memory.wf m = true ↔ cellsFrom 0 m := by
  unfold Memory.wf
  rw [tabWf_iff]
  cases m with
  | nil => simp [cellsFrom]
  | cons e t =>
    obtain ⟨k, v⟩ := e
    simp only [cellsFrom, List.forall_mem_cons, ← tabRises_all]
    constructor
    · rintro ⟨h1, h2, h3⟩; exact ⟨Nat.zero_le _, h2, h1, h3⟩
    · rintro ⟨_, h2, h1, h3⟩; exact ⟨h1, h2, h3⟩

theorem cellsFrom_mono {a b : Nat} {m : List Host.Cell} (h : a ≤ b) (hm : cellsFrom b m) : cellsFrom a m := by
  cases m with
  | nil => trivial
  | cons e t => exact ⟨le_trans h hm.1, hm.2⟩

/-- Cells below a bound followed by cells from it on. -/
theorem cellsFrom_append {a b : Nat} {m n : List Host.Cell} (hm : cellsFrom a m) (hb : ∀ e ∈ m, e.1 < b) (hab : a ≤ b)
    (hn : cellsFrom b n) : cellsFrom a (m ++ n) := by
  induction m generalizing a with
  | nil => exact cellsFrom_mono hab hn
  | cons e t ih =>
    have hlt := hb e List.mem_cons_self
    exact ⟨hm.1, hm.2.1, ih hm.2.2 (fun x hx => hb x (List.mem_cons_of_mem _ hx)) hlt⟩

theorem cellsFrom_below {a b : Nat} {m : List Host.Cell} (hm : cellsFrom a m) : cellsFrom a (memBelow b m) := by
  induction m generalizing a with
  | nil => trivial
  | cons e t ih =>
    by_cases h : e.1 < b
    · simp only [memBelow, List.takeWhile_cons, h, decide_true, if_true]
      exact ⟨hm.1, hm.2.1, ih hm.2.2⟩
    · simp [memBelow, h, cellsFrom]

theorem memBelow_lt {b : Nat} {m : List Host.Cell} : ∀ e ∈ memBelow b m, e.1 < b := fun e he => by
  have := List.mem_takeWhile_imp he
  simpa using this

theorem cellsFrom_from {a b : Nat} {m : List Host.Cell} (hm : cellsFrom a m) : cellsFrom b (memFrom b m) := by
  induction m generalizing a with
  | nil => trivial
  | cons e t ih =>
    by_cases h : e.1 < b
    · simp only [memFrom, List.dropWhile_cons, h, decide_true, if_true]
      exact ih hm.2.2
    · simp only [memFrom, List.dropWhile_cons, h, decide_false]
      exact ⟨by omega, hm.2⟩

theorem cellsFrom_memCells (bs : List Byte) (a : Nat) : cellsFrom a (memCells a bs) := by
  induction bs generalizing a with
  | nil => trivial
  | cons b bs ih =>
    unfold memCells
    split_ifs with h
    · exact cellsFrom_mono (Nat.le_succ a) (ih (a + 1))
    · exact ⟨le_refl a, h, ih (a + 1)⟩

theorem memCells_lt (bs : List Byte) (a : Nat) : ∀ e ∈ memCells a bs, e.1 < a + bs.length := by
  induction bs generalizing a with
  | nil => intro e he; cases he
  | cons b bs ih =>
    intro e he
    unfold memCells at he
    simp only [List.length_cons]
    split_ifs at he
    · have := ih (a + 1) e he; omega
    · rcases List.mem_cons.1 he with rfl | he
      · simp
      · have := ih (a + 1) e he; omega

/-- A region written at once keeps the canonical form. -/
theorem memPlace_wf (a : Nat) (bs : List Byte) (m : List Host.Cell) (h : Memory.wf m = true) :
    Memory.wf (memPlace a bs m) = true := by
  rw [memory_wf_iff] at h ⊢
  unfold memPlace
  rw [List.append_assoc]
  refine cellsFrom_append (cellsFrom_below h) memBelow_lt (Nat.zero_le a) ?_
  exact cellsFrom_append (cellsFrom_memCells bs a) (memCells_lt bs a) (Nat.le_add_right _ _) (cellsFrom_from h)

/-- Erasing a region keeps the canonical form. -/
theorem memErase_wf (a n : Nat) (m : List Host.Cell) (h : Memory.wf m = true) : Memory.wf (memErase a n m) = true := by
  rw [memory_wf_iff] at h ⊢
  exact cellsFrom_append (cellsFrom_below h) memBelow_lt (Nat.zero_le a)
    (cellsFrom_mono (Nat.le_add_right a n) (cellsFrom_from h))

/-- Cells taken out of the list leave the others in their form. -/
theorem cellsFrom_filter (p : Host.Cell → Bool) {a : Nat} {m : List Host.Cell} (h : cellsFrom a m) : cellsFrom a (m.filter p) := by
  induction m generalizing a with
  | nil => trivial
  | cons e t ih =>
    rw [List.filter_cons]
    split_ifs
    · exact ⟨h.1, h.2.1, ih h.2.2⟩
    · exact cellsFrom_mono (by have := h.1; omega) (ih h.2.2)

/-- The loss of the volatile memories keeps the canonical form. -/
theorem memLose_wf (m : List Host.Cell) (h : Memory.wf m = true) : Memory.wf (memLose m) = true := by
  rw [memory_wf_iff] at h ⊢
  exact cellsFrom_filter _ h

theorem tabPut_cellsFrom {a k : Nat} {b : Byte} {m : List Host.Cell} (hk : a ≤ k) (hb : b ≠ memRest k) (h : cellsFrom a m) :
    cellsFrom a (tabPut m k b) := by
  induction m generalizing a with
  | nil => exact ⟨hk, hb, trivial⟩
  | cons e t ih =>
    obtain ⟨k', v⟩ := e
    obtain ⟨h1, h2, h3⟩ := h
    by_cases e1 : k' = k
    · subst e1; simp only [tabPut, if_true]; exact ⟨h1, hb, h3⟩
    · by_cases e2 : k < k'
      · simp only [tabPut, if_neg e1, if_pos e2]
        exact ⟨hk, hb, e2, h2, h3⟩
      · simp only [tabPut, if_neg e1, if_neg e2]
        exact ⟨h1, h2, ih (by omega) h3⟩

theorem tabDel_cellsFrom {a : Nat} (k : Nat) {m : List Host.Cell} (h : cellsFrom a m) : cellsFrom a (tabDel m k) := by
  induction m generalizing a with
  | nil => trivial
  | cons e t ih =>
    obtain ⟨k', v⟩ := e
    obtain ⟨h1, h2, h3⟩ := h
    by_cases e1 : k' = k
    · simp only [tabDel, if_pos e1]; exact ih (cellsFrom_mono (by omega) h3)
    · simp only [tabDel, if_neg e1]; exact ⟨h1, h2, ih h3⟩

/-- A byte written from `a` on keeps the form from `a` on. -/
theorem memPut_cellsFrom {a k : Nat} (b : Byte) {m : List Host.Cell} (hk : a ≤ k) (h : cellsFrom a m) :
    cellsFrom a (memPut k b m) := by
  unfold memPut tabSet
  split_ifs with hb
  · exact tabDel_cellsFrom k h
  · exact tabPut_cellsFrom hk hb h

/-- A byte written below a bound keeps the list below it. -/
theorem memPut_lt {k b0 : Nat} (b : Byte) {m : List Host.Cell} (hk : k < b0) (h : ∀ e ∈ m, e.1 < b0) :
    ∀ e ∈ memPut k b m, e.1 < b0 := by
  intro e he
  unfold memPut tabSet at he
  split_ifs at he
  · exact h e (tabDel_mem he)
  · rcases tabPut_mem he with rfl | he
    · exact hk
    · exact h e he

theorem memSweepFrom_form {base size : Nat} (hs : 0 < size) (f : Nat → List Host.Cell → List (Nat × Byte)) (n : Nat) :
    ∀ (i : Nat) (m : List Host.Cell), cellsFrom (base + size * i) m → cellsFrom (base + size * i) (memSweepFrom base size f n i m) := by
  induction n with
  | zero => intro i m h; exact h
  | succ n ih =>
    intro i m h
    have hstep : base + size * i ≤ base + size * (i + 1) := by rw [Nat.mul_succ]; omega
    have hfold : ∀ (ws : List (Nat × Byte)) (h0 : List Host.Cell), cellsFrom (base + size * i) h0 →
        (∀ e ∈ h0, e.1 < base + size * (i + 1)) →
        cellsFrom (base + size * i) (ws.foldl (fun h w => memPut (base + size * i + w.1 % size) w.2 h) h0) ∧
          ∀ e ∈ ws.foldl (fun h w => memPut (base + size * i + w.1 % size) w.2 h) h0, e.1 < base + size * (i + 1) := by
      intro ws
      induction ws with
      | nil => intro h0 a b; exact ⟨a, b⟩
      | cons w ws ihw =>
        intro h0 a b
        have := Nat.mod_lt w.1 hs
        exact ihw _ (memPut_cellsFrom w.2 (Nat.le_add_right _ _) a) (memPut_lt w.2 (by rw [Nat.mul_succ]; omega) b)
    have hf := hfold (f i (memBelow (base + size * (i + 1)) m)) _ (cellsFrom_below h) memBelow_lt
    exact cellsFrom_append hf.1 hf.2 hstep (ih (i + 1) _ (cellsFrom_from h))

/-- A sweep over a region's blocks keeps the canonical form. -/
theorem memSweep_wf {base size : Nat} (hs : 0 < size) (n : Nat) (f : Nat → List Host.Cell → List (Nat × Byte))
    (m : List Host.Cell) (h : Memory.wf m = true) : Memory.wf (memSweep base size n f m) = true := by
  rw [memory_wf_iff] at h ⊢
  refine cellsFrom_append (cellsFrom_below h) memBelow_lt (Nat.zero_le base) ?_
  have := memSweepFrom_form hs (base := base) f n 0 (memFrom base m) (by simpa using cellsFrom_from h)
  simpa using this

end Sys2Proof.Machine
end

