-- ==== Sys2Proof/Laws/Reset.lean ====
section
/-!
SUPPORT. Laws/Reset.lean: what a device reset and a power-on leave in the register file: what the hutch and one-time memory hold stays,
every other register takes its reset value.
-/

namespace Sys2Proof.Machine

/-- A register reads the register file alone. -/
theorem regGet_of_regs {d e : Dev} (h : d.regs = e.regs) (a : Nat) : regGet d a = regGet e a := by unfold regGet; rw [h]

/-- Registers copied from one device to another read as they did there; the others stay. -/
theorem regGet_keepRegs (l : List Nat) (old d : Dev) (a : Nat) :
    regGet (keepRegs l old d) a = if a ∈ l then regGet old a else regGet d a := by
  induction l generalizing d with
  | nil => simp [keepRegs, each]
  | cons r l ih =>
    show regGet (keepRegs l old (regPut r (regGet old r) d)) a = _
    rw [ih]
    by_cases h : a ∈ l
    · simp [h]
    · by_cases h2 : a = r
      · subst h2; simp [h]
      · simp only [h, h2, List.mem_cons, or_self, if_false]
        exact regGet_regPut_ne _ _ (Ne.symm h2)

/-- Fields copied leave every other register. -/
theorem regGet_keepFields (l : List Fld) (old d : Dev) (a : Nat) (h : ∀ f ∈ l, f.reg ≠ a) :
    regGet (keepFields l old d) a = regGet d a := by
  induction l generalizing d with
  | nil => rfl
  | cons r l ih =>
    show regGet (keepFields l old (fset r (fget r old) d)) a = _
    rw [ih _ (fun f hf => h f (List.mem_cons_of_mem _ hf)), regGet_fset_ne _ _ (h r (List.mem_cons_self ..))]

/-- The sideboard's part of a device reset changes REC_STATUS alone. -/
theorem regGet_sideKeep (old d : Dev) (a : Nat) (h : R.REC_STATUS ≠ a) : regGet (sideKeep old d) a = regGet d a := by
  unfold sideKeep fput
  rw [regGet_fset_ne (f := F.REC_STATUS_FALLBACK) _ _ h]
  exact regGet_of_regs rfl a

/-- The registers that a device reset may set otherwise: those with a field of the hutch, REC_STATUS and SYS_RST_CAUSE. -/
def resetSets (a : Nat) : Bool := a == R.SYS_RST_CAUSE || a == R.REC_STATUS || hutchFields.any (fun f => f.reg == a)

/-- Every other register after a device reset. -/
theorem regGet_deviceReset (c : Nat) (d : Dev) (a : Nat) (h : resetSets a = false) :
    regGet (deviceReset c d) a = if a ∈ otpRegs ++ hutchRegs then regGet d a else regReset a := by
  simp only [resetSets, Bool.or_eq_false_iff, beq_eq_false_iff_ne, List.any_eq_false, beq_iff_eq] at h
  unfold deviceReset
  dsimp only
  rw [regGet_fset_ne (f := F.SYS_RST_CAUSE_CAUSE) _ _ (Ne.symm h.1.1)]
  refine (regGet_of_regs (e := sideKeep d (keepFields hutchFields d (keepRegs (otpRegs ++ hutchRegs) d (devBare d)))) rfl a).trans ?_
  rw [regGet_sideKeep _ _ _ (Ne.symm h.1.2), regGet_keepFields _ _ _ _ h.2, regGet_keepRegs]
  rfl

/-- Every register but PWR_STATUS after a power-on. -/
theorem regGet_powerOn (x : Bool) (d : Dev) (a : Nat) (h : R.PWR_STATUS ≠ a) :
    regGet (powerOn x d) a = if a ∈ otpRegs then regGet d a else regReset a := by
  unfold powerOn fput
  dsimp only
  rw [regGet_fset_ne (f := F.PWR_STATUS_HCLK) _ _ h]
  refine (regGet_of_regs (e := keepRegs otpRegs d (devBare d)) rfl a).trans ?_
  rw [regGet_keepRegs]
  rfl

/-- The sources of a wake change their registers alone. -/
theorem regGet_wakeLatch (srcs : Nat) (d : Dev) (a : Nat) (h : ∀ r ∈ [R.SYS_WAKE, R.SYS_WAKE_MASK_LO, R.SYS_WAKE_MASK_HI], r ≠ a) :
    regGet (wakeLatch srcs d) a = regGet d a := by
  have h1 := h R.SYS_WAKE (by simp)
  have h2 := h R.SYS_WAKE_MASK_LO (by simp)
  have h3 := h R.SYS_WAKE_MASK_HI (by simp)
  unfold wakeLatch pwrPut
  simp only [fput]
  refine (regGet_of_regs (e := fset F.SYS_WAKE_MASK_HI_TWP _ _) rfl _).trans ?_
  rw [regGet_fset_ne (f := F.SYS_WAKE_MASK_HI_TWP) _ _ h3, regGet_fset_ne (f := F.SYS_WAKE_MASK_HI_MASK) _ _ h3,
    regGet_fset_ne (f := F.SYS_WAKE_MASK_LO_MASK) _ _ h2, regGet_fset_ne (f := F.SYS_WAKE_SRC) _ _ h1,
    regGet_fset_ne (f := F.SYS_WAKE_KIND) _ _ h1]

/-- A device with another accumulator and power state reads its registers as it did. -/
theorem regGet_angPwr (d : Dev) (a acc : Nat) (p : Pwr) :
    regGet (pwrPut p { d with ang := { d.ang with acc := acc } }) a = regGet d a := regGet_of_regs rfl a

/-- The registers after a wake from S3 or S4: those of its device reset, the sources of the wake apart. -/
theorem regGet_wakeReset (m : SleepMeas) (d : Dev) (a : Nat)
    (h : ∀ r ∈ [R.SYS_WAKE, R.SYS_WAKE_MASK_LO, R.SYS_WAKE_MASK_HI], r ≠ a) :
    regGet (wakeReset m d) a = regGet (deviceReset (d.pwr.target + 3) (elapsedPut m d).2) a := by
  generalize he : elapsedPut m d = e
  obtain ⟨⟨n, q⟩, d1⟩ := e
  unfold wakeReset
  simp only [he]
  generalize deviceReset (d.pwr.target + 3) d1 = D at *
  split_ifs
  all_goals first
    | (rw [regGet_send, regGet_wakeLatch _ _ _ h]; exact regGet_angPwr _ _ _ _)
    | (rw [regGet_wakeLatch _ _ _ h]; exact regGet_angPwr _ _ _ _)

end Sys2Proof.Machine
end

