-- ==== Sys2Proof/Laws/Trestle.lean ====
section
/-!
SUPPORT. Laws/Trestle.lean: what the release of trestles copies (R368), and accesses that meet no bad word (R407).
-/

namespace Sys2Proof.Machine

/-- An access that meets no bad word comes with the check it brings. -/
theorem checkNow_clean (chk : MemCheck) (a n : Nat) (d : Dev) (h : badMeets a n d = none) : checkNow chk a n d = chk := by
  simp only [checkNow, h]

/-- A write that meets no bad word restores none. -/
theorem badCovered_clean (a n : Nat) (d : Dev) (h : badMeets a n d = none) : badCovered a n d = d := by
  have e : d.brg.bad.filter (fun x => !decide (a ≤ x.1 ∧ x.1 + badSpan x.1 ≤ a + n)) = d.brg.bad := by
    rw [List.filter_eq_self]
    intro x hx
    have := List.find?_eq_none.1 h x hx
    have s : 0 < badSpan x.1 := by unfold badSpan; split <;> decide
    simp only [decide_eq_true_eq, not_and, not_lt] at this
    simp only [Bool.not_eq_true', decide_eq_false_iff_not, not_and]
    intro h1 h2
    have := this (by omega)
    omega
  unfold badCovered
  rw [e]

/-- A granted read of a memory, no check failing and no bad word met, answers the bytes that stand there, and changes nothing. -/
theorem busRead_memory (o : Origin) (t attr a size c : Nat) (m : List Host.Cell) (d : Dev) (h : accessTarget a size = some c)
    (hc : c = 0 ∨ c = 1 ∨ c = 2 ∨ c = 6 ∨ c = 7 ∨ c = 8) (hg : granted c a size 0 attr d = true) (hb : badMeets a size d = none) :
    busRead o t attr a size .good m d = (some (.data (leNat (memRead m a size))), d) := by
  have h3 : c ≠ 3 := by omega
  have h4 : c ≠ 4 := by omega
  have h5 : c ≠ 5 := by omega
  have hr : readFails c .good = false := rfl
  rw [busRead, h]
  show busReadAt c o t attr a size .good m d = _
  rw [busReadAt, checkNow_clean _ _ _ _ hb, hg, if_neg (by decide), if_neg h3, if_neg h4, if_neg h5, hr, if_neg (by decide)]

/-- A granted write to a memory that takes it, no check failing and no bad word met, writes its bytes and changes nothing else. -/
theorem busWrite_memory (o : Origin) (t attr a size data c : Nat) (m : List Host.Cell) (d : Dev) (h : accessTarget a size = some c)
    (hc : c = 1 ∨ c = 2 ∨ c = 7 ∨ c = 8) (he : c = 2 → flag F.EST_CTRL_EN d = false) (hg : granted c a size 1 attr d = true)
    (hb : badMeets a size d = none) :
    busWrite o t attr a size data .good m d = (some (.data 0), memWrite a (leBytes size data) m, d) := by
  have h3 : c ≠ 3 := by omega
  have h4 : c ≠ 4 := by omega
  have h5 : c ≠ 5 := by omega
  have h0 : ¬ (c = 0 ∨ c = 6) := by omega
  have hk : ¬ (c = 2 ∧ flag F.EST_CTRL_EN d = true) := fun e => by rw [he e.1] at e; exact Bool.noConfusion e.2
  have hm : ¬ (c = 8 ∧ MemCheck.good = .dramCrc ∧ (size < 64 ∨ a % 64 ≠ 0)) := fun e => MemCheck.noConfusion e.2.1
  have hp : ¬ (MemCheck.good = .targetParity) := fun e => MemCheck.noConfusion e
  unfold busWrite
  rw [h, checkNow_clean _ _ _ _ hb, badCovered_clean _ _ _ hb]
  dsimp only
  rw [hg, if_neg (by decide), if_neg hp, if_neg h3, if_neg h4, if_neg h5, if_neg h0, if_neg hk, if_neg hm]

/-- The state of a trestle after it is set, and of the others. -/
theorem tlState_tlStatePut (t u st : Nat) (d : Dev) (h : st < 8) (ht : u < 5) :
    tlState u (tlStatePut t st d) = if u = t then st else tlState u d := by
  have c (t : Nat) : (F.CPX_STATUS_STATE t).reg ≠ (F.TL_STAT_STATE u).reg := by
    simp only [R.CPX_STATUS, R.TL_STAT]; omega
  unfold tlState tlStatePut
  rw [fget_fset_ne _ _ (c t)]
  split
  · next e => subst e; rw [fget_fset_same _ _ _ (by show 0 + 3 ≤ 32; decide)]; exact Nat.mod_eq_of_lt h
  · next e =>
    rw [fget_fset_ne]
    simp only [R.TL_STAT]; omega

/-- What stands for a trestle beyond its registers does not touch its state. -/
theorem tlState_tlPut (t u : Nat) (x : Trestle) (d : Dev) : tlState u (tlPut t x d) = tlState u d := by
  unfold tlState tlPut
  by_cases e : R.TL_STAT t = R.TL_STAT u
  · rw [fget_fset_apart _ _ e (by show 16 + 6 ≤ 32; decide) (by left; show 0 + 3 ≤ 16; decide)]; rfl
  · rw [fget_fset_ne _ _ e]; rfl

/-- The state of a trestle after a release, and of the others. -/
theorem tlState_tlRelease (t u : Nat) (d : Dev) (ht : u < 5) : tlState u (tlRelease t d) = if u = t then 3 else tlState u d := by
  rw [tlRelease, tlState_tlStatePut t u 3 _ (by decide) ht, tlState_tlPut]

/-- A restart puts its own trestle to the test, and no other. -/
theorem tlState_tlRestart (t u : Nat) (d : Dev) (ht : u < 5) : tlState u (tlRestart t d) = if u = t then 2 else tlState u d := by
  unfold tlRestart tlTest
  rw [tlState_tlStatePut t u 2 _ (by decide) ht, tlState_tlPut]
  split
  · rfl
  · next e =>
    have r : R.TL_STAT t ≠ R.TL_STAT u := by simp only [R.TL_STAT]; omega
    unfold tlState
    rw [recordC_fget _ _ _ _ _ ⟨?_, fun e' h => ?_⟩, fget_fset_ne _ _ r]
    · exact tlState_tlPut t u _ d
    · simp only [R.TL_STAT, R.REC_LOST]; omega
    · have : eventFlag 0x0706 t = some (R.CPX_INT_STAT, 5) := by simp [eventFlag]
      rw [this] at h; cases h
      simp only [R.TL_STAT, R.CPX_INT_STAT]; omega

/-- The boot descriptors are untouched by a release. -/
theorem bootOf_tlRelease (t u : Nat) (d : Dev) (ht : t < 5) : bootOf u (tlRelease t d) = bootOf u d := by
  have e : fget F.UPD_STATUS_CUST_VALID (tlRelease t d) = fget F.UPD_STATUS_CUST_VALID d := by
    unfold tlRelease tlStatePut tlPut
    rw [fget_fset_ne, fget_fset_ne, fget_fset_ne]
    · rfl
    all_goals (simp only [R.TL_STAT, R.CPX_STATUS, R.UPD_STATUS, ne_eq]; omega)
  simp only [bootOf, flag, e]; rfl

/-- Where no trestle comes out of its reset, the monitor copies nothing. -/
theorem monitorCopies_none (was d : Dev) (m : List Host.Cell)
    (h : ∀ t : Nat, t < 5 → tlState t d = 3 → tlState t was = 3 ∨ tlState t was = 4) : monitorCopies was d m = (m, d) := by
  have e : released was d = [] := by
    refine List.filter_eq_nil_iff.2 (fun t ht c => ?_)
    simp only [Bool.and_eq_true, bne_iff_ne, ne_eq, beq_iff_eq] at c
    exact (h t (List.mem_range.1 ht) c.2).elim c.1.1 c.1.2
  rw [monitorCopies, e]; rfl

/-- The release of a READY trestle, with the monitor's copy for it alone. -/
theorem withMonitor_tlRelease (t : Nat) (ht : t < 5) (m : List Host.Cell) (d : Dev) (h : tlState t d = 1) :
    withMonitor (tlRelease t) m d = monitorCopy t m (tlRelease t d) := by
  have e : released d (tlRelease t d) = (List.range 5).filter (fun u => u == t) := by
    refine List.filter_congr (fun u hu => ?_)
    rw [tlState_tlRelease t u d (List.mem_range.1 hu)]
    by_cases c : u = t
    · subst c; simp [h]
    · rw [if_neg c]
      have n : (u == t) = false := by simp [c]
      rw [n]
      by_cases c3 : tlState u d = 3
      · rw [c3]; rfl
      · have : (tlState u d == 3) = false := by simp [c3]
        rw [this, Bool.and_false]
  have e5 : (List.range 5).filter (fun u => u == t) = [t] := by interval_cases t <;> rfl
  rw [withMonitor, monitorCopies, e, e5]; rfl

/-- A frame to the partner, sent or waiting, touches no register. -/
theorem fget_toPartner (f : Fld) (o : Output) (d : Dev) : fget f (toPartner o d) = fget f d := by
  unfold toPartner frameOut
  split_ifs <;> rfl

end Sys2Proof.Machine
end

