-- ==== Sys2Proof/WellFormed.lean ====
section
/-!
DEFINITION. WellFormed.lean: which commands the outside world can send: sizes, lengths and numbers that the operands' types leave open and
the formats of the spec bound. A meaning answers for ill-formed operands too; statements about what a sender can do may ask for this.
-/

namespace Sys2Proof

/-- An access of 1, 2, 4 or 8 bytes. -/
def sizeOk (n : Nat) : Bool := n == 1 || n == 2 || n == 4 || n == 8

/-- A CAN frame that ISO 11898-1 allows (R419, R427): the identifier's width, the data lengths of the format, no remote FD frame. -/
def canFrameOk (f : CanFrame) : Bool :=
  decide (f.id < if f.ide then 2 ^ 29 else 2 ^ 11)
    && (if f.fdf then !f.rtr && (decide (f.data.length ≤ 8) || [12, 16, 20, 24, 32, 48, 64].contains f.data.length)
        else decide (f.data.length ≤ 8) && !f.brs)

/-- A host time. -/
def ptpTimeOk (t : PtpTime) : Bool := decide (t.ns < 1000000000)

/-- A frame's header, body and CRC between its SOF and EOF (R96): 600 code groups hold at most 598 of them. -/
def burstOk (bs : List Byte) : Bool := decide (8 ≤ bs.length ∧ bs.length ≤ 598)

/-- A request that fits one packet of its port (R327). -/
def packetOk (r : AixPacket) : Bool := decide (r.payload.length ≤ if r.via = 2 then 240 else 1432)

/-- The fields of a SYNC (R98). -/
def syncOk (b : SyncBody) : Bool :=
  decide (b.cycle < 2 ^ 32 ∧ b.inc < 2 ^ 32 ∧ b.cnt < 2 ^ 16 ∧ b.ordP < 32 ∧ b.ordQ < 32 ∧ b.slotLen < 2 ^ 16)

/-- The fields of an ENUM_RESP (R97). -/
def enumRespOk (r : EnumResp) : Bool :=
  decide (r.pos < 64 ∧ r.hop < 256 ∧ r.uid < 2 ^ 64 ∧ r.maxVer < 256 ∧ r.nCell < 256 ∧ r.cap < 256 ∧ r.fw < 2 ^ 16
    ∧ r.oldPos < 64)

/-- The operands of a command have the form that the spec gives them. -/
def WellFormed (i : Instr) : Bool :=
  match i with
  | .cycleBoundary _ t => ptpTimeOk t
  | .ptpSync _ _ t => ptpTimeOk t
  | .dataBurst _ _ bs _ => burstOk bs
  | .dataRetx _ _ bs => burstOk bs
  | .syncReceived _ _ b _ => syncOk b
  | .enumResp _ r => enumRespOk r
  | .enumReceived _ (.commit ver count _) => decide ((ver = 1 ∨ ver = 2) ∧ count ≤ 48)
  | .delayTableTransfer _ dly => decide (dly.length = 48)
  | .alignTransfer _ bs _ => bs.all (fun b => decide (b.chain < 16 ∧ b.pos < 48 ∧ b.bytes.length = 4096))
  | .digestMessage m => decide (m.chains.length ≤ 16)
  | .lossEstimate _ ms => decide (ms.length = 32)
  | .executeInstruction _ r _ => r.store.all (fun st => sizeOk st.size)
  | .load _ l _ => sizeOk l.size
  | .abstractCommand _ (.mem _ size) _ => sizeOk size
  | .comparatorMismatch _ group _ _ => decide (group.toNat ≤ 10 ∧ group.toNat ≠ 7)
  | .systemBusAccess _ _ size _ _ => sizeOk size.val
  | .peerRequest _ _ size _ => sizeOk size.val || size.val == 64
  | .peerResponse _ (.data bs) => decide (bs.length ≤ 64)
  | .canFrameReceived _ f _ => canFrameOk f
  | .keepAlive _ _ data _ => decide (1 ≤ data.length ∧ data.length ≤ 8)
  | .boot rs _ => decide (rs.length ≤ 5)
  | .roleExchange r => decide (r.role ≤ 5 ∧ r.zone ≤ 6)
  | .hello r | .bye r | .ping r | .status r | .abort r => packetOk r
  | .configLoad r _ | .configCommit r _ _ | .configRead r _ | .pairRole r _ | .arm r _ | .disarm r _ | .stringCmd r _
  | .zoneClear r _ | .channelCmd r _ | .outputStatus r _ | .estRead r _ | .recordRead r _ | .cellInit r _ | .balEnable r _
  | .balSet r _ | .logRead r _ | .logStatus r _ | .updateBegin r _ | .updateBlock r _ | .updateActivate r _
  | .updateStatus r _ | .updateCancel r _ | .sleep r _ | .setPlevel r _ | .powerStatus r _ | .regRead r _ | .regWrite r _
  | .satRead r _ | .satWrite r _ | .tenantCtrl r _ | .netSleepPolicy r _ | .netStatus r _ | .routeSend r _ => packetOk r
  | .tenantRequest r _ => packetOk r && r.drawer != 0 && r.via != 2
  | .echoRequest _ _ bytes => decide (bytes.length ≤ 1500)
  | _ => true

end Sys2Proof
end

