-- ==== Sys2Proof/Tests/Slice0.lean ====
section
/-!
SUPPORT. Tests/Slice0.lean: for each statement with hypotheses a state and operands that meet them (`witness_<statement>`, one part for each
clause, at a boundary of its range), what WellFormed refuses, and a few checks of values.
-/

open Sys2Proof Sys2Proof.Machine

set_option maxRecDepth 40000

namespace Sys2Proof.Tests

/-! ### Devices -/

/-- The device after reset. -/
def devReset : Dev := State.reset.dev

/-- Fields set on a device. -/
def up (l : List (Fld × Nat)) (d : Dev) : Dev := l.foldl (fun d p => fset p.1 p.2 d) d

/-- Every block gated. -/
def devCut : Dev := up [(F.PWR_CG_CG, 0x1FFFFFFF)] devReset

/-- In the sleep state `k`, sealed, with a wake source; and with a sleep under way. -/
def devDeep (k : Nat) : Dev := { devReset with pwr := { devReset.pwr with target := k, sealed := true, srcs := 1 } }
def devDozing : Dev := { devReset with pwr := { devReset.pwr with target := 1, srcs := 1 } }

/-- Every trestle in state `k`. -/
def devTl (k : Nat) : Dev :=
  fput F.CPX_CTRL_TL0_RESET true (each (List.range 5) (fun t => fset (F.TL_STAT_STATE t) k) devReset)

/-- In RUN, each trestle as `f` makes it. -/
def devHart (f : Trestle → Trestle) : Dev := each (List.range 5) (fun t d => tlPut t (f (tlOf t d)) d) (devTl 3)

/-- Tenants 1 to 7 in state `k`. -/
def devTen (k : Nat) : Dev := each [0, 7] (fun n => fset (F.WLD_TEN_STAT_STATE n) k) devReset

/-- Flags that say something is under way. -/
def devBusy : Dev := up [(F.WLD_CTRL_LOCK, 1), (F.DBG_STAT_BUSY, 1), (F.PWR_PL_BUSY, 1), (F.PWR_STATUS_HCLK, 1),
  (F.EST_STATUS_UCODE_RELOAD, 1), (F.EST_LANE_FENCED, 255)] { devReset with est := { devReset.est with testing := 255 } }

/-- A member in role `k` with the peer link up, or down. -/
def devPair (k : Nat) : Dev := up [(F.PEER_STATUS_LINK, 2), (F.PEER_STATUS_VER, 2), (F.PEER_CTRL_EN, 1), (F.PEER_CTRL_IN_EN, 1),
  (F.PEER_STATUS_LANE_0, 1), (F.PEER_STATUS_LANE_1, 1), (F.EST_CTRL_ALIGN_EN, 1)]
  { devReset with pair := { devReset.pair with mode := 1, role := k } }
def devAlone (k : Nat) : Dev := { devReset with pair := { devReset.pair with mode := 1, role := k } }

/-- One of a pair with the link up, which hears its partner. -/
def onLink (d : Dev) : Dev := up [(F.PEER_STATUS_LINK, 2)] { d with pair := { d.pair with mode := 1 } }

/-- Protection running in zone state `z`. -/
def devZone (z : Nat) : Dev := up [(F.PROT_STATUS_ZSTATE, z), (F.PROT_STATUS_SAFE_N, 1)] { devReset with prot := { devReset.prot with runs := true } }

/-- Strings 0 and 47 with their sequencers in state `k`. -/
def devSeq (k : Nat) : Dev := each [0, 47] (fun n => fset (F.PROT_SEQ_STATE n) k) (devZone 2)

/-- Load channels 0 and 31 in state `k` with the output on. -/
def devCh (k : Nat) : Dev := each [0, 31] (fun n d => up [(F.LSW_CH_STAT_STATE n, k), (F.LSW_CH_STAT_OUT n, 1)] d) devReset

/-- Chains 0 and 15 in state `k` at version 2, every chain enabled. -/
def devKz (k : Nat) : Dev := each [0, 15] (fun n d => up [(F.KZC_CH_STAT_STATE n, k), (F.KZC_CH_STAT_VER n, 2), (F.KZC_CH_STAT_FIRST_B n, 0)] d)
  (up [(F.KZC_CTRL_CH_EN, 0xFFFF)] devReset)

/-- Angle fields. -/
def devAng (trk src : Nat) : Dev := up [(F.ANG_STATUS_TRK, trk), (F.ANG_STATUS_SRC, src), (F.ANG_STATUS_QUALIFIED, 1),
  (F.ANG_HOLD_CYC_CYC, 0xFFFFFF), (F.ANG_HOLD_MAX, 0xFFFF)] devReset
def devHeld : Dev := up [(F.ANG_STATUS_HELD, 1), (F.ANG_PTP_EPOCH_NS_NS, 1000000000)] devReset

/-- CAN channels 0 and 5 in mode `m`, error state `e` and transceiver state `x`. -/
def devCan (m e x : Nat) : Dev := each [0, 5] (fun n d => up [(F.CAN_CTRL_MODE n, m), (F.CAN_STATUS_EFF_MODE n, m), (F.CAN_STATUS_ESTATE n, e),
  (F.CAN_XCVR_STATE n, x), (F.CAN_XCVR_WAKE_EN n, 1), (F.CAN_CFG_TTL_MS n, 5)] d) devReset

/-- The network sleep manager in state `k`. -/
def devNsm (k : Nat) : Dev := up [(F.NSM_CTRL_EN, 1), (F.NSM_STATUS_STATE, k)] devReset

/-- The update engine in state `k`. -/
def devUpd (k : Nat) : Dev := up [(F.UPD_STATUS_STATE, k)] devReset
def devTrial : Dev := up [(F.UPD_STATUS_TRIAL, 1), (F.TL_STAT_STATE 0, 3)]
  { devReset with pwr := { devReset.pwr with booted := true }, upd := { devReset.upd with asked := true } }

/-- Estimator work on frame 7 under way, and its publication. -/
def devWork : Dev := { devReset with est := { devReset.est with work := some 7, considered := some 7 } }
def devPub : Dev := { devReset with est := { devReset.est with pub := some 7 } }

/-- Harts in RUN: in HS mode with the gate region of DRAM open; in secure M-mode with W and ACT; with interrupts enabled and pending. -/
def devGate : Dev := up [(F.RC_BASE_BASE 8 0, 0x800000), (F.RC_CFG_SIZE 8 0, 31), (F.RC_CFG_EN 8 0, 1), (F.RC_CFG_S_X 8 0, 1),
  (F.RC_CFG_GATE 8 0, 1)] (devHart (fun x => { x with arch := { x.arch with priv := 1, w := false } }))
def devActing : Dev := devHart (fun x => { x with arch := { x.arch with priv := 3, w := true, wstatus := 1 } })
def devUser : Dev := devHart (fun x => { x with arch := { x.arch with priv := 0, w := false } })
def devIrq : Dev := devHart (fun x => { x with arch := { x.arch with priv := 3, csr := [(0x300, 8), (0x304, -1), (0x1300, 8), (0x1304, -1)] } })
def devLine : Dev := up [(F.WLD_SECBLK_SEC, 4), (F.SLOT_STAT_FIRED 31, 1), (F.SLOT_CTRL_TRESTLE 31, 4)] devIrq
def devDin : Dev := each (List.range 5) (fun t => fset (F.TL_DIN_SRC t 3 3) 47) devReset
def devTest : Dev := up [(F.TL_STAT_STATE 0, 3)] (devTl 2)
def devHalted : Dev := up [(F.DBG_EFF_EFF, 15)] (devHart (fun x => { x with halted := true }))
def devDebug (e : Nat) : Dev := up [(F.DBG_EFF_EFF, e)] (devTl 3)

/-- A load out, or its data or error come; a committed store. -/
def busLoad : BusLoad := { op := {}, addr := 0x80000000, attr := 0, data := some 1 }
def busFault : BusLoad := { op := {}, addr := 0x80000000, attr := 0, error := some (3, 0, 0x80000004) }
def sbEntry : SbEntry := { addr := 0x80000000, size := 8, data := 5, attr := 0x31, committed := true }
def devLoad (l : BusLoad) : Dev := devHart (fun x => { x with load := some l })
def dramOpen (d : Dev) : Dev := up [(F.RC_BASE_BASE 8 0, 0x800000), (F.RC_CFG_SIZE 8 0, 31), (F.RC_CFG_EN 8 0, 1), (F.RC_CFG_S_W 8 0, 1)] d
def devStore : Dev := dramOpen (devHart (fun x => { x with store := [sbEntry] }))

/-- Cabinet slots 0 and 15 filled, with EXP as given and LK as given. -/
def devCab (e l : Bool) : Dev :=
  { devReset with worlds := { devReset.worlds with cab := [(0, { bytes := some [7, 9], exp := e, lk := l }), (15, { bytes := some [7], exp := e, lk := l })] } }

/-- A member in FREE, or in the pair, that has heard the partner. -/
def devHeard (r : RoleReport) : Dev := up [(F.PROT_STATUS_ZSTATE, 1)] { devPair 2 with pair := { (devPair 2).pair with report := some r } }

/-- A handshake on string 47. -/
def shake (p : Nat) : Handshake := { string := 47, role := 1, on := true, cycle := 0xFFFFFFFF, phase := p }
def devStep (p : Nat) : Dev := onLink { devReset with prot := { devReset.prot with hs := some (shake p) } }

/-- A string that may close: measured, enabled, the zone armed. -/
def devReady : Dev := each [0, 47] (fun n => fput (F.PROT_STR_A_EN n) true)
  { devZone 2 with acq := { (devZone 2).acq with str := [(0, { once := true }), (47, { once := true })] } }
def devQueued : Dev := { devZone 2 with prot := { (devZone 2).prot with queue := [47] } }

def devSlot : Dev := each [0, 31] (fun n d => up [(F.SLOT_CTRL_EN n, 1), (F.SLOT_CNT_CNT n, 0xFFFF)] d) devReset
def devHeal : Dev := each [0, 15] (fun n d => chainPut n { chainOf n d with healRun := 0xFFFFFF, fillDue := true } d)
  (up [(F.KZC_REENUM_CYCLES, 1), (F.KZC_CH_CTRL_COUNT 15, 48), (F.ACQ_POS_EN 15 47, 1)]
    (posPut 15 47 { awaits := true } (devKz 4)))

/-- A burst of position 47 of version 2 as it comes over the line, and without its CRC. -/
def burst : List Byte := [0x10, 2, 47] ++ List.replicate 537 0
def burstRaw : List Byte := burst ++ leBytes 4 (crc32c burst)
def devBurst : Dev := { devKz 4 with kzc := { (devKz 4).kzc with collect := some (burstFrame burst) } }

/-- Chain 15 in the ring with no accepted burst for long. -/
def devIdle : Dev := chainPut 15 { chainOf 15 (devKz 4) with idle := 0xFFFF } (devKz 4)

/-- Chain 15 with a numbering run under way. -/
def devNumbering (r : EnumRun) (k : Nat) : Dev := up [(F.KZC_CTRL_CH_EN, 0x8000), (F.KZC_CH_STAT_STATE 15, k)] (chainPut 15 { chainOf 15 devReset with run := some r } devReset)

/-- The member that leads, with chain 15 alone enabled and broken. -/
def devLeads : Dev := up [(F.KZC_CTRL_CH_EN, 0x8000), (F.KZC_CH_STAT_STATE 15, 5)] (devPair 3)

/-- Chain 15's bridge: an access, a service transaction, a read that waits. -/
def kzAcc : KzAcc := { origin := .load 4, write := false, addr := 0x43C00000, size := 2, attr := 1, need := 1, total := 1 }
def svcRun : SvcRun := { write := false, pos := 0, addr := 0, data := 0, seq := 1, tries := 0 }
def heldRead : HeldRead := { tl := 4, attr := 1, addr := 0x43C00000, size := 2, data := some 5, error := none, clk := 0 }
def devBridge (r : Option SvcRun) (q : List KzAcc) : Dev :=
  let d := chainPut 15 { chainOf 15 (devKz 4) with svc := r } (devKz 4)
  { d with brg := { d.brg with kz := [(15, q)] } }

/-- The bench at work on frame 7: an entry of chain 15, position 47, whose next cell is `c` after `n` tries. -/
def estEntry : EstEntry :=
  { frame := 7, chain := 15, pos := 47, string := 47, burst := List.replicate 300 0, cur := 0, phP := true, phQ := true
    unexcP := false, unexcQ := false, ordP := 0, ordQ := 0, inc := 0, dlyPos := 0, dlyHead := 0 }
def devCells (c n : Nat) : Dev := up [(F.ACQ_POS_NCELL 15 47, 32)]
  { devReset with est := { devReset.est with work := some 7, queue := [estEntry], cell := c, tries := n } }

/-- Chain 15 in the window of a repeat: position 47 alone is configured, and its burst has not come. -/
def devGap : Dev :=
  let d := up [(F.KZC_CH_CTRL_COUNT 15, 48), (F.ACQ_POS_EN 15 47, 1), (F.KZC_SLOT_LEN, 0), (F.KZC_RETX_MAX, 1)] (devKz 4)
  { d with clk := 20000, kzc := { d.kzc with collect := some 7 } }

/-- The count at which frames close, with the last one collected. -/
def devClosed : Dev :=
  let d := advanceTo devReset.ang.win.acqEnd devReset
  { devReset with acq := { devReset.acq with closed := some ((cycleNow d + 2 ^ 32 - 1) % 2 ^ 32) } }
def devRunning : Dev := up [(F.EST_CTRL_EN, 1), (F.EST_STATUS_RUNNING, 1)] devReset

/-- Low-side outputs 0 and 15 on; a reconfiguration whose CRC differs; a string bound to channels 0 and 31, locked. -/
def devLso : Dev := up [(F.IOX_LSO_STAT_STATE, 0x8001)] devReset
def devReconf : Dev := up [(F.PROT_RECONF_CRC_CRC, 1)] (devZone 6)
def devBound : Dev := up [(F.PROT_STR_A_EN 47, 1), (F.PROT_STR_A_NEG_CH 47, 31), (F.PROT_STR_A_PRE_CH 47, 0), (F.LSW_CTRL_LOCK, 1)] devReset

/-- Channel 31 in state `k` with further fields, in zone RUN; with its in-rush window open. -/
def devChan (k : Nat) (l : List (Fld × Nat)) : Dev := up ([(F.LSW_CH_STAT_STATE 31, k), (F.LSW_CH_STAT_OUT 31, 1)] ++ l) (devZone 2)
def devInrush : Dev := { devChan 1 [] with lsw := { (devChan 1 []).lsw with chans := [(31, { inrush := true })] } }
def devOpen : Dev := { devChan 1 [] with lsw := { (devChan 1 []).lsw with chans := [(31, { lowMs := 0xFFFF })] } }
def devSupply : Dev := { devReset with lsw := { devReset.lsw with uv := some { clk := 0, extreme := 9 }, ov := some { clk := 0, extreme := 9 }, noGround := true } }

/-- A rail down; a sealed sleep with the hutch clock running; an input that wakes. -/
def devDown : Dev := { devReset with pwr := { devReset.pwr with down := true } }
def devDripping : Dev := fput F.PWR_STATUS_HCLK true (devDeep 3)
def devWakes : Dev := { devReset with pwr := { devReset.pwr with wakes := 2 ^ 48 - 1 } }

/-- Both Ethernet ports on, tagged as `t`, with an IPv4 address, and AIX on. -/
def devNet (t : Nat) : Dev := each [0, 1] (fun e d => up [(F.ETH_CTRL_EN e, 1), (F.ETH_CTRL_IPV4_EN e, 1), (F.ETH_CTRL_IPV6_EN e, 1),
    (F.ETH_IPV4_ADDR e, 0x0100000A), (F.ETH_CTRL_PTP_EN e, 1), (F.ETH_STATUS_PTP_SYNC e, t), (F.ETH_VLAN_EN e, t)] d)
  (up [(F.AIX_CTRL_EN, 1), (F.AIX_CTRL_ETH0, 1), (F.AIX_CTRL_ETH1, 1), (F.AIX_CTRL_TWP, 1), (F.AIX_DCFG_TWP 0, 1), (F.AIX_DCFG_EN 0, 1),
    (F.AIX_DCFG_EN 7, 1), (F.AIX_DACL_MASK 7, 1), (F.TL_STAT_STATE 0, 3), (F.PROT_STATUS_ZSTATE, 1)]
    { devReset with pwr := { devReset.pwr with booted := true } })
def devTwp : Dev := { devNet 0 with aix := { (devNet 0).aix with twp := some [7] } }

/-- The pair link with a request to the partner or one of the partner. -/
def peerReq : PeerReq := { origin := .load 4, write := false, addr := 0x50000000, target := 0, size := 4, data := 0, attr := 1, mode := 0 }
def devAsks (r : PeerReq) : Dev := { devPair 3 with brg := { (devPair 3).brg with peerOut := [r, r, r, r, r, r, r, r], unacked := 32 } }
def devAsked (x : PeerIn) : Dev := dramOpen (up [(F.RC_CFG_S_R 8 0, 1), (F.PEER_IN_ATTR_ATTR, 0x31)] { devPair 4 with brg := { (devPair 4).brg with peerIn := [x] } })

/-- CAN channel 5 in NORMAL with a frame of page 1 queued. -/
def canTx : CanTx := { frame := { id := 0x7FF }, page := 1, tag := 255, qat := 0 }
def devTx (x : CanTx) (l : List (Fld × Nat)) : Dev := up ([(F.CAN_CTRL_MODE 5, 1), (F.CAN_STATUS_EFF_MODE 5, 1), (F.CAN_XCVR_STATE 5, 0)] ++ l)
  { devReset with nsm := { devReset.nsm with cans := [(5, { queue := [x] })] } }
/-- Routing entry 4095 of kind `k` to destination `t`, for channel 5. -/
def devRoute (k t : Nat) : Dev := up [(F.NSM_RT_1_KIND 4095, k), (F.NSM_RT_1_CH 4095, 5), (F.NSM_RT_1_DEST 4095, t), (F.NSM_RT_0_ID 4095, 0x7FF),
  (F.NSM_RT_1_OWNER 4095, 7), (F.CAN_CFG_OWNER 5, 7), (F.CAN_CTRL_MODE 5, 1), (F.CAN_STATUS_EFF_MODE 5, 1), (F.CAN_XCVR_STATE 5, 0)] devReset
def devRegs : Dev := up [(F.NSM_REG_XWAKE_REG, 1), (F.CAN_XCVR_STATE 5, 2), (F.CAN_XCVR_WAKE_EN 5, 1), (F.NSM_REG_LEVEL, 0)] devReset
def devVotes : Dev := up [(F.NSM_CTRL_EN, 1), (F.NSM_VOTE_AWAKE 7, 1)] devReset
def devCapped : Dev := up [(F.NSM_CTRL_EN, 1), (F.NSM_CAP_CAP_S, 1), (F.NSM_NODE_AWAKE 63, 1)] devReset
def devSleeps : Dev := up [(F.NSM_CTRL_TARGET, 1)] (devNsm 3)

/-- The recorder open with `l` waiting; with a run; with a mark due; with the ring holding sequence number 5. -/
def recEvent : RecEvent := { code := 0xFFF, p1 := 1, p2 := 2, p3 := 3 }
def recRun (n : Nat) : RecRun := { code := 0xFFF, p1 := 1, p2 := 2, sw := false, tl := 0, count := n, p3 := 3, optime := 4, last := 5 }
def devRec (l : List RecEvent) (lost : Nat) (r c : Option RecRun) : Dev := up [(F.REC_STATUS_OPEN, 1), (F.REC_CFG_MARK_MIN, 1), (F.PWR_OPSEC_SEC, 60),
    (F.REC_HELD_HELD, 1), (F.REC_NEWEST_SEQ, 5), (F.REC_OLDEST_SEQ, 5)]
  { devReset with side := { devReset.side with intake := l, lostNow := lost, run := r, carried := c } }

/-! ### Aidex -/

/-- An open session of drawer 0, a packet of it with payload `p`, and a device that holds it, with further fields. -/
def session : AixSession := { id := 5, ver := 3, src := 7, sport := 0, host := 0, seq := 0, opened := 0, last := 0 }
def packet (p : List Byte) : AixPacket := { via := 1, src := 7, ver := 3, seq := 9, session := 5, payload := p }
def withSession (d : Dev) : Dev := { d with aix := { d.aix with sessions := [(0, some session)] } }
def devAix (l : List (Fld × Nat)) : Dev := withSession (up l (devNet 0))

/-- A datagram of version 3 with the given opcode bytes and no payload; its CRC right when `r`. -/
def datagram (k : Byte) (r : Bool) : List Byte :=
  let h : List Byte := [3, k, 4, 0, 1, 0, 0, 0, 0, 0, 0, 0, 0, 0, 0, 0]
  h ++ leBytes 4 (crc32c h + if r then 0 else 1)

/-- A record of sequence number `n` with a right CRC. -/
def recordOf (n : Byte) : List Byte :=
  let h : List Byte := [1, 1, 0, 0, n] ++ List.replicate 25 0
  h ++ leBytes 2 (crc16 h)

/-- Chain 15 with 48 positions, mastered from both ends. -/
def chainLines : List (Fld × Nat) := [(F.KZC_CH_CTRL_COUNT 15, 48), (F.KZC_CH_STAT_STATE 15, 4), (F.KZC_CH_STAT_FIRST_B 15, 0)]

/-- A header of class `c` for an image of no bytes (one byte and one block in a BEGIN, `l`), with the hash `h`. -/
def updHeader (c : Byte) (h : List Byte) (l : Byte := 0) : List Byte :=
  [0x47, 0x5A, 0x46, 0x57, 1, 0, 0, 0, c, 0x7F, 0, 0, 1, 0, 0, 0] ++ List.replicate 8 0 ++ [l, 0, 0, 0, l, 0, 0, 0] ++ [0, 0, 0, 0, 1, 3, 1, 2, 1, 2, 2, 2,
    0x00, 0x71, 0xB1, 0] ++ List.replicate 16 0 ++ h ++ List.replicate (256 - h.length) 0

/-- An update COMPLETE with header `h`, in pair role `r` (0 alone). -/
def devStaged (h : List Byte) (r : Nat) : Dev :=
  let d := devAix [(F.UPD_STATUS_STATE, 3), (F.PEER_STATUS_LINK, 2)]
  { d with upd := { d.upd with header := h }, pair := { d.pair with role := r, mode := r } }

/-- Asleep in S3 with VAUX below 16 V, a wake source asserted and a wake decided. -/
def measNone : SleepMeas := { ticks := 0, fExit := 0 }
def devLow : Dev := { devDeep 3 with pwr := { (devDeep 3).pwr with low := true, lowWake := some measNone } }
def devLowWaits : Dev := { devDeep 3 with pwr := { (devDeep 3).pwr with low := true } }

/-- TL1 to TL4 READY with a boot descriptor in a valid customer area. -/
def bootOne : BootDesc := { tl := 1, ofs := 0, len := 4, dest := dramBase, entry := dramBase }
def devBoots : Dev := fput F.UPD_STATUS_CUST_VALID true { devTl 1 with cfg := { (devTl 1).cfg with boots := [bootOne] } }

/-! ### A test of TL0 that fails: its count of cycles is a free value, so the end is not found by evaluation -/

/-- The state of TL0 and the zone of `e` are those of `d`. -/
def same (d e : Dev) : Prop := tlState 0 e = tlState 0 d ∧ zone e = zone d

theorem same_trans {d e f : Dev} (h : same d e) (k : same e f) : same d f := ⟨k.1.trans h.1, k.2.trans h.2⟩

theorem same_fset (f : Fld) (v : Nat) (d : Dev) (hz : f.reg ≠ R.PROT_STATUS)
    (ht : f.reg ≠ R.TL_STAT 0 ∨ (f.reg = R.TL_STAT 0 ∧ f.lo + f.width ≤ 32 ∧ 3 ≤ f.lo)) : same d (fset f v d) := by
  refine ⟨?_, fget_fset_ne _ _ hz⟩
  rcases ht with h | ⟨h, hw, hl⟩
  · exact fget_fset_ne _ _ h
  · exact fget_fset_apart _ _ h hw (.inl hl)

theorem leaves {c p1 : Nat} {f : Fld} (h : (f.reg != R.REC_LOST && (eventFlag c p1).all (fun e => e.1 != f.reg)) = true) :
    EventLeaves c p1 f := by
  rw [Bool.and_eq_true] at h
  refine ⟨bne_iff_ne.mp h.1, fun e he => ?_⟩
  have := h.2
  rw [he] at this
  exact bne_iff_ne.mp this

theorem same_recordC (c p1 p2 : Nat) (d : Dev) (ht : EventLeaves c p1 (F.TL_STAT_STATE 0)) (hz : EventLeaves c p1 F.PROT_STATUS_ZSTATE) :
    same d (recordC c p1 p2 d) := ⟨recordC_fget _ _ _ _ _ ht, recordC_fget _ _ _ _ _ hz⟩

theorem regPut_fget_ne {a : Nat} {f : Fld} (w : Word) (d : Dev) (h : a ≠ f.reg) : fget f (regPut a w d) = fget f d := by
  unfold fget
  rw [regGet_regPut_ne _ _ h]

theorem same_tlPut (t : Nat) (x : Trestle) (d : Dev) (h : t < 5) : same d (tlPut t x d) := by
  have k : ∀ t, t < 5 → (F.TL_STAT_SB_USED t).reg ≠ R.PROT_STATUS ∧ ((F.TL_STAT_SB_USED t).reg ≠ R.TL_STAT 0 ∨
    ((F.TL_STAT_SB_USED t).reg = R.TL_STAT 0 ∧ (F.TL_STAT_SB_USED t).lo + (F.TL_STAT_SB_USED t).width ≤ 32 ∧
      3 ≤ (F.TL_STAT_SB_USED t).lo)) := by decide
  exact same_trans ⟨rfl, rfl⟩ (same_fset _ _ _ (k t h).1 (k t h).2)

theorem same_each {α : Type} (f : α → Dev → Dev) (l : List α) (h : ∀ a ∈ l, ∀ d, same d (f a d)) (d : Dev) : same d (each l f d) := by
  induction l generalizing d with
  | nil => exact ⟨rfl, rfl⟩
  | cons a l ih =>
    exact same_trans (h a (List.mem_cons_self ..) d) (ih (fun b hb => h b (List.mem_cons_of_mem _ hb)) (f a d))

theorem same_notices (d : Dev) : same d (notices 0 d) := by
  refine same_each _ _ (fun u hu e => ?_) d
  have hu : u < 5 := List.mem_range.mp (List.mem_filter.mp hu).1
  unfold localIrq
  split
  · exact same_trans (same_tlPut u _ e hu) ⟨rfl, rfl⟩
  · exact ⟨rfl, rfl⟩

theorem same_statePut (t st : Nat) (d : Dev) (h : t < 5) (h0 : t ≠ 0) : same d (tlStatePut t st d) := by
  have k : ∀ t, t < 5 → t ≠ 0 → ((F.TL_STAT_STATE t).reg ≠ R.PROT_STATUS ∧ (F.TL_STAT_STATE t).reg ≠ R.TL_STAT 0) ∧
    ((F.CPX_STATUS_STATE t).reg ≠ R.PROT_STATUS ∧ (F.CPX_STATUS_STATE t).reg ≠ R.TL_STAT 0) := by decide
  have k := k t h h0
  exact same_trans (same_fset _ _ _ k.1.1 (.inl k.1.2)) (same_fset _ _ _ k.2.1 (.inl k.2.2))

theorem fault_state (d : Dev) (ha : (tlOf 0 d).after = 0) (hz : zone d = 0) : tlState 0 (tlFault 0 6 0 0 d) = 6 := by
  unfold tlFault
  simp only [ha, BEq.rfl, Bool.and_self, if_true]
  have e1 : same d (tlHalt 0 ((6 : Nat) != 4) d) := same_tlPut 0 _ d (by decide)
  have z2 : zone (tlStatePut 0 6 (tlHalt 0 ((6 : Nat) != 4) d)) = 0 := by
    refine Eq.trans ?_ (e1.2.trans hz)
    exact (fget_fset_ne _ _ (by decide)).trans (fget_fset_ne _ _ (by decide))
  have t2 : tlState 0 (tlStatePut 0 6 (tlHalt 0 ((6 : Nat) != 4) d)) = 6 :=
    (fget_fset_ne _ _ (by decide)).trans (fget_fset_same _ _ _ (by decide))
  have e3 := same_trans (same_trans (same_fset (F.TL_STAT_CAUSE 0) 6 (tlStatePut 0 6 (tlHalt 0 ((6 : Nat) != 4) d)) (by decide)
    (.inr (by decide))) (same_recordC 0x0701 0 (6 + if (6 : Nat) = 0 ∨ (6 : Nat) = 5 then 0 * 256 + 0 * 4096 else 0) _ (leaves (by decide)) (leaves (by decide))))
    (same_notices _)
  have z3 := e3.2.trans z2
  unfold engineHold
  rw [if_pos ⟨by rw [z3]; decide, by rw [z3]; decide⟩]
  exact e3.1.trans t2

/-- The tests of TL1 to TL4 after it. -/
theorem same_later (d : Dev) : same d (each [1, 2, 3, 4] (fun t d => testDone t .pass (tlTest t 0 d)) d) := by
  refine same_each _ _ (fun t ht e => ?_) d
  have h : t < 5 ∧ t ≠ 0 := by
    have : ∀ t ∈ [1, 2, 3, 4], t < 5 ∧ t ≠ 0 := by decide
    exact this t ht
  have e1 : same e (tlTest t 0 e) := same_trans (same_tlPut t _ e h.1) (same_statePut t 2 _ h.1 h.2)
  refine same_trans e1 ?_
  have k : ∀ t, t < 5 → t ≠ 0 → R.TL_TEST t ≠ R.TL_STAT 0 ∧ R.TL_TEST t ≠ R.PROT_STATUS ∧
    R.TL_STAT t ≠ R.TL_STAT 0 ∧ R.TL_STAT t ≠ R.PROT_STATUS := by decide
  have k := k t h.1 h.2
  unfold testDone
  split
  · exact ⟨rfl, rfl⟩
  · dsimp only
    have e2 : ∀ x, same x (regPut (R.TL_TEST t) 0 x) := fun x =>
      ⟨regPut_fget_ne _ x k.1, regPut_fget_ne _ x k.2.1⟩
    have e3 := same_trans (same_trans (e2 (tlTest t 0 e)) (same_fset (F.TL_STAT_TEST_OK t) (b2n true) _ k.2.2.2 (.inl k.2.2.1)))
      (same_fset (F.TL_TEST_TEST_CYC t) 4096 _ k.2.1 (.inl k.1))
    refine same_trans e3 ?_
    have e4 : ∀ x, same x (tlRelease t x) := fun x => same_trans (same_tlPut t _ x h.1) (same_statePut t 3 _ h.1 h.2)
    split
    · rw [if_neg h.2]; exact same_statePut t 1 _ h.1 h.2
    · exact e4 _
    · exact same_statePut t _ _ h.1 h.2

theorem boot_fails (rs : List TestResult) (d : Dev) (hs : rs = [.fail 0 0 false false]) (ha : (tlOf 0 (tlTest 0 0 d)).after = 0)
    (hz : zone d = 0) (h2 : tlState 0 (tlTest 0 0 d) = 2) : (trestlesTest rs d).1 = false := by
  subst hs
  have e1 : zone (tlTest 0 0 d) = 0 :=
    (fget_fset_ne _ _ (by decide)).trans ((fget_fset_ne _ _ (by decide)).trans ((same_tlPut 0 _ d (by decide)).2.trans hz))
  have s1 : tlState 0 (testDone 0 (.fail 0 0 false false) (tlTest 0 0 d)) = 6 := by
    unfold testDone
    rw [if_neg (not_not_intro h2)]
    refine fault_state _ ?_ ?_
    · refine Eq.trans ?_ ha
      exact congrArg (fun l => (tabGet (fun _ => ({} : Trestle)) l 0).after) (record_keeps (·.trestles) (fun _ _ => rfl) (fun _ _ _ => rfl) _ _ _ _ _)
    · refine (same_recordC _ _ _ _ (leaves (by decide)) (leaves (by decide))).2.trans ?_
      exact (fget_fset_ne _ _ (by decide)).trans ((fget_fset_ne _ _ (by decide)).trans
        ((regPut_fget_ne _ _ (by decide)).trans e1))
  have s2 : tlState 0 (each (List.range 5) (fun t d => testDone t (([.fail 0 0 false false] : List TestResult)[t]?.getD .pass) (tlTest t 0 d)) d) = 6 :=
    (same_later (testDone 0 (.fail 0 0 false false) (tlTest 0 0 d))).1.trans s1
  unfold trestlesTest
  dsimp only
  rw [s2]
  rfl

/-! ### Hypotheses of the completion statements -/

theorem witness_CutBlockTakesNoCommand :
    (fun (d : Dev) => cut 5 d = true) devCut ∧
    (fun (d : Dev) => cut 4 d = true) devCut ∧
    (fun (d : Dev) => cut 7 d = true) devCut ∧
    (fun (d : Dev) => cut 10 d = true) devCut ∧
    (fun (d : Dev) => cut 11 d = true) devCut ∧
    (fun (d : Dev) => cut 12 d = true) devCut ∧
    (fun (e : Fin 2) (d : Dev) => cut (13 + e.val) d = true) (1 : Fin 2) devCut ∧
    (fun (n : Fin 6) (d : Dev) => cut (16 + n.val) d = true) (5 : Fin 6) devCut ∧
    (fun (d : Dev) => cut 22 d = true) devCut ∧
    (fun (d : Dev) => cut 24 d = true) devCut ∧
    (fun (d : Dev) => cut 25 d = true) devCut ∧
    (fun (d : Dev) => cut 27 d = true) devCut := by
  and_intros <;> decide

theorem witness_AngleStandsInDeepSleep :
    (fun (d : Dev) => clocksRun d = false) (devDeep 2) :=
  by decide

theorem witness_TrestleAccessesComplete :
    (fun (attr : Byte) (reg : BitVec 21) (w : Word) (d : Dev) =>
  let a := 0x20000000 + reg.toNat
  let attr := attr.toNat ||| 0x80
  accessTarget a 4 = some 3 ∧ granted 3 a 4 1 attr d = true ∧ reg.toNat % 4 = 0 ∧ slotDead (reg.toNat / 0x10000) d = false ∧
    cmtWanted a 4 w.toNat attr d = false) (0xFF : Byte) (0 : BitVec 21) (0 : Word) devReset :=
  by dsimp only; decide

theorem witness_TrestleAccessesComplete_by1 :
    (fun (t : Fin 5) (l : BusLoad) (v : Nat) (d : Dev) => (tlOf t.val d).load = some l ∧ l.error = none ∧ l.data = some v ∧ tlIdle t.val d = false) (4 : Fin 5) busLoad 1 (devLoad busLoad) ∧
    (fun (t : Fin 5) (l : BusLoad) (e : Nat × Nat × Nat) (d : Dev) => (tlOf t.val d).load = some l ∧ l.error = some e ∧ tlIdle t.val d = false) (4 : Fin 5) busFault (3, 0, 0x80000004) (devLoad busFault) ∧
    (fun (t : Fin 5) (e : SbEntry) (rest : List SbEntry) (d : Dev) => (tlOf t.val d).store = e :: rest ∧ e.committed = true ∧ cmtWanted e.addr e.size e.data e.attr d = false) (4 : Fin 5) sbEntry [] devStore := by
  and_intros <;> decide

theorem witness_TrestleExecutionCompletes :
    (fun (t : Fin 5) (f : Option (Fin 32 × DWord)) (pa : Nat) (m : List Host.Cell) (d : Dev) => tlIdle t.val d = false ∧ (tlOf t.val d).load = none ∧ fetchPa t.val m d = .ok pa ∧ badMeets pa 2 d = none ∧ (f = none ∨ fsOff (tlOf t.val d).arch = false)) (4 : Fin 5) none 0 [] (devTl 3) ∧
    (fun (t : Fin 5) (cause : BitVec 6) (d : Dev) => tlIdle t.val d = false ∧ (tlOf t.val d).load = none ∧ (cause = 3 ∨ cause = 7 ∨ irqPends t.val cause.toNat d = true) ∧ irqTaken t.val cause.toNat (tlOf t.val d).arch = true) (4 : Fin 5) (3 : BitVec 6) devIrq ∧
    (fun (t : Fin 5) (group : BitVec 4) (bit : BitVec 7) (d : Dev) => tlState t.val d = 3 ∧ (tlOf t.val d).wit = [] ∧ bit.toNat < groupBits group.toNat) (4 : Fin 5) (0 : BitVec 4) (0 : BitVec 7) (devTl 3) ∧
    (fun (t : Fin 5) (d : Dev) => tlState t.val d = 4 ∧ (tlOf t.val d).stepDue = false ∧ (tlOf t.val d).haltDue = false) (4 : Fin 5) (devTl 4) ∧
    (fun (t : Fin 5) (d : Dev) => tlState t.val d = 4) (4 : Fin 5) (devTl 4) ∧
    (fun (t : Fin 5) (d : Dev) => tlState t.val d ≠ 4) (4 : Fin 5) devReset := by
  and_intros <;> decide

theorem witness_TrestleControlCompletes :
    (fun (t : Fin 5) (k : Fin 16) (d : Dev) => fget (F.TL_DIN_SRC t.val (k.val / 4) (k.val % 4)) d < 48) (4 : Fin 5) (15 : Fin 16) devDin ∧
    (fun (t : Fin 5) (d : Dev) => t ≠ 0 ∧ tlState t.val d = 1 ∧ bootOf t.val d = none) (4 : Fin 5) (devTl 1) ∧
    (fun (t : Fin 5) (b : BootDesc) (d : Dev) => t ≠ 0 ∧ tlState t.val d = 1 ∧ bootOf t.val d = some b) (1 : Fin 5) bootOne devBoots ∧
    (fun (t : Fin 5) (d : Dev) => t ≠ 0 ∧ (tlState t.val d = 5 ∨ tlState t.val d = 6)) (4 : Fin 5) (devTl 5) ∧
    (fun (t : Fin 5) (d : Dev) => t ≠ 0 ∧ tlState t.val d = 3) (4 : Fin 5) (devTl 3) ∧
    (fun (t : Fin 5) (d : Dev) => t ≠ 0 ∧ (tlState t.val d = 1 ∨ tlState t.val d = 5 ∨ tlState t.val d = 6)) (4 : Fin 5) (devTl 1) ∧
    (fun (t : Fin 5) (d : Dev) => t ≠ 0 ∧ tlState t.val d = 2 ∧ (tlOf t.val d).after = 0 ∧ tl0Runs d = true) (4 : Fin 5) devTest ∧
    (fun (d : Dev) => tlState 0 d = 5 ∧ flag F.CPX_CTRL_TL0_RESET d = true ∧ d.pwr.down = false) (devTl 5) ∧
    (fun (d : Dev) => tlState 0 d ≠ 5 ∨ flag F.CPX_CTRL_TL0_RESET d = false) devReset := by
  and_intros <;> decide

theorem witness_GatewayCompletes :
    (fun (t : Fin 5) (rs1 : DWord) (m : List Host.Cell) (d : Dev) => tlIdle t.val d = false ∧ irqNext t.val d = none ∧ wgateTrap (tlOf t.val (epochCommit t.val d)).arch = none ∧ wgateReason rs1.toNat m (epochCommit t.val d) = none) (4 : Fin 5) (0x80000000 : DWord) [(0x80000000, 0x0B), (0x80000001, 0x10)] devGate ∧
    (fun (t : Fin 5) (rs1 : DWord) (why : Nat) (m : List Host.Cell) (d : Dev) => tlIdle t.val d = false ∧ irqNext t.val d = none ∧ wgateTrap (tlOf t.val (epochCommit t.val d)).arch = none ∧ wgateReason rs1.toNat m (epochCommit t.val d) = some why) (4 : Fin 5) (0xFFFFFFFFFFFFFFFF : DWord) 3 [] devGate ∧
    (fun (t : Fin 5) (e : Nat) (d : Dev) => tlIdle t.val d = false ∧ irqNext t.val d = none ∧ wgateTrap (tlOf t.val (epochCommit t.val d)).arch = some e) (4 : Fin 5) 2 devActing ∧
    (fun (t : Fin 5) (c : Nat) (d : Dev) => tlIdle t.val d = false ∧ irqNext t.val d = some c) (4 : Fin 5) 11 devLine ∧
    (fun (t : Fin 5) (d : Dev) => tlIdle t.val d = false ∧ (tlOf t.val d).arch.priv = 3 ∧ (tlOf t.val d).arch.w = true ∧ (tlOf t.val d).arch.wstatus.getLsbD 0 = true) (4 : Fin 5) devActing ∧
    (fun (t : Fin 5) (d : Dev) => tlIdle t.val d = false ∧ ((tlOf t.val d).arch.priv ≠ 3 ∨ (tlOf t.val d).arch.w = false ∨ (tlOf t.val d).arch.wstatus.getLsbD 0 = false)) (4 : Fin 5) (devTl 3) ∧
    (fun (t : Fin 5) (d : Dev) => tlIdle t.val d = false) (4 : Fin 5) (devTl 3) ∧
    (fun (t : Fin 5) (d : Dev) => tlIdle t.val d = false ∧ csrTrap t.val 0x5C0 true d = none) (4 : Fin 5) devActing ∧
    (fun (t : Fin 5) (e : Nat) (d : Dev) => tlIdle t.val d = false ∧ csrTrap t.val 0x5C0 true d = some e) (4 : Fin 5) 2 devUser ∧
    (fun (t : Fin 5) (d : Dev) => tlIdle t.val d = true) (4 : Fin 5) devReset := by
  and_intros <;> decide

theorem witness_TenantsAndSecureBlocksComplete :
    (fun (k : Fin 8) (d : Dev) => k.val ≠ 0 ∧ (tenState k.val d = 1 ∨ tenState k.val d = 2)) (7 : Fin 8) (devTen 1) ∧
    (fun (k : Fin 8) (d : Dev) => k.val = 0 ∨ (tenState k.val d ≠ 1 ∧ tenState k.val d ≠ 2)) (7 : Fin 8) devReset ∧
    (fun (k : Fin 8) (d : Dev) => k.val ≠ 0 ∧ tenState k.val d = 3) (7 : Fin 8) (devTen 3) ∧
    (fun (k : Fin 8) (d : Dev) => k.val = 0 ∨ tenState k.val d ≠ 3) (7 : Fin 8) devReset ∧
    (fun (d : Dev) => flag F.WLD_CTRL_LOCK d = false) devReset ∧
    (fun (d : Dev) => flag F.WLD_CTRL_LOCK d = true) devBusy := by
  and_intros <;> decide

theorem witness_CabinetOperationsComplete :
    (fun (t : Fin 5) (w : BitVec 20) (bs : List Byte) (d : Dev) =>
  let x := cabOf (fget F.CAB_CMD_SLOT (cabTaken t.val 1 w.toNat d)) d
  x.bytes = some bs ∧ x.exp = true) (4 : Fin 5) (0xF0 : BitVec 20) [7] (devCab true true) ∧
    (fun (t : Fin 5) (w : BitVec 20) (bs : List Byte) (d : Dev) =>
  let x := cabOf (fget F.CAB_CMD_SLOT (cabTaken t.val 1 w.toNat d)) d
  x.bytes = some bs ∧ x.exp = false) (4 : Fin 5) (0xF0 : BitVec 20) [7] (devCab false true) ∧
    (fun (t : Fin 5) (w : BitVec 20) (d : Dev) =>
  let d1 := cabTaken t.val 2 w.toNat d
  (cabOf (fget F.CAB_CMD_SLOT d1) d).lk = false ∧ 1 ≤ fget F.CAB_CMD_LEN d1 ∧ fget F.CAB_CMD_LEN d1 ≤ 64) (4 : Fin 5) (0x400F0 : BitVec 20) (devCab true false) ∧
    (fun (t : Fin 5) (w : BitVec 20) (d : Dev) =>
  let d1 := cabTaken t.val 2 w.toNat d
  (cabOf (fget F.CAB_CMD_SLOT d1) d).lk = false ∧ (fget F.CAB_CMD_LEN d1 = 0 ∨ 64 < fget F.CAB_CMD_LEN d1)) (4 : Fin 5) (0 : BitVec 20) devReset ∧
    (fun (t : Fin 5) (w : BitVec 20) (key : List Byte) (d : Dev) =>
  let d1 := cabTaken t.val 5 w.toNat d
  (cabOf (fget F.CAB_CMD_SLOT d1) d).bytes = some key ∧ (cabOf (fget F.CAB_CMD_DST d1) d).lk = false ∧
    1 ≤ fget F.CAB_CMD_LEN d1 ∧ fget F.CAB_CMD_LEN d1 ≤ 64) (4 : Fin 5) (0x40EF0 : BitVec 20) [7] (devCab true false) ∧
    (fun (t : Fin 5) (w : BitVec 20) (e : Nat) (d : Dev) =>
  let d1 := cabTaken t.val 5 w.toNat d
  let key := (cabOf (fget F.CAB_CMD_SLOT d1) d).bytes
  let locked := (cabOf (fget F.CAB_CMD_DST d1) d).lk
  (key = none ∧ e = 4) ∨ (key ≠ none ∧ locked = true ∧ e = 3) ∨
    (key ≠ none ∧ locked = false ∧ (fget F.CAB_CMD_LEN d1 = 0 ∨ 64 < fget F.CAB_CMD_LEN d1) ∧ e = 5)) (4 : Fin 5) (0 : BitVec 20) 4 devReset := by
  dsimp only
  and_intros <;> decide

theorem witness_CabinetOperationsComplete_by1 :
    (fun (t : Fin 5) (w : BitVec 20) (d : Dev) => (cabOf (fget F.CAB_CMD_SLOT (cabTaken t.val 1 w.toNat d)) d).bytes = none) (4 : Fin 5) (0 : BitVec 20) devReset ∧
    (fun (t : Fin 5) (w : BitVec 20) (d : Dev) => (cabOf (fget F.CAB_CMD_SLOT (cabTaken t.val 2 w.toNat d)) d).lk = true) (4 : Fin 5) (0 : BitVec 20) (devCab false true) ∧
    (fun (t : Fin 5) (w : BitVec 20) (d : Dev) => (cabOf (fget F.CAB_CMD_SLOT (cabTaken t.val 3 w.toNat d)) d).bytes ≠ none) (4 : Fin 5) (0 : BitVec 20) (devCab true false) ∧
    (fun (t : Fin 5) (w : BitVec 20) (d : Dev) => (cabOf (fget F.CAB_CMD_SLOT (cabTaken t.val 4 w.toNat d)) d).lk = false) (4 : Fin 5) (0 : BitVec 20) devReset ∧
    (fun (t : Fin 5) (w : BitVec 20) (d : Dev) => (cabOf (fget F.CAB_CMD_SLOT (cabTaken t.val 4 w.toNat d)) d).lk = true) (4 : Fin 5) (0 : BitVec 20) (devCab false true) ∧
    (fun (t : Fin 5) (w : BitVec 20) (d : Dev) => (cabOf (fget F.CAB_CMD_SLOT (cabTaken t.val 3 w.toNat d)) d).bytes = none) (4 : Fin 5) (0 : BitVec 20) devReset := by
  and_intros <;> decide

theorem witness_DebugCommandsComplete :
    (fun (d : Dev) => cut 27 d = false) devReset ∧
    (fun (d : Dev) => cut 27 d = false ∧ flag F.DBG_STAT_BUSY d = false) devReset ∧
    (fun (key : Byte) (d : Dev) => key ≠ 0xA7 ∨ flag F.DBG_STAT_BUSY d = true) (0 : Byte) devReset ∧
    (fun (d : Dev) => cut 27 d = false ∧ flag F.DBG_STAT_BUSY d = true) devBusy ∧
    (fun (t : Fin 5) (d : Dev) => cut 27 d = false ∧ tlState t.val d = 3 ∧ (tlOf t.val d).halted = false ∧ dbgMay true (tlOf t.val d).arch.w d = true ∧ (tlOf t.val d).load = none) (4 : Fin 5) (devDebug 1) ∧
    (fun (t : Fin 5) (d : Dev) => cut 27 d = false ∧ tlState t.val d = 3 ∧ (tlOf t.val d).halted = false ∧ dbgMay true (tlOf t.val d).arch.w d = false ∧ (tlOf t.val d).arch.w = true ∧ dbgEff 2 d = true) (4 : Fin 5) (devDebug 4) ∧
    (fun (t : Fin 5) (d : Dev) => cut 27 d = false ∧ (tlOf t.val d).halted = true) (4 : Fin 5) devHalted ∧
    (fun (t : Fin 5) (d : Dev) => cut 27 d = false ∧ (tlOf t.val d).halted = true ∧ dbgMay true (tlOf t.val d).arch.w d = true) (4 : Fin 5) devHalted ∧
    (fun (a : BitVec 40) (size : Fin 65) (c : Nat) (d : Dev) => cut 27 d = false ∧ (dbgMay true true d = true ∨ dbgMay true false d = true) ∧ accessTarget a.toNat size.val = some c ∧ (c = 1 ∨ c = 2 ∨ c = 7 ∨ c = 8) ∧ (c = 2 → flag F.EST_CTRL_EN d = false) ∧ granted c a.toNat size.val 1 (attrOf (dbgMay true true d) 0 3 false false) d = true ∧ badMeets a.toNat size.val d = none) (0x80000000 : BitVec 40) (8 : Fin 65) 8 (dramOpen (devDebug 15)) ∧
    (fun (write : Bool) (d : Dev) => cut 27 d = false ∧ dbgMay write true d = false ∧ dbgMay write false d = false ∧ d.aix.held = false) true devReset ∧
    (fun (x : TapInstr) (d : Dev) => cut 27 d = false ∧ (x = .bypass ∨ x = .idcode ∨ x = .sample)) .sample devReset ∧
    (fun (x : TapInstr) (d : Dev) => cut 27 d = false ∧ (x = .extest ∨ x = .clamp ∨ x = .highz) ∧ dbgEff 0 d = true ∧ (zone d = 0 ∨ zone d = 1)) .highz (devDebug 15) := by
  and_intros <;> decide

theorem witness_PairCommandsComplete :
    (fun (r : RoleReport) (d : Dev) => d.pair.mode ≠ 0 ∧ peerUp d = true ∧ (roleHeard r d).pair.role = 5 ∧ r.barred = false) { slotB := true, role := 2, zone := 1 } (devPair 5) ∧
    (fun (r : RoleReport) (d : Dev) => d.pair.mode ≠ 0 ∧ peerUp d = true ∧ (roleHeard r d).pair.role = 5 ∧ r.barred = true) { slotB := true, barred := true } (devPair 5) ∧
    (fun (r : RoleReport) (d : Dev) => d.pair.mode ≠ 0 ∧ peerUp d = true ∧ ((roleHeard r d).pair.role = 3 ∨ (roleHeard r d).pair.role = 4)) { slotB := true, role := 4, zone := 1 } (devPair 3) ∧
    (fun (r : RoleReport) (d : Dev) => d.pair.mode ≠ 0 ∧ peerUp d = true ∧ (roleHeard r d).pair.role = 2 ∧ r.role = 3 ∧ negotiated (roleHeard r d) = some false) { slotB := true, role := 3, zone := 1 } (devPair 2) ∧
    (fun (r : RoleReport) (d : Dev) => d.pair.mode ≠ 0 ∧ peerUp d = true ∧ (roleHeard r d).pair.role = 2 ∧ (r.role ≠ 3 ∨ negotiated (roleHeard r d) ≠ some false)) { slotB := true, role := 2, zone := 1 } (devPair 2) ∧
    (fun (d : Dev) => d.pair.mode = 0 ∨ peerUp d = false) devReset ∧
    (fun (d : Dev) => heard d = true ∧ d.pair.role = 2 ∧ negotiated d = some true) (devHeard { slotB := true, barred := true }) ∧
    (fun (d : Dev) => heard d = false ∨ d.pair.role ≠ 2 ∨ negotiated d ≠ some true) devReset ∧
    (fun (d : Dev) => d.pair.role = 1 ∧ peerUp d = false ∧ monitorPulses d = false) (devAlone 1) ∧
    (fun (d : Dev) => d.pair.role ≠ 1 ∨ peerUp d = true ∨ monitorPulses d = true) devReset ∧
    (fun (c : Fin 3) (d : Dev) => 2 ≤ d.pair.role ∧ d.pair.role ≤ 4 ∧ lostBy d = some c.val) 2 (devAlone 3) ∧
    (fun (c : Fin 3) (d : Dev) => d.pair.role < 2 ∨ 5 ≤ d.pair.role ∨ lostBy d ≠ some c.val) (2 : Fin 3) devReset ∧
    (fun (g : DigestMsg) (d : Dev) => heard d = true ∧ paired d = true ∧ g.skip = true) { skip := true } (devPair 4) ∧
    (fun (g : DigestMsg) (o : OwnSet) (d : Dev) => heard d = true ∧ paired d = true ∧ g.skip = false ∧ d.pair.sets.find? (fun o => o.frame == g.frame.toNat) = some o) { frame := 7 } { frame := 7 } { devPair 4 with pair := { (devPair 4).pair with sets := [{ frame := 7 }] } } ∧
    (fun (g : DigestMsg) (d : Dev) => heard d = true ∧ paired d = true ∧ g.skip = false ∧ d.pair.sets.find? (fun o => o.frame == g.frame.toNat) = none ∧ digestEarly g d = true) { frame := 7 } (devPair 4) ∧
    (fun (d : Dev) => heard d = false ∨ paired d = false) devReset := by
  and_intros <;> decide

theorem witness_StepHandshakeCompletes :
    (fun (d : Dev) => heard d = true) (devPair 0) ∧
    (fun (n : Fin 48) (d : Dev) => heard d = true ∧ followRefuses n.val d = false) (47 : Fin 48) (onLink devReady) ∧
    (fun (n : Fin 48) (d : Dev) => heard d = true ∧ followRefuses n.val d = true) (47 : Fin 48) (devPair 0) ∧
    (fun (n : Fin 48) (r : Role) (c : Word) (h : Handshake) (d : Dev) => d.prot.hs = some h ∧ h.string = n.val ∧ h.role = roleCode r ∧ h.cycle = c.toNat ∧ h.phase = 0 ∧ heard d = true) (47 : Fin 48) .pre (0xFFFFFFFF : Word) (shake 0) (devStep 0) ∧
    (fun (n : Fin 48) (r : Role) (c : Word) (h : Handshake) (d : Dev) => d.prot.hs = some h ∧ (h.string ≠ n.val ∨ h.role ≠ roleCode r ∨ h.cycle ≠ c.toNat ∨ h.phase ≠ 0)) (47 : Fin 48) .pos (0xFFFFFFFF : Word) (shake 0) (devStep 0) ∧
    (fun (n : Fin 48) (r : Role) (c : Word) (h : Handshake) (d : Dev) => d.prot.hs = some h ∧ h.string = n.val ∧ h.role = roleCode r ∧ h.cycle = c.toNat ∧ h.phase = 2 ∧ heard d = true) (47 : Fin 48) .pre (0xFFFFFFFF : Word) (shake 2) (devStep 2) ∧
    (fun (n : Fin 48) (r : Role) (c : Word) (h : Handshake) (d : Dev) => d.prot.hs = some h ∧ (h.string ≠ n.val ∨ h.role ≠ roleCode r ∨ h.cycle ≠ c.toNat ∨ h.phase ≠ 2)) (47 : Fin 48) .pre (0xFFFFFFFF : Word) (shake 0) (devStep 0) ∧
    (fun (n : Fin 48) (h : Handshake) (d : Dev) => d.prot.hs = some h ∧ h.string = n.val ∧ h.phase = 0 ∧ heard d = true) (47 : Fin 48) (shake 0) (devStep 0) ∧
    (fun (h : Handshake) (d : Dev) => d.prot.hs = some h ∧ h.phase = 0) (shake 0) (devStep 0) ∧
    (fun (d : Dev) => d.prot.hs = none) devReset ∧
    (fun (d : Dev) => d.prot.runs = true ∧ heard d = true) (onLink (devZone 2)) ∧
    (fun (d : Dev) => d.prot.runs = false) devReset ∧
    (fun (n : Fin 48) (d : Dev) => heard d = true ∧ closing n.val d = true) (47 : Fin 48) (onLink (devSeq 2)) ∧
    (fun (n : Fin 48) (d : Dev) => heard d = true ∧ closing n.val d = false) (47 : Fin 48) (devPair 0) ∧
    (fun (d : Dev) => cut 24 d = false ∧ heard d = true ∧ ownBar d = none ∧ d.upd.asked = false ∧ updState d ≠ 4 ∧ updState d ≠ 6) (devPair 0) ∧
    (fun (why : Nat) (d : Dev) => cut 24 d = false ∧ heard d = true ∧ ownBar d = some why) 0 (onLink devTrial) ∧
    (fun (d : Dev) => heard d = true ∧ d.upd.asked = true) (onLink devTrial) ∧
    (fun (d : Dev) => heard d = false ∨ d.upd.asked = false) devReset ∧
    (fun (d : Dev) => cut 5 d = false ∧ heard d = true ∧ d.pair.role = 3 ∧ flag F.EST_CTRL_ALIGN_EN d = true) (devPair 3) ∧
    (fun (d : Dev) => d.pair.role ≠ 3 ∨ flag F.EST_CTRL_ALIGN_EN d = false) devReset ∧
    (fun (good : Bool) (d : Dev) => cut 5 d = false ∧ heard d = true ∧ (d.pair.role ≠ 4 ∨ good = false)) true (devPair 0) ∧
    (fun (f : Word) (d : Dev) => cut 5 d = false ∧ heard d = true ∧ d.pair.role = 4 ∧ d.est.work = none ∧ d.est.pub = none ∧ d.est.considered = some f.toNat) (7 : Word) { devPair 4 with est := { (devPair 4).est with considered := some 7 } } ∧
    (fun (f : Word) (d : Dev) => cut 5 d = false ∧ heard d = true ∧ d.pair.role = 4 ∧ (d.est.work ≠ none ∨ d.est.pub ≠ none ∨ d.est.considered ≠ some f.toNat)) (0 : Word) (devPair 4) ∧
    (fun (d : Dev) => heard d = false) devReset := by
  and_intros <;> decide

theorem witness_AngleSourcesComplete :
    (fun (d : Dev) => clocksRun d = true ∧ (flag F.ANG_STATUS_HELD d = false ∨ d.ang.wrapped = true)) devReset ∧
    (fun (d : Dev) => flag F.ANG_STATUS_HELD d = true ∧ d.ang.wrapped = false) devHeld ∧
    (fun (d : Dev) => clocksRun d = true) devReset ∧
    (fun (d : Dev) => clocksRun d = true ∧ angTrk d = 4) (devAng 4 4) ∧
    (fun (d : Dev) => angTrk d ≠ 4) devReset ∧
    (fun (d : Dev) => clocksRun d = true ∧ flag F.ANG_STATUS_HELD d = true) devHeld ∧
    (fun (d : Dev) => flag F.ANG_STATUS_HELD d = false) devReset ∧
    (fun (port : Fin 2) (ofs : Int) (d : Dev) => clocksRun d = true ∧ port.val ≠ fget F.ANG_CTRL_PTP_PORT (fset (F.ETH_PTP_OFS_OFS port.val) (ofSigned 32 (clamp32 ofs)) d)) (1 : Fin 2) 10001 devReset ∧
    (fun (port : Fin 2) (ofs : Int) (d : Dev) => clocksRun d = true ∧ 10000 < ofs.natAbs ∧ port.val = fget F.ANG_CTRL_PTP_PORT (fset (F.ETH_PTP_OFS_OFS port.val) (ofSigned 32 (clamp32 ofs)) d)) (0 : Fin 2) (-10001) devReset ∧
    (fun (port : Fin 2) (ofs : Int) (d : Dev) => clocksRun d = true ∧ ofs.natAbs ≤ 10000 ∧ port.val = fget F.ANG_CTRL_PTP_PORT (fset (F.ETH_PTP_OFS_OFS port.val) (ofSigned 32 (clamp32 ofs)) d)) (0 : Fin 2) (-10000) devReset ∧
    (fun (d : Dev) => clocksRun d = true ∧ angSrc d = 4 ∧ fget F.ANG_HOLD_WARN d ≤ fget F.ANG_HOLD_CYC_CYC d) (devAng 4 4) ∧
    (fun (d : Dev) => angSrc d ≠ 4 ∨ fget F.ANG_HOLD_CYC_CYC d < fget F.ANG_HOLD_WARN d) devReset ∧
    (fun (d : Dev) => clocksRun d = true ∧ angSrc d = 4 ∧ fget F.ANG_HOLD_MAX d ≤ fget F.ANG_HOLD_CYC_CYC d ∧ flag F.ANG_STATUS_QUALIFIED d = true) (devAng 4 4) ∧
    (fun (d : Dev) => angSrc d ≠ 4 ∨ fget F.ANG_HOLD_CYC_CYC d < fget F.ANG_HOLD_MAX d ∨ flag F.ANG_STATUS_QUALIFIED d = false) devReset ∧
    (fun (d : Dev) => clocksRun d = true ∧ fget F.ANG_PTP_EPOCH_NS_NS d < 1000000000 ∧ 45000000 ≤ fget F.ANG_PTP_FREQ_FREQ d ∧ fget F.ANG_PTP_FREQ_FREQ d ≤ 66000000) devReset ∧
    (fun (d : Dev) => 1000000000 ≤ fget F.ANG_PTP_EPOCH_NS_NS d ∨ fget F.ANG_PTP_FREQ_FREQ d < 45000000 ∨ 66000000 < fget F.ANG_PTP_FREQ_FREQ d) devHeld := by
  and_intros <;> decide

theorem witness_AngleMessagesAndSlotsComplete :
    (fun (d : Dev) => clocksRun d = true ∧ d.pair.mode ≠ 0 ∧ peerUp d = true) (devPair 0) ∧
    (fun (d : Dev) => d.pair.mode = 0 ∨ peerUp d = false) devReset ∧
    (fun (d : Dev) => clocksRun d = true ∧ d.pair.mode ≠ 0) (devPair 0) ∧
    (fun (d : Dev) => d.pair.mode = 0) devReset ∧
    (fun (d : Dev) => clocksRun d = true) devReset ∧
    (fun (n : Fin 32) (d : Dev) => clocksRun d = true ∧ slotArmed n.val d = true ∧ slotCycle n.val (cycleNow d) d = true ∧ countNow d ≤ fget (F.SLOT_CNT_CNT n.val) d ∧ flag F.ANG_STATUS_HELD d = false) (31 : Fin 32) devSlot ∧
    (fun (n : Fin 32) (d : Dev) => slotArmed n.val d = false ∨ slotCycle n.val (cycleNow d) d = false ∨ fget (F.SLOT_CNT_CNT n.val) d < countNow d ∨ flag F.ANG_STATUS_HELD d = true) (31 : Fin 32) devReset := by
  and_intros <;> decide

theorem witness_ChainReceiversComplete :
    (fun (n : Fin 16) (d : Dev) => cut 4 d = false ∧ fbit F.KZC_CTRL_CH_EN n.val d = true) (15 : Fin 16) (devKz 0) ∧
    (fun (d : Dev) => cut 4 d = false) devReset ∧
    (fun (n : Fin 16) (d : Dev) => retxNext n.val d = none) (15 : Fin 16) devReset ∧
    (fun (n : Fin 16) (p : Nat) (f : Nat) (d : Dev) => cut 4 d = false ∧ retxNext n.val d = some (p, f)) (15 : Fin 16) 47 7 devGap ∧
    (fun (n : Fin 16) (d : Dev) => cut 4 d = false ∧ fbit F.KZC_CTRL_CH_EN n.val d = true ∧ chState3 n.val d ≠ 0 ∧ fget (F.KZC_CH_STAT_VER n.val) d = 2 ∧ d.kzc.recent = []) (15 : Fin 16) (devKz 1) ∧
    (fun (n : Fin 16) (port : Port) (p : Byte) (c : Byte) (a : Byte) (d : Dev) => cut 4 d = false ∧ fbit F.KZC_CTRL_CH_EN n.val d = true ∧ chState3 n.val d ≠ 0 ∧ fget (F.KZC_CH_STAT_VER n.val) d = 2 ∧ d.kzc.recent.any (fun e => e.chain == n.val && e.port != port && e.p == p.toNat && e.c == c.toNat && e.a == a.toNat && decide (d.clk - e.clk ≤ fget F.KZC_ALERT_CFG_DEDUP d * tickUs)) = true) (15 : Fin 16) .a 7 8 9 { devKz 2 with kzc := { (devKz 2).kzc with recent := [{ chain := 15, port := .b, p := 7, c := 8, a := 9, clk := 0 }] } } ∧
    (fun (n : Fin 16) (d : Dev) => chState3 n.val d = 0 ∨ fget (F.KZC_CH_STAT_VER n.val) d ≠ 2) (15 : Fin 16) devReset ∧
    (fun (n : Fin 16) (d : Dev) => fbit F.KZC_CTRL_CH_EN n.val d = false) (15 : Fin 16) devReset ∧
    (fun (d : Dev) => cut 4 d = false ∧ d.kzc.fifo = []) devReset ∧
    (fun (e : AlertEntry) (rest : List AlertEntry) (d : Dev) => cut 4 d = false ∧ d.kzc.fifo = e :: rest) { word := 1, ts := 2 } [] { devReset with kzc := { devReset.kzc with fifo := [{ word := 1, ts := 2 }] } } := by
  and_intros <;> decide

theorem witness_ChainReceiversComplete_by1 :
    (fun (n : Fin 16) (port : Port) (raw : List Byte) (bs : List Byte) (d : Dev) =>
  let H (d : Dev) : Prop := cut 4 d = false ∧ fbit F.KZC_CTRL_CH_EN n.val d = true ∧ burstBody raw = some bs ∧ 2 ≤ chState3 n.val (discardPut n.val port false d) ∧
    field bs 1 1 % 16 = fget (F.KZC_CH_STAT_VER n.val) (discardPut n.val port false d) ∧ field bs 2 1 < 48 ∧
    excluded n.val (field bs 2 1) (discardPut n.val port false d) = false ∧ (posOf n.val (field bs 2 1) d).awaits = false ∧
    (posOf n.val (field bs 2 1) d).rejoins = false ∧ (burstStatus bs).testBit 6 = false ∧
    (discardPut n.val port false d).kzc.collect = some (burstFrame bs) ∧ (posOf n.val (field bs 2 1) d).crc = none
  (H) d) (15 : Fin 16) .a burstRaw burst devBurst ∧
    (fun (n : Fin 16) (port : Port) (raw : List Byte) (bs : List Byte) (d : Dev) =>
  let H (d : Dev) : Prop := cut 4 d = false ∧ fbit F.KZC_CTRL_CH_EN n.val d = true ∧ burstBody raw = some bs ∧ 2 ≤ chState3 n.val (discardPut n.val port false d) ∧
    field bs 1 1 % 16 = fget (F.KZC_CH_STAT_VER n.val) (discardPut n.val port false d) ∧ field bs 2 1 < 48 ∧
    excluded n.val (field bs 2 1) (discardPut n.val port false d) = false ∧ (posOf n.val (field bs 2 1) d).awaits = false ∧
    (posOf n.val (field bs 2 1) d).rejoins = false ∧ (burstStatus bs).testBit 6 = false ∧
    (discardPut n.val port false d).kzc.collect = some (burstFrame bs) ∧ (posOf n.val (field bs 2 1) d).crc = none
  (H) d) (15 : Fin 16) .b burstRaw burst devBurst ∧
    (fun (n : Fin 16) (port : Port) (raw : List Byte) (bs : List Byte) (d : Dev) =>
  let H (d : Dev) : Prop := cut 4 d = false ∧ fbit F.KZC_CTRL_CH_EN n.val d = true ∧ burstBody raw = some bs ∧ chState3 n.val (discardPut n.val port false d) ≤ 1
  (H) d) (15 : Fin 16) .a burstRaw burst (devKz 1) := by
  dsimp only
  and_intros <;> decide +kernel

theorem witness_ChainReceiversComplete_by2 :
    (fun (n : Fin 16) (raw : List Byte) (d : Dev) =>
  let H (d : Dev) : Prop := cut 4 d = false ∧ fbit F.KZC_CTRL_CH_EN n.val d = true ∧ burstBody raw = none
  (H) d) (15 : Fin 16) [] (devKz 0) :=
  by dsimp only; decide

theorem witness_ChainReceiversComplete_by3 :
    (fun (n : Fin 16) (port : Port) (raw : List Byte) (bs : List Byte) (d : Dev) => cut 4 d = false ∧ fbit F.KZC_CTRL_CH_EN n.val d = true ∧ burstBody raw = some bs ∧ 2 ≤ chState3 n.val (discardPut n.val port false d) ∧ field bs 1 1 % 16 = fget (F.KZC_CH_STAT_VER n.val) (discardPut n.val port false d) ∧ field bs 2 1 < 48 ∧ excluded n.val (field bs 2 1) (discardPut n.val port false d) = false ∧ (posOf n.val (field bs 2 1) d).awaits = false ∧ (posOf n.val (field bs 2 1) d).rejoins = false) (15 : Fin 16) .a burstRaw burst devBurst :=
  by decide +kernel

theorem witness_ChainStatesComplete :
    (fun (n : Fin 16) (d : Dev) => cut 4 d = false ∧ fbit F.KZC_CTRL_CH_EN n.val d = true) (15 : Fin 16) (devKz 4) ∧
    (fun (n : Fin 16) (d : Dev) => cut 4 d = false ∧ chState3 n.val d = 6) (15 : Fin 16) (devKz 6) ∧
    (fun (n : Fin 16) (d : Dev) => chState3 n.val d ≠ 6) (15 : Fin 16) devReset ∧
    (fun (n : Fin 16) (d : Dev) => cut 4 d = false ∧ (chState3 n.val d = 3 ∨ chState3 n.val d = 4 ∨ chState3 n.val d = 5 ∨ chState3 n.val d = 7) ∧ (chainOf n.val d).next ≠ some 8 ∧ fget F.KZC_HEAL_FAIL d ≤ (chainOf n.val d).idle) (15 : Fin 16) devIdle ∧
    (fun (n : Fin 16) (d : Dev) => cut 4 d = false ∧ (chState3 n.val d = 4 ∨ chState3 n.val d = 5) ∧ fget F.KZC_HEAL_HEAL d ≤ (chainOf n.val d).healRun ∧ (chainOf n.val d).next = none) (15 : Fin 16) devHeal ∧
    (fun (n : Fin 16) (d : Dev) => (chState3 n.val d ≠ 4 ∧ chState3 n.val d ≠ 5) ∨ (chainOf n.val d).healRun < fget F.KZC_HEAL_HEAL d) (15 : Fin 16) devReset ∧
    (fun (n : Fin 16) (d : Dev) => cut 4 d = false ∧ mayEnum n.val d = true) (15 : Fin 16) (devKz 2) ∧
    (fun (n : Fin 16) (d : Dev) => mayEnum n.val d = false) (15 : Fin 16) devReset ∧
    (fun (n : Fin 16) (r : EnumRun) (p : Port) (more : List Port) (d : Dev) => cut 4 d = false ∧ (chainOf n.val d).run = some r ∧ ownedPorts d = p :: more ∧ chState3 n.val d ≠ 6) (15 : Fin 16) {} .a [.b] (devNumbering {} 2) ∧
    (fun (n : Fin 16) (r : EnumRun) (d : Dev) => cut 4 d = false ∧ (chainOf n.val d).run = some r ∧ r.returned = false ∧ d.pair.role = 0) (15 : Fin 16) {} (devNumbering {} 2) ∧
    (fun (n : Fin 16) (r : EnumRun) (d : Dev) => (chainOf n.val d).run = some r ∧ (r.returned = true ∨ d.pair.role ≠ 0)) (15 : Fin 16) { returned := true } (devNumbering { returned := true } 2) ∧
    (fun (n : Fin 16) (r : EnumResp) (x : EnumRun) (d : Dev) => cut 4 d = false ∧ fbit F.KZC_CTRL_CH_EN n.val d = true ∧ runOf n.val d = some x ∧ answerTaken n.val r d = true ∧ r.pos < 48) (15 : Fin 16) { pos := 47 } {} (devNumbering {} 2) ∧
    (fun (n : Fin 16) (r : EnumResp) (x : EnumRun) (d : Dev) => cut 4 d = false ∧ fbit F.KZC_CTRL_CH_EN n.val d = true ∧ runOf n.val d = some x ∧ answerTaken n.val r d = true ∧ 48 ≤ r.pos) (15 : Fin 16) { pos := 48 } {} (devNumbering {} 2) ∧
    (fun (n : Fin 16) (r : EnumResp) (d : Dev) => runOf n.val d = none ∨ answerTaken n.val r d = false) (15 : Fin 16) { pos := 47, dirB := true } (devNumbering {} 2) ∧
    (fun (n : Fin 16) (d : Dev) => cut 4 d = false ∧ fbit F.KZC_CTRL_CH_EN n.val d = true) (15 : Fin 16) (devKz 0) ∧
    (fun (n : Fin 16) (d : Dev) => cut 4 d = false ∧ fbit F.KZC_CTRL_CH_EN n.val d = true ∧ chState3 n.val (masterSeen n.val d) = 6) (15 : Fin 16) (devKz 6) ∧
    (fun (n : Fin 16) (x : EnumRun) (d : Dev) => cut 4 d = false ∧ (chainOf n.val d).run = some x ∧ chState3 n.val d ≠ 6) (15 : Fin 16) {} (devNumbering {} 2) ∧
    (fun (n : Fin 16) (d : Dev) => (chainOf n.val d).run = none) (15 : Fin 16) devReset ∧
    (fun (n : Fin 16) (d : Dev) => cut 4 d = false ∧ fget F.KZC_REENUM_CYCLES d ≠ 0 ∧ mayEnum n.val d = true ∧ (positionsOf n.val d).any (fun p => decide (fget F.KZC_REENUM_CYCLES d ≤ (posOf n.val p d).silent) || excluded n.val p d || (posOf n.val p d).awaits) = true) (15 : Fin 16) devHeal ∧
    (fun (n : Fin 16) (d : Dev) => fget F.KZC_REENUM_CYCLES d = 0 ∨ mayEnum n.val d = false) (15 : Fin 16) devReset ∧
    (fun (n : Fin 16) (d : Dev) => cut 4 d = false ∧ (chainOf n.val d).fillDue = true ∧ mayEnum n.val d = true ∧ (chainOf n.val d).run = none ∧ svcWindow n.val d = true) (0 : Fin 16) devHeal ∧
    (fun (n : Fin 16) (d : Dev) => (chainOf n.val d).fillDue = false ∨ svcWindow n.val d = false) (15 : Fin 16) devReset ∧
    (fun (d : Dev) => heard d = false ∨ d.pair.role ≠ 3) devReset ∧
    (fun (d : Dev) => cut 4 d = false ∧ heard d = true ∧ d.pair.role = 3 ∧ chainsOn d = []) (devPair 3) ∧
    (fun (enums : BitVec 16) (n : Nat) (d : Dev) => cut 4 d = false ∧ heard d = true ∧ d.pair.role = 3 ∧ chainsOn d = [n] ∧ maskBit enums.toNat n = false ∧ chState3 n d = 5) (0 : BitVec 16) 15 devLeads ∧
    (fun (d : Dev) => cut 4 d = false ∧ heard d = true ∧ d.pair.role = 4) (devPair 4) ∧
    (fun (d : Dev) => heard d = false ∨ d.pair.role ≠ 4) devReset := by
  and_intros <;> decide

theorem witness_ChainStatesComplete_by1 :
    (fun (n : Fin 16) (b : SyncBody) (travel : Nat) (d : Dev) =>
  let shown (d : Dev) : Dev := fset (F.KZC_CH_RT_RT n.val) (min travel 65535) (fput (F.KZC_CH_STAT_SYNC_RET n.val) true
    (chainPut n.val { chainOf n.val d with retA := true, rtLast := min travel 65535 } d))
  cut 4 d = false ∧ fbit F.KZC_CTRL_CH_EN n.val d = true ∧ b.fromB = false ∧ chState3 n.val (shown d) ≠ 6 ∧ chState3 n.val (shown d) ≠ 7) (15 : Fin 16) {} 70000 (devKz 4) ∧
    (fun (n : Fin 16) (b : SyncBody) (travel : Nat) (d : Dev) =>
  let shown (d : Dev) : Dev := fset (F.KZC_CH_RT_RT n.val) (min travel 65535) (fput (F.KZC_CH_STAT_SYNC_RET n.val) true
    (chainPut n.val { chainOf n.val d with retA := true, rtLast := min travel 65535 } d))
  cut 4 d = false ∧ fbit F.KZC_CTRL_CH_EN n.val d = true ∧ b.fromB = false ∧ chState3 n.val (shown d) = 7) (15 : Fin 16) {} 70000 (devKz 7) ∧
    (fun (n : Fin 16) (b : SyncBody) (travel : Nat) (d : Dev) =>
  let shown (d : Dev) : Dev := fset (F.KZC_CH_RT_RT n.val) (min travel 65535) (fput (F.KZC_CH_STAT_SYNC_RET n.val) true
    (chainPut n.val { chainOf n.val d with retA := true, rtLast := min travel 65535 } d))
  cut 4 d = false ∧ fbit F.KZC_CTRL_CH_EN n.val d = true ∧ b.fromB = false ∧ chState3 n.val (shown d) = 6) (15 : Fin 16) {} 70000 (devKz 6) := by
  dsimp only
  and_intros <;> decide

theorem witness_KaziloBridgeCompletes :
    (fun (n : Fin 16) (x : KzAcc) (rest : List KzAcc) (d : Dev) => cut 11 d = false ∧ svcWindow n.val d = true ∧ (chainOf n.val d).svc = none ∧ kzQueue n.val d = x :: rest ∧ mastersPos n.val (kzPos (kzPieceAddr x)) d = true) (15 : Fin 16) kzAcc [] (devBridge none [kzAcc]) ∧
    (fun (n : Fin 16) (x : KzAcc) (rest : List KzAcc) (d : Dev) => cut 11 d = false ∧ svcWindow n.val d = true ∧ (chainOf n.val d).svc = none ∧ kzQueue n.val d = x :: rest ∧ mastersPos n.val (kzPos (kzPieceAddr x)) d = false) (15 : Fin 16) kzAcc [] (up [(F.KZC_CH_STAT_STATE 15, 2)] (devBridge none [kzAcc])) ∧
    (fun (n : Fin 16) (r : SvcRun) (d : Dev) => cut 11 d = false ∧ svcWindow n.val d = true ∧ (chainOf n.val d).svc = some r ∧ r.again = true ∧ r.busy = false) (15 : Fin 16) { svcRun with again := true } (devBridge (some { svcRun with again := true }) [kzAcc]) ∧
    (fun (n : Fin 16) (d : Dev) => cut 11 d = false ∧ (svcWindow n.val d = false ∨ ((chainOf n.val d).svc = none ∧ kzQueue n.val d = []))) (15 : Fin 16) devReset ∧
    (fun (n : Fin 16) (r : SvcRun) (d : Dev) => cut 11 d = false ∧ (chainOf n.val d).svc = some r ∧ r.busy = true) (15 : Fin 16) { svcRun with busy := true } (devBridge (some { svcRun with busy := true }) [kzAcc]) ∧
    (fun (n : Fin 16) (d : Dev) => cut 11 d = false ∧ (chainOf n.val d).svc = none) (15 : Fin 16) devReset ∧
    (fun (i : Nat) (h : HeldRead) (d : Dev) => cut 11 d = false ∧ d.brg.held[i]? = some h) 0 heldRead { devReset with brg := { devReset.brg with held := [heldRead] } } ∧
    (fun (i : Nat) (d : Dev) => d.brg.held[i]? = none) 0 devReset := by
  and_intros <;> decide

theorem witness_KaziloBridgeCompletes_by1 :
    (fun (n : Fin 16) (r : SvcRun) (x : KzAcc) (rest : List KzAcc) (d : Dev) =>
  let H (d : Dev) : Prop := cut 11 d = false ∧ (chainOf n.val d).svc = some r ∧ kzQueue n.val d = x :: rest
  (H) d) (15 : Fin 16) svcRun kzAcc [] (devBridge (some svcRun) [kzAcc]) ∧
    (fun (n : Fin 16) (r : SvcRun) (x : KzAcc) (rest : List KzAcc) (d : Dev) =>
  let H (d : Dev) : Prop := cut 11 d = false ∧ (chainOf n.val d).svc = some r ∧ kzQueue n.val d = x :: rest
  H d ∧ x.busies < fget F.KZC_SVC_RETRY d) (15 : Fin 16) svcRun kzAcc [] (devBridge (some svcRun) [kzAcc]) ∧
    (fun (n : Fin 16) (r : SvcRun) (x : KzAcc) (rest : List KzAcc) (d : Dev) =>
  let H (d : Dev) : Prop := cut 11 d = false ∧ (chainOf n.val d).svc = some r ∧ kzQueue n.val d = x :: rest
  H d ∧ fget F.KZC_SVC_RETRY d ≤ x.busies) (15 : Fin 16) svcRun { kzAcc with busies := 255 } [] (devBridge (some svcRun) [{ kzAcc with busies := 255 }]) ∧
    (fun (n : Fin 16) (r : SvcRun) (x : KzAcc) (rest : List KzAcc) (d : Dev) =>
  let H (d : Dev) : Prop := cut 11 d = false ∧ (chainOf n.val d).svc = some r ∧ kzQueue n.val d = x :: rest ∧ r.busy = false
  H d ∧ r.tries < fget F.KZC_SVC_RETRY d) (15 : Fin 16) svcRun kzAcc [] (devBridge (some svcRun) [kzAcc]) ∧
    (fun (n : Fin 16) (r : SvcRun) (x : KzAcc) (rest : List KzAcc) (d : Dev) =>
  let H (d : Dev) : Prop := cut 11 d = false ∧ (chainOf n.val d).svc = some r ∧ kzQueue n.val d = x :: rest ∧ r.busy = false
  H d ∧ fget F.KZC_SVC_RETRY d ≤ r.tries) (15 : Fin 16) { svcRun with tries := 255 } kzAcc [] (devBridge (some { svcRun with tries := 255 }) [kzAcc]) := by
  dsimp only
  and_intros <;> decide

theorem witness_BenchCommandsComplete :
    (fun (d : Dev) => cut 3 d = false ∧ clocksRun d = true ∧ (advanceTo d.ang.win.acqEnd d).ang.win.acqEnd ≤ countNow (advanceTo d.ang.win.acqEnd d) ∧ (advanceTo d.ang.win.acqEnd d).acq.closed ≠ some ((cycleNow (advanceTo d.ang.win.acqEnd d) + 2 ^ 32 - 1) % 2 ^ 32)) devReset ∧
    (fun (d : Dev) => cut 3 d = false ∧ clocksRun d = true ∧ (advanceTo d.ang.win.acqEnd d).acq.closed = some ((cycleNow (advanceTo d.ang.win.acqEnd d) + 2 ^ 32 - 1) % 2 ^ 32)) devClosed ∧
    (fun (d : Dev) => cut 3 d = true ∨ clocksRun d = false) devCut ∧
    (fun (d : Dev) => d.est.work = none ∧ d.est.xfer = none ∧ estBarred (delayShown d) = true) devReset ∧
    (fun (d : Dev) => d.est.work = none ∧ d.est.xfer = none ∧ estBarred (delayShown d) = false ∧ (flag F.ANG_SCHED_DECIM (delayShown d) = false ∨ flag F.ANG_SCHED_SKIP_NEXT (delayShown d) = false) ∧ workCarried d < 65536) devRunning ∧
    (fun (d : Dev) => d.est.work ≠ none) devWork ∧
    (fun (l : Fin 8) (f : Nat) (e : EstEntry) (rest : List EstEntry) (d : Dev) => cut 5 d = false ∧ d.est.work = some f ∧ d.est.queue = e :: rest ∧ laneNext d = some l.val ∧ fget (F.ACQ_POS_NCELL e.chain e.pos) d ≤ d.est.cell) (0 : Fin 8) 7 estEntry [] (devCells 33 0) ∧
    (fun (l : Fin 8) (d : Dev) => laneNext d ≠ some l.val) (7 : Fin 8) devReset ∧
    (fun (d : Dev) => d.est.work = none ∨ d.est.queue = []) devReset ∧
    (fun (d : Dev) => cut 5 d = false) devReset ∧
    (fun (f : Nat) (d : Dev) => cut 5 d = false ∧ d.est.work = some f ∧ workDone f d = true) 7 devWork ∧
    (fun (f : Nat) (d : Dev) => d.est.work = none ∨ (d.est.work = some f ∧ workDone f d = false)) 0 devReset ∧
    (fun (f : Nat) (d : Dev) => cut 5 d = false ∧ d.est.pub = some f) 7 devPub ∧
    (fun (d : Dev) => d.est.pub = none) devReset ∧
    (fun (c : BitVec 15) (d : Dev) => 24576 ≤ c.toNat) (24576 : BitVec 15) devReset ∧
    (fun (c : BitVec 15) (all : Bool) (d : Dev) => cut 5 d = false ∧ (all = true ∨ c.toNat < 24576) ∧ d.est.work = none) (0 : BitVec 15) true devReset ∧
    (fun (l : Fin 8) (d : Dev) => cut 5 d = false ∧ maskBit d.est.testing l.val = true) (7 : Fin 8) devBusy ∧
    (fun (l : Fin 8) (d : Dev) => maskBit d.est.testing l.val = false) (7 : Fin 8) devReset ∧
    (fun (d : Dev) => cut 5 d = false ∧ flag F.EST_STATUS_UCODE_RELOAD d = true) devBusy ∧
    (fun (d : Dev) => flag F.EST_STATUS_UCODE_RELOAD d = false) devReset ∧
    (fun (k : Fin 8) (d : Dev) => fbit F.EST_CHEM_BAD k.val d = false) (7 : Fin 8) devReset := by
  and_intros <;> decide

theorem witness_BenchCommandsComplete_by1 :
    (fun (l : Fin 8) (f : Nat) (e : EstEntry) (rest : List EstEntry) (d : Dev) =>
  let H (d : Dev) : Prop := cut 5 d = false ∧ d.est.work = some f ∧ d.est.queue = e :: rest ∧ laneNext d = some l.val ∧
    d.est.cell < fget (F.ACQ_POS_NCELL e.chain e.pos) d
  let i (d : Dev) : Nat := cellIndex e.chain e.pos d.est.cell
  H d ∧ cellAbsent (cellRec e.burst (i d % 32)) = false ∧ fbit F.EST_CHEM_BAD (entrySet e d) d = false) (0 : Fin 8) 7 estEntry [] (devCells 0 0) ∧
    (fun (l : Fin 8) (f : Nat) (e : EstEntry) (rest : List EstEntry) (d : Dev) =>
  let H (d : Dev) : Prop := cut 5 d = false ∧ d.est.work = some f ∧ d.est.queue = e :: rest ∧ laneNext d = some l.val ∧
    d.est.cell < fget (F.ACQ_POS_NCELL e.chain e.pos) d
  let i (d : Dev) : Nat := cellIndex e.chain e.pos d.est.cell
  H d ∧ (cellAbsent (cellRec e.burst (i d % 32)) = true ∨ fbit F.EST_CHEM_BAD (entrySet e d) d = true)) (0 : Fin 8) 7 { estEntry with string := 47, burst := List.replicate 300 0xFF } [] (up [(F.EST_CHEM_BAD, 0xFF)] { devCells 0 0 with est := { (devCells 0 0).est with queue := [{ estEntry with string := 47, burst := List.replicate 300 0xFF }] } }) ∧
    (fun (l : Fin 8) (f : Nat) (e : EstEntry) (rest : List EstEntry) (d : Dev) =>
  let H (d : Dev) : Prop := cut 5 d = false ∧ d.est.work = some f ∧ d.est.queue = e :: rest ∧ laneNext d = some l.val ∧
    d.est.cell < fget (F.ACQ_POS_NCELL e.chain e.pos) d
  H d ∧ (useCycles l.val none d).est.tries < fget F.EST_CFG_RETRY (useCycles l.val none d)) (0 : Fin 8) 7 estEntry [] (devCells 0 0) ∧
    (fun (l : Fin 8) (f : Nat) (e : EstEntry) (rest : List EstEntry) (d : Dev) =>
  let H (d : Dev) : Prop := cut 5 d = false ∧ d.est.work = some f ∧ d.est.queue = e :: rest ∧ laneNext d = some l.val ∧
    d.est.cell < fget (F.ACQ_POS_NCELL e.chain e.pos) d
  (H) d) (0 : Fin 8) 7 estEntry [] (devCells 0 0) ∧
    (fun (l : Fin 8) (f : Nat) (e : EstEntry) (rest : List EstEntry) (d : Dev) =>
  let H (d : Dev) : Prop := cut 5 d = false ∧ d.est.work = some f ∧ d.est.queue = e :: rest ∧ laneNext d = some l.val ∧
    d.est.cell < fget (F.ACQ_POS_NCELL e.chain e.pos) d
  H d ∧ fget F.EST_CFG_RETRY (useCycles l.val none d) ≤ (useCycles l.val none d).est.tries) (0 : Fin 8) 7 estEntry [] (devCells 0 255) ∧
    (fun (l : Fin 8) (f : Nat) (e : EstEntry) (rest : List EstEntry) (k : Nat) (d : Dev) =>
  let H (d : Dev) : Prop := cut 5 d = false ∧ d.est.work = some f ∧ d.est.queue = e :: rest ∧ laneNext d = some l.val ∧
    d.est.cell < fget (F.ACQ_POS_NCELL e.chain e.pos) d
  let i (d : Dev) : Nat := cellIndex e.chain e.pos d.est.cell
  H d ∧ cellAbsent (cellRec e.burst (i d % 32)) = false ∧ fbit F.EST_CHEM_BAD (entrySet e d) (blockParity (i d) k f d) = false) (0 : Fin 8) 7 estEntry [] 1 (devCells 0 0) := by
  dsimp only
  and_intros <;> decide

theorem witness_InputsAndZoneComplete :
    (fun (i : Fin 48) (level : Bool) (v : Bool) (d : Dev) => cut 25 d = false ∧ (if fget (F.IOX_SW_CFG_ROLE i.val) d = 1 then level else level != flag (F.IOX_SW_CFG_INV i.val) d) = v ∧ swLevel i.val d ≠ v) (47 : Fin 48) true true devReset ∧
    (fun (i : Fin 48) (level : Bool) (d : Dev) => cut 25 d = false ∧ swLevel i.val d = if fget (F.IOX_SW_CFG_ROLE i.val) d = 1 then level else level != flag (F.IOX_SW_CFG_INV i.val) d) (47 : Fin 48) false devReset ∧
    (fun (d : Dev) => cut 25 d = false) devReset ∧
    (fun (d : Dev) => d.prot.runs = true ∧ zone (fput F.PROT_STATUS_SAFE_N false d) ≠ 5) (devZone 0) ∧
    (fun (d : Dev) => d.prot.runs = false ∨ zone (fput F.PROT_STATUS_SAFE_N false d) = 5) devReset ∧
    (fun (d : Dev) => zone (fput F.PROT_STATUS_SAFE_N true d) = 5) (devZone 5) ∧
    (fun (d : Dev) => zone (fput F.PROT_STATUS_SAFE_N true d) ≠ 5) devReset ∧
    (fun (d : Dev) => zone d = 1 ∧ d.prot.runs = true ∧ flag F.PROT_STATUS_SAFE_N d = true ∧ d.prot.zoneLatch = false ∧ devFault d = false ∧ flag F.PROT_STATUS_KICK_LATE d = false ∧ pairMayArm d = true) (devZone 1) ∧
    (fun (d : Dev) => zone d ≠ 1 ∨ d.prot.runs = false ∨ flag F.PROT_STATUS_SAFE_N d = false ∨ d.prot.zoneLatch = true ∨ devFault d = true ∨ flag F.PROT_STATUS_KICK_LATE d = true ∨ pairMayArm d = false) devReset ∧
    (fun (d : Dev) => zone d = 2) (devZone 2) ∧
    (fun (d : Dev) => zone d ≠ 2) devReset ∧
    (fun (d : Dev) => zclrOk d = true) (devZone 0) ∧
    (fun (d : Dev) => zclrOk d = false) devReset ∧
    (fun (d : Dev) => zone d = 6 ∧ fget F.PROT_RECONF_CRC_CRC d = fget F.PROT_ARM_CRC_CRC d) (devZone 6) ∧
    (fun (d : Dev) => zone d = 6 ∧ fget F.PROT_RECONF_CRC_CRC d ≠ fget F.PROT_ARM_CRC_CRC d) devReconf ∧
    (fun (d : Dev) => zone d ≠ 6) devReset ∧
    (fun (key : BitVec 8) (d : Dev) => key ≠ 0xA5) (0 : BitVec 8) devReset ∧
    (fun (d : Dev) => zone d = 2 ∨ zone d = 3) (devZone 2) ∧
    (fun (d : Dev) => zone d = 6) (devZone 6) ∧
    (fun (d : Dev) => zone d ≠ 2 ∧ zone d ≠ 3 ∧ zone d ≠ 6) devReset ∧
    (fun (k : Fin 16) (d : Dev) => cut 25 d = false ∧ fbit F.IOX_LSO_STAT_STATE k.val d = true) (15 : Fin 16) devLso ∧
    (fun (k : Fin 16) (d : Dev) => fbit F.IOX_LSO_STAT_STATE k.val d = false) (15 : Fin 16) devReset ∧
    (fun (k : Fin 16) (d : Dev) => cut 25 d = false ∧ fbit F.IOX_LSO_STAT_STATE k.val d = false) (15 : Fin 16) devReset ∧
    (fun (k : Fin 16) (d : Dev) => fbit F.IOX_LSO_STAT_STATE k.val d = true) (15 : Fin 16) devLso := by
  and_intros <;> decide

theorem witness_StringCommandsComplete :
    (fun (n : Fin 48) (d : Dev) => closeOk n.val d = true) (47 : Fin 48) devReady ∧
    (fun (n : Fin 48) (d : Dev) => closeOk n.val d = false) (47 : Fin 48) devReset ∧
    (fun (n : Fin 48) (d : Dev) => seqState n.val d = 4) (47 : Fin 48) (devSeq 4) ∧
    (fun (n : Fin 48) (d : Dev) => closing n.val d = true) (47 : Fin 48) (devSeq 1) ∧
    (fun (n : Fin 48) (d : Dev) => seqState n.val d ≠ 4 ∧ closing n.val d = false) (47 : Fin 48) devReset ∧
    (fun (n : Fin 48) (d : Dev) => clrOk n.val d = true) (47 : Fin 48) devReady ∧
    (fun (n : Fin 48) (d : Dev) => clrOk n.val d = false) (47 : Fin 48) devReset ∧
    (fun (n : Fin 48) (r : Role) (d : Dev) => fbClosed n.val r d ≠ coilOn (roleCh n.val r d) d) (47 : Fin 48) .pre (up [(F.PROT_STR_A_PRE_CH 47, 5), (F.PROT_STR_B_PRE_FB 47, 47)] { devReset with prot := { devReset.prot with coils := 32 } }) ∧
    (fun (n : Fin 48) (r : Role) (d : Dev) => fbClosed n.val r d = coilOn (roleCh n.val r d) d) (47 : Fin 48) .pos devReset := by
  and_intros <;> decide

theorem witness_LoadSwitchesComplete :
    (fun (ch : Fin 32) (on : Bool) (d : Dev) => cut 7 d = false ∧ chForeign ch.val d = false ∧ chState ch.val (fput (F.LSW_CH_CMD_ON ch.val) on d) ≠ 6) (31 : Fin 32) true devReset ∧
    (fun (ch : Fin 32) (d : Dev) => cut 7 d = false ∧ chForeign ch.val d = false ∧ chState ch.val (fput (F.LSW_CH_CMD_ON ch.val) false d) = 6) (31 : Fin 32) (devCh 6) ∧
    (fun (ch : Fin 32) (d : Dev) => cut 7 d = false ∧ chForeign ch.val d = false ∧ chState ch.val (fput (F.LSW_CH_CMD_ON ch.val) true d) = 6) (31 : Fin 32) (devCh 6) ∧
    (fun (ch : Fin 32) (d : Dev) => chForeign ch.val d = true) (31 : Fin 32) devBound ∧
    (fun (ch : Fin 32) (d : Dev) => isBound ch.val d = true) (31 : Fin 32) devBound ∧
    (fun (ch : Fin 32) (d : Dev) => cut 7 d = false ∧ chForeign ch.val d = false) (31 : Fin 32) devReset ∧
    (fun (ch : Fin 32) (d : Dev) => cut 7 d = false ∧ isBound ch.val d = false ∧ (chHot ch.val d = true ∨ (chan ch.val d).lastProt = some d.clk)) (31 : Fin 32) (devChan 0 [(F.LSW_CH_TEMP_TJ 31, 1241)]) ∧
    (fun (ch : Fin 32) (d : Dev) => cut 7 d = false ∧ isBound ch.val d = false ∧ chHot ch.val d = false ∧ (chan ch.val d).lastProt ≠ some d.clk) (31 : Fin 32) devReset ∧
    (fun (ch : Fin 32) (d : Dev) => chIsOn ch.val d = false ∨ (fget (F.LSW_CH_CFG_MODE ch.val) d ≠ 1 ∧ fget (F.LSW_CH_CFG_MODE ch.val) d ≠ 2)) (31 : Fin 32) devReset ∧
    (fun (ch : Fin 32) (d : Dev) => cut 7 d = false ∧ chIsOn ch.val d = true ∧ (fget (F.LSW_CH_CFG_MODE ch.val) d = 1 ∨ fget (F.LSW_CH_CFG_MODE ch.val) d = 2)) (31 : Fin 32) (devChan 1 [(F.LSW_CH_CFG_MODE 31, 2)]) ∧
    (fun (d : Dev) => cut 7 d = false) devReset ∧
    (fun (ch : Fin 32) (d : Dev) => cut 7 d = false ∧ chIsOn ch.val d = true ∧ (chan ch.val d).inrush = true) (31 : Fin 32) devInrush ∧
    (fun (ch : Fin 32) (d : Dev) => chIsOn ch.val d = false ∨ (chan ch.val d).inrush = false) (31 : Fin 32) devReset ∧
    (fun (ch : Fin 32) (d : Dev) => cut 7 d = false ∧ chIsOn ch.val d = true) (31 : Fin 32) (devCh 1) ∧
    (fun (ch : Fin 32) (d : Dev) => cut 7 d = false ∧ chIsOn ch.val d = true ∧ (chan ch.val d).inrush = false) (31 : Fin 32) (devCh 1) ∧
    (fun (ch : Fin 32) (d : Dev) => cut 7 d = false ∧ chState ch.val d = 3 ∧ chHot ch.val d = false ∧ chWant ch.val d = true) (31 : Fin 32) (devChan 3 [(F.LSW_CH_CMD_ON 31, 1)]) ∧
    (fun (ch : Fin 32) (d : Dev) => cut 7 d = false ∧ chIsOn ch.val d = true ∧ (chan ch.val d).inrush = false ∧ max 1 (fget (F.LSW_CH_DIAG_OL_MS ch.val) d) ≤ (chan ch.val d).lowMs) 31 devOpen ∧
    (fun (ch : Fin 32) (d : Dev) => chIsOn ch.val d = false) (31 : Fin 32) devReset ∧
    (fun (ch : Fin 32) (d : Dev) => chState ch.val d ≠ 3) (31 : Fin 32) devReset ∧
    (fun (ch : Fin 32) (d : Dev) => cut 7 d = false ∧ chState ch.val d = 0 ∧ flag (F.LSW_CH_CFG_OLOFF_EN ch.val) d = true ∧ flag F.LSW_SUPPLY_OV d = false ∧ flag F.LSW_SUPPLY_UV d = false) (31 : Fin 32) (devChan 0 [(F.LSW_CH_CFG_OLOFF_EN 31, 1)]) ∧
    (fun (ch : Fin 32) (d : Dev) => chState ch.val d ≠ 0 ∨ flag (F.LSW_CH_CFG_OLOFF_EN ch.val) d = false) (31 : Fin 32) devReset ∧
    (fun (ch : Nat) (d : Dev) => cut 7 d = false ∧ fget F.LSW_BUDGET_BUDGET d < fget F.LSW_PLOSS_AVG d ∧ shedChoice d = some ch) 31 (devChan 1 [(F.LSW_PLOSS_AVG, 0xFFFF), (F.LSW_BUDGET_BUDGET, 0xFFFE), (F.LSW_CH_CFG_SHED_PRIO 31, 1)]) ∧
    (fun (d : Dev) => fget F.LSW_PLOSS_AVG d ≤ fget F.LSW_BUDGET_BUDGET d ∧ d.lsw.shed = 0 ∧ d.lsw.emptyTold = false) devReset ∧
    (fun (d : Dev) => cut 7 d = false ∧ d.lsw.uv = none) devReset ∧
    (fun (d : Dev) => cut 7 d = false ∧ d.lsw.ov = none) devReset ∧
    (fun (e : Excursion) (d : Dev) => cut 7 d = false ∧ d.lsw.uv = some e) { clk := 0, extreme := 9 } devSupply ∧
    (fun (e : Excursion) (d : Dev) => cut 7 d = false ∧ d.lsw.ov = some e) { clk := 0, extreme := 9 } devSupply ∧
    (fun (d : Dev) => d.lsw.uv ≠ none) devSupply ∧
    (fun (d : Dev) => d.lsw.ov ≠ none) devSupply ∧
    (fun (d : Dev) => d.lsw.uv = none) devReset ∧
    (fun (d : Dev) => d.lsw.ov = none) devReset := by
  and_intros <;> decide

theorem witness_SessionCommandsComplete :
    (fun (r : AixPacket) (v : Nat) (d : Dev) =>
  let q := reqOf r 1 false none
  PortTakes q d ∧ q.payload.length = 12 ∧ helloRepeat q (portCounted q d) = none ∧ helloVer q = some v) { packet [1, 3, 0, 0, 0, 0, 0, 0, 0, 0, 0, 0] with seq := 8 } 3 (devAix []) ∧
    (fun (r : AixPacket) (k : Nat) (x : AixSession) (d : Dev) =>
  let q := reqOf r 1 false none
  PortTakes q d ∧ q.payload.length = 12 ∧ helloRepeat q (portCounted q d) = some (k, x)) { packet [1, 3, 0, 0, 0, 0, 0, 0, 0, 0, 0, 0] with seq := 0 } 0 session (devAix []) := by
  simp only [PortTakes]
  and_intros <;> decide

theorem witness_SessionCommandsComplete_by1 :
    (fun (r : AixPacket) (k : Nat) (x : AixSession) (d : Dev) =>
  let q := reqOf r 2 false none
  SessionTakes q k x d ∧ q.payload = []) (packet []) 0 session (devAix []) ∧
    (fun (r : AixPacket) (k : Nat) (x : AixSession) (d : Dev) =>
  let q := reqOf r 3 false none
  SessionTakes q k x d ∧ q.payload.length ≤ 64) (packet (List.replicate 64 7)) 0 session (devAix []) ∧
    (fun (r : AixPacket) (k : Nat) (x : AixSession) (d : Dev) =>
  let q := reqOf r 4 false none
  SessionTakes q k x d ∧ q.payload = []) (packet []) 0 session (devAix []) ∧
    (fun (r : AixPacket) (k : Nat) (x : AixSession) (z : AixReq) (d : Dev) =>
  let q := reqOf r 5 false none
  let t := field q.payload 0 2
  SessionTakes q k x d ∧ q.payload.length = 2 ∧ tenantTarget (inSession q k x) t (aixHeard q k x d) = false ∧ (aixHeard q k x d).aix.queue.find? (fun y => sameSess y (inSession q k x) && y.seq == t) = some z) (packet [6, 0]) 0 session { opcode := 0x0101, seq := 6, session := 5, slot := 0 } (withSession { devNet 0 with aix := { (devNet 0).aix with queue := [{ opcode := 0x0101, seq := 6, session := 5, slot := 0 }] } }) ∧
    (fun (r : AixPacket) (k : Nat) (x : AixSession) (z : AixReq) (d : Dev) =>
  let q := reqOf r 5 false none
  let t := field q.payload 0 2
  SessionTakes q k x d ∧ q.payload.length = 2 ∧ tenantTarget (inSession q k x) t (aixHeard q k x d) = false ∧ d.aix.queue = [] ∧ d.aix.cur = some z ∧ sameSess z (inSession q k x) = true ∧ z.seq = t ∧ opAb z.opcode = true) (packet [6, 0]) 0 session { opcode := 0x0401, seq := 6, session := 5, slot := 0 } (withSession { devNet 0 with aix := { (devNet 0).aix with cur := some { opcode := 0x0401, seq := 6, session := 5, slot := 0 } } }) := by
  simp only [SessionTakes, PortTakes]
  and_intros <;> decide

theorem witness_SessionCommandsComplete_by2 :
    (fun (key : Fin 33) (x : AixSession) (d : Dev) => cut 10 d = false ∧ sessOf key.val d = some x) (0 : Fin 33) session (devAix []) ∧
    (fun (key : Fin 33) (d : Dev) => sessOf key.val d = none) (32 : Fin 33) devReset ∧
    (fun (q : AixReq) (d : Dev) => cut 10 d = false ∧ d.aix.cur = some q ∧ 2 ≤ q.ver ∧ d.aix.interim = false ∧ engineUp d = true) { opcode := 0x0101, seq := 6, session := 5, slot := 0 } { devNet 0 with aix := { (devNet 0).aix with cur := some { opcode := 0x0101, seq := 6, session := 5, slot := 0 } } } ∧
    (fun (q : AixReq) (d : Dev) => d.aix.cur = none ∨ (d.aix.cur = some q ∧ (q.ver < 2 ∨ d.aix.interim = true))) { ver := 1 } { devNet 0 with aix := { (devNet 0).aix with cur := some { ver := 1 } } } ∧
    (fun (q : AixReq) (st : Nat) (frags : List (List Byte)) (d : Dev) => d.aix.held = true ∧ engineUp d = true ∧ d.aix.cur = some q ∧ d.aix.ready = some (st, frags)) { opcode := 0x0101, seq := 6, session := 5, slot := 0 } 0 [[]] { devNet 0 with aix := { (devNet 0).aix with cur := some { opcode := 0x0101, seq := 6, session := 5, slot := 0 }, held := true, ready := some (0, [[]]) } } ∧
    (fun (d : Dev) => d.aix.held = false ∨ engineUp d = false) devReset := by
  and_intros <;> decide

theorem witness_DatagramsAndDrawersComplete :
    (fun (g : Datagram) (d : Dev) => g.badFcs = false ∧ portOpen g.port.val g.src.toNat d = false) {} devCut ∧
    (fun (g : Datagram) (d : Dev) => g.badFcs = true ∧ ethTakes g.port.val d = true ∧ cut (13 + g.port.val) d = false) { port := 1, badFcs := true } (devNet 0) ∧
    (fun (g : Datagram) (d : Dev) => g.badFcs = true ∧ (ethTakes g.port.val d = false ∨ cut (13 + g.port.val) d = true)) { badFcs := true } devCut ∧
    (fun (k : Fin 7) (v : BitVec 5) (d : Dev) => cut 10 d = false ∧ ringHeld v.toNat (fget (F.DRW_RSP_CONS_IDX (k.val + 1)) d) ≤ 16) (6 : Fin 7) (0 : BitVec 5) devReset ∧
    (fun (k : Fin 7) (v : BitVec 5) (d : Dev) => cut 10 d = false ∧ 16 < ringHeld v.toNat (fget (F.DRW_RSP_CONS_IDX (k.val + 1)) d)) (6 : Fin 7) (17 : BitVec 5) devReset ∧
    (fun (k : Fin 7) (v : BitVec 5) (d : Dev) => cut 10 d = false ∧ ringHeld (fget (F.DRW_REQ_PROD_IDX (k.val + 1)) d) v.toNat ≤ 16) (6 : Fin 7) (0 : BitVec 5) devReset ∧
    (fun (k : Fin 7) (v : BitVec 5) (d : Dev) => cut 10 d = false ∧ 16 < ringHeld (fget (F.DRW_REQ_PROD_IDX (k.val + 1)) d) v.toNat) (6 : Fin 7) (15 : BitVec 5) devReset ∧
    (fun (i : Nat) (x : AixTenant) (d : Dev) => cut 10 d = false ∧ d.aix.tenants[i]? = some x) 0 { req := {} } { devReset with aix := { devReset.aix with tenants := [{ req := {} }] } } ∧
    (fun (i : Nat) (d : Dev) => d.aix.tenants[i]? = none) 0 devReset ∧
    (fun (d : Dev) => cut 10 d = false) devReset := by
  and_intros <;> decide

theorem witness_DatagramsAndDrawersComplete_by1 :
    (fun (g : Datagram) (d : Dev) =>
  let P (d : Dev) : Prop := g.badFcs = false ∧ portOpen g.port.val g.src.toNat d = true
  let d1 (d : Dev) : Dev := fsat (F.ETH_CNT_RX_CNT g.port.val) 1 d
  P d ∧ (vlanOk g.port.val g.vid (d1 d) = false ∨ g.split = true ∨ g.dport.toNat ≠ fget F.AIX_PORT_PORT (d1 d))) { port := 1, dport := 1 } (devNet 0) ∧
    (fun (g : Datagram) (d : Dev) =>
  let P (d : Dev) : Prop := g.badFcs = false ∧ portOpen g.port.val g.src.toNat d = true
  let d1 (d : Dev) : Dev := fsat (F.ETH_CNT_RX_CNT g.port.val) 1 d
  let q := dgReq g.port.val g.src.toNat g.sport.toNat g.bytes
  let ours (d : Dev) : Prop := P d ∧ vlanOk g.port.val g.vid (d1 d) = true ∧ g.split = false ∧
    g.dport.toNat = fget F.AIX_PORT_PORT (d1 d) ∧ aixOn g.port.val (d1 d) = true
  ours d ∧ (dgForm g.bytes = false ∨ formOk q = false)) { port := 1, bytes := [] } (devNet 0) ∧
    (fun (g : Datagram) (d : Dev) =>
  let P (d : Dev) : Prop := g.badFcs = false ∧ portOpen g.port.val g.src.toNat d = true
  let d1 (d : Dev) : Dev := fsat (F.ETH_CNT_RX_CNT g.port.val) 1 d
  let q := dgReq g.port.val g.src.toNat g.sport.toNat g.bytes
  let ours (d : Dev) : Prop := P d ∧ vlanOk g.port.val g.vid (d1 d) = true ∧ g.split = false ∧
    g.dport.toNat = fget F.AIX_PORT_PORT (d1 d) ∧ aixOn g.port.val (d1 d) = true
  ours d ∧ dgForm g.bytes = true ∧ formOk q = true ∧ dgCrc g.bytes = false) { port := 1, bytes := datagram 0 false } (devNet 0) ∧
    (fun (g : Datagram) (d : Dev) =>
  let P (d : Dev) : Prop := g.badFcs = false ∧ portOpen g.port.val g.src.toNat d = true
  let d1 (d : Dev) : Dev := fsat (F.ETH_CNT_RX_CNT g.port.val) 1 d
  let q := dgReq g.port.val g.src.toNat g.sport.toNat g.bytes
  let ours (d : Dev) : Prop := P d ∧ vlanOk g.port.val g.vid (d1 d) = true ∧ g.split = false ∧
    g.dport.toNat = fget F.AIX_PORT_PORT (d1 d) ∧ aixOn g.port.val (d1 d) = true
  ours d ∧ dgForm g.bytes = true ∧ formOk q = true ∧ dgCrc g.bytes = true ∧ aclPermits q.drawer q.src (d1 d) = false) { port := 1, src := 1, bytes := datagram 7 true } (devNet 0) := by
  dsimp only
  and_intros <;> decide

theorem witness_DatagramsAndDrawersComplete_by2 :
    (fun (r : AixPacket) (op : BitVec 15) (k : Nat) (x : AixSession) (d : Dev) =>
  let q := reqOf r (0x8000 + op.toNat) false none
  SessionTakes q k x d ∧ q.drawer ≠ 0 ∧ (sessOf k (aixHeard q k x d)).any (fun y => y.long.contains q.seq) = false ∧ windowFull (inSession q k x) (aixHeard q k x d) = false ∧ tenantDown q.drawer (aixHeard q k x d) = false ∧ ringFull q.drawer (aixHeard q k x d) = false) { packet [1] with drawer := 7 } (0x7FFF : BitVec 15) 28 session { up [(F.AIX_DACL_MASK 7, 0), (F.WLD_TEN_STAT_STATE 7, 1), (F.DRW_CTRL_EN 7, 1)] (devNet 0) with aix := { (devNet 0).aix with sessions := [(28, some session)] } } :=
  by simp only [SessionTakes, PortTakes]; decide

theorem witness_EngineConfigurationAndOutputsComplete :
    (fun (r : AixPacket) (hold : Bool) (k : Nat) (x : AixSession) (m : List Host.Cell) (d : Dev) =>
  let q := reqOf r 0x0101 hold none
  let B := engineBegun q k x
  EngineTakes q k x d ∧ (configLoad (field q.payload 0 4) (field q.payload 4 4) (q.payload.drop 8) m (B d)).1 = stOk) (packet [1, 0, 0, 0, 0, 0, 0, 0, 7]) true 0 session [] (devAix []) ∧
    (fun (r : AixPacket) (hold : Bool) (k : Nat) (x : AixSession) (m : List Host.Cell) (d : Dev) =>
  let q := reqOf r 0x0103 hold none
  let B := engineBegun q k x
  EngineTakes q k x d ∧ field q.payload 4 4 + field q.payload 8 2 ≤ (readImage (field q.payload 0 1) m (B d)).length) (packet [2, 0, 0, 0, 0, 0, 0, 0, 1, 0]) true 0 session [] (devAix [(F.CFG_STAGE_LEN_RECEIVED, 1)]) ∧
    (fun (r : AixPacket) (hold : Bool) (k : Nat) (x : AixSession) (d : Dev) =>
  let q := reqOf r 0x0104 hold none
  let B := engineBegun q k x
  EngineTakes q k x d ∧ paired (B d) = true ∧ zone (B d) = 1 ∧ peerUp (B d) = true) (packet [0, 0, 0, 0]) true 0 session (withSession { up [(F.PEER_STATUS_LINK, 2)] (devNet 0) with pair := { (devNet 0).pair with role := 4 } }) ∧
    (fun (r : AixPacket) (hold : Bool) (k : Nat) (x : AixSession) (d : Dev) =>
  let q := reqOf r 0x0201 hold none
  let B := engineBegun q k x
  EngineTakes q k x d ∧ armOk (B d) = true) (packet []) true 0 session (withSession { up [(F.PROT_STATUS_SAFE_N, 1)] (devNet 0) with prot := { devReset.prot with runs := true } }) ∧
    (fun (r : AixPacket) (hold : Bool) (k : Nat) (x : AixSession) (d : Dev) =>
  let q := reqOf r 0x0202 hold none
  EngineTakes q k x d) (packet []) true 0 session (devAix []) ∧
    (fun (r : AixPacket) (hold : Bool) (k : Nat) (x : AixSession) (d : Dev) =>
  let q := reqOf r 0x0203 hold none
  let B := engineBegun q k x
  EngineTakes q k x d ∧ field q.payload 1 1 = 1 ∧ closeOk (field q.payload 0 1) (B d) = true) (packet [47, 1]) true 0 session (withSession { up [(F.PROT_STATUS_ZSTATE, 2), (F.PROT_STR_A_EN 47, 1)] (devNet 0) with acq := { devReset.acq with str := [(47, { once := true })] } }) ∧
    (fun (r : AixPacket) (hold : Bool) (k : Nat) (x : AixSession) (d : Dev) =>
  let q := reqOf r 0x0203 hold none
  EngineTakes q k x d ∧ field q.payload 1 1 = 2) (packet [47, 2]) true 0 session (withSession { up [(F.PROT_STATUS_ZSTATE, 2), (F.PROT_STR_A_EN 47, 1)] (devNet 0) with acq := { devReset.acq with str := [(47, { once := true })] } }) ∧
    (fun (r : AixPacket) (hold : Bool) (k : Nat) (x : AixSession) (d : Dev) =>
  let q := reqOf r 0x0203 hold none
  let B := engineBegun q k x
  EngineTakes q k x d ∧ field q.payload 1 1 = 3 ∧ clrOk (field q.payload 0 1) (B d) = true) (packet [47, 3]) true 0 session (withSession { up [(F.PROT_STATUS_ZSTATE, 2), (F.PROT_STR_A_EN 47, 1)] (devNet 0) with acq := { devReset.acq with str := [(47, { once := true })] } }) ∧
    (fun (r : AixPacket) (hold : Bool) (k : Nat) (x : AixSession) (d : Dev) =>
  let q := reqOf r 0x0204 hold none
  let B := engineBegun q k x
  EngineTakes q k x d ∧ zclrOk (B d) = true) (packet []) true 0 session (withSession { devNet 0 with prot := { devReset.prot with runs := true } }) ∧
    (fun (r : AixPacket) (hold : Bool) (k : Nat) (x : AixSession) (d : Dev) =>
  let q := reqOf r 0x0205 hold none
  let B := engineBegun q k x
  EngineTakes q k x d ∧ q.drawer = 0 ∧ field q.payload 0 1 < 32 ∧ isBound (field q.payload 0 1) (B d) = false ∧ cut 7 (B d) = false) (packet [31, 0, 0, 0]) true 0 session (devAix []) ∧
    (fun (r : AixPacket) (hold : Bool) (k : Nat) (x : AixSession) (d : Dev) =>
  let q := reqOf r 0x0205 hold none
  let B := engineBegun q k x
  EngineTakes q k x d ∧ q.drawer = 0 ∧ 32 ≤ field q.payload 0 1 ∧ isBound (field q.payload 0 1) (B d) = false) (packet [47, 0, 0, 0]) true 0 session (devAix []) ∧
    (fun (r : AixPacket) (hold : Bool) (k : Nat) (x : AixSession) (d : Dev) =>
  let q := reqOf r 0x0206 hold none
  EngineTakes q k x d) (packet []) true 0 session (devAix []) ∧
    (fun (r : AixPacket) (fault : Option Nat) (k : Nat) (x : AixSession) (d : Dev) =>
  let q := reqOf r 0x0102 true fault
  EngineTakes q k x d) (packet (List.replicate 8 0)) none 0 session (devAix []) := by
  simp only [EngineTakes, SessionTakes, PortTakes]
  and_intros <;> decide

theorem witness_EngineEstimationAndRecordsComplete :
    (fun (r : AixPacket) (k : Nat) (x : AixSession) (d : Dev) =>
  let q := reqOf r 0x0301 true none
  EngineTakes q k x d) (packet [15, 0, 0, 0, 0, 6]) 0 session (devAix []) ∧
    (fun (r : AixPacket) (hold : Bool) (k : Nat) (x : AixSession) (d : Dev) =>
  let q := reqOf r 0x0302 hold none
  EngineTakes q k x d) (packet [15, 47]) true 0 session (devAix [(F.KZC_CH_CTRL_COUNT 15, 48), (F.ACQ_POS_EN 15 47, 1)]) ∧
    (fun (r : AixPacket) (hold : Bool) (k : Nat) (x : AixSession) (d : Dev) =>
  let q := reqOf r 0x0303 hold none
  let B := engineBegun q k x
  EngineTakes q k x d ∧ cut 5 (fset F.EST_INIT_FRAME_FRAME (field q.payload 4 4) (B d)) = false) (packet (List.replicate 8 0)) true 0 session (devAix []) ∧
    (fun (r : AixPacket) (hold : Bool) (k : Nat) (x : AixSession) (d : Dev) =>
  let q := reqOf r 0x0304 hold none
  EngineTakes q k x d) (packet [1]) true 0 session (devAix []) ∧
    (fun (r : AixPacket) (k : Nat) (x : AixSession) (d : Dev) =>
  let q := reqOf r 0x0401 true none
  EngineTakes q k x d) (packet [0, 0, 0, 0, 0, 11]) 0 session (devAix []) ∧
    (fun (r : AixPacket) (hold : Bool) (k : Nat) (x : AixSession) (d : Dev) =>
  let q := reqOf r 0x0402 hold none
  EngineTakes q k x d) (packet []) true 0 session (devAix []) := by
  simp only [EngineTakes, SessionTakes, PortTakes]
  and_intros <;> decide

theorem witness_EngineServicesComplete :
    (fun (r : AixPacket) (hold : Bool) (k : Nat) (x : AixSession) (d : Dev) =>
  let q := reqOf r 0x0504 hold none
  EngineTakes q k x d) (packet []) true 0 session (devAix []) ∧
    (fun (r : AixPacket) (hold : Bool) (k : Nat) (x : AixSession) (m : List Host.Cell) (d : Dev) =>
  let q := reqOf r 0x0505 hold none
  let B := engineBegun q k x
  EngineTakes q k x d ∧ (updCancel m (B d)).1 = stOk) (packet []) true 0 session [] (devAix [(F.UPD_STATUS_STATE, 3)]) ∧
    (fun (r : AixPacket) (k : Nat) (x : AixSession) (d : Dev) =>
  let q := reqOf r 0x0601 false none
  let B := engineBegun q k x
  EngineTakes q k x d ∧ wakeInputs (B d) = []) (packet [4]) 0 session (devAix []) ∧
    (fun (r : AixPacket) (k : Nat) (x : AixSession) (d : Dev) =>
  let q := reqOf r 0x0601 true none
  EngineTakes q k x d) (packet [4]) 0 session (devAix []) ∧
    (fun (r : AixPacket) (hold : Bool) (k : Nat) (x : AixSession) (d : Dev) =>
  let q := reqOf r 0x0602 hold none
  let B := engineBegun q k x
  EngineTakes q k x d ∧ flag F.PWR_PL_BUSY (plWrite (field q.payload 0 1) (B d)) = false) (packet [0]) true 0 session (devAix [(F.PWR_PL_CUR, 0)]) ∧
    (fun (r : AixPacket) (hold : Bool) (k : Nat) (x : AixSession) (d : Dev) =>
  let q := reqOf r 0x0602 hold none
  let B := engineBegun q k x
  EngineTakes q k x d ∧ flag F.PWR_PL_BUSY (plWrite (field q.payload 0 1) (B d)) = true) (packet [3]) true 0 session (devAix []) ∧
    (fun (r : AixPacket) (hold : Bool) (k : Nat) (x : AixSession) (d : Dev) =>
  let q := reqOf r 0x0603 hold none
  EngineTakes q k x d) (packet []) true 0 session (devAix []) ∧
    (fun (r : AixPacket) (hold : Bool) (k : Nat) (x : AixSession) (d : Dev) =>
  let q := reqOf r 0x0701 hold none
  EngineTakes q k x d) (packet [0, 0, 0, 0, 0x20, 0, 1, 0]) true 0 session (devAix []) ∧
    (fun (r : AixPacket) (hold : Bool) (k : Nat) (x : AixSession) (d : Dev) =>
  let q := reqOf r 0x0702 hold none
  EngineTakes q k x d) (packet [0, 0, 0, 0, 0x20, 0, 1, 0, 0, 0, 0, 0]) true 0 session (devAix []) ∧
    (fun (r : AixPacket) (hold : Bool) (k : Nat) (x : AixSession) (d : Dev) =>
  let q := reqOf r 0x0705 hold none
  EngineTakes q k x d) (packet [7, 2]) true 0 session (devAix [(F.WLD_TEN_CFG_EN 7, 1)]) ∧
    (fun (r : AixPacket) (hold : Bool) (k : Nat) (x : AixSession) (d : Dev) =>
  let q := reqOf r 0x0801 hold none
  EngineTakes q k x d) (packet [0, 32, 4, 0, 1, 0, 0, 0]) true 0 session (devAix [(F.CAN_STATUS_EFF_MODE 5, 1)]) ∧
    (fun (r : AixPacket) (hold : Bool) (k : Nat) (x : AixSession) (d : Dev) =>
  let q := reqOf r 0x0802 hold none
  EngineTakes q k x d) (packet []) true 0 session (devAix []) ∧
    (fun (r : AixPacket) (hold : Bool) (k : Nat) (x : AixSession) (d : Dev) =>
  let q := reqOf r 0x0803 hold none
  let B := engineBegun q k x
  EngineTakes q k x d ∧ (rtCh (field q.payload 0 2) (B d) = 7 ∨ txResult (rtCh (field q.payload 0 2) (B d)) 0 (field q.payload 0 2) (q.payload.drop 4).length (B d) = 0)) (packet [0xFF, 0x0F, 1, 0, 7]) true 0 session (withSession (up [(F.NSM_RT_1_KIND 4095, 2), (F.NSM_RT_1_CH 4095, 5), (F.CAN_STATUS_EFF_MODE 5, 1)] (devNet 0))) := by
  simp only [EngineTakes, SessionTakes, PortTakes]
  and_intros <;> decide

theorem witness_EthernetAndWakePortComplete :
    (fun (port : Fin 2) (f : NetFrame) (d : Dev) =>
  let takes (d : Dev) : Prop := cut (13 + port.val) d = false ∧ flag (F.ETH_CTRL_EN port.val) d = true ∧ d.pwr.sealed = false ∧
    d.pwr.down = false
  let d1 (d : Dev) : Dev := fsat (F.ETH_CNT_RX_CNT port.val) 1 d
  let tagged (d : Dev) : Prop := takes d ∧ vlanOk port.val f.vid (d1 d) = true
  tagged d ∧ f.dst.toNat ≠ 0 ∧ f.dst.toNat = ownV4 port.val (d1 d)) (1 : Fin 2) { dst := 0xFFFF0A000001 } (devNet 0) ∧
    (fun (port : Fin 2) (f : NetFrame) (d : Dev) =>
  let takes (d : Dev) : Prop := cut (13 + port.val) d = false ∧ flag (F.ETH_CTRL_EN port.val) d = true ∧ d.pwr.sealed = false ∧
    d.pwr.down = false
  let d1 (d : Dev) : Dev := fsat (F.ETH_CNT_RX_CNT port.val) 1 d
  let tagged (d : Dev) : Prop := takes d ∧ vlanOk port.val f.vid (d1 d) = true
  tagged d ∧ (f.dst.toNat = 0 ∨ f.dst.toNat ≠ ownV4 port.val (d1 d))) (1 : Fin 2) {} (devNet 0) ∧
    (fun (port : Fin 2) (f : NetFrame) (d : Dev) =>
  let takes (d : Dev) : Prop := cut (13 + port.val) d = false ∧ flag (F.ETH_CTRL_EN port.val) d = true ∧ d.pwr.sealed = false ∧
    d.pwr.down = false
  let d1 (d : Dev) : Dev := fsat (F.ETH_CNT_RX_CNT port.val) 1 d
  let tagged (d : Dev) : Prop := takes d ∧ vlanOk port.val f.vid (d1 d) = true
  tagged d ∧ (ownV6 port.val (d1 d)).contains f.dst.toNat = true) (1 : Fin 2) { dst := BitVec.ofNat 128 (linkLocal 1 devReset) } (devNet 0) ∧
    (fun (port : Fin 2) (f : NetFrame) (d : Dev) =>
  let takes (d : Dev) : Prop := cut (13 + port.val) d = false ∧ flag (F.ETH_CTRL_EN port.val) d = true ∧ d.pwr.sealed = false ∧
    d.pwr.down = false
  let d1 (d : Dev) : Dev := fsat (F.ETH_CNT_RX_CNT port.val) 1 d
  let tagged (d : Dev) : Prop := takes d ∧ vlanOk port.val f.vid (d1 d) = true
  tagged d ∧ (ownV6 port.val (d1 d)).contains f.dst.toNat = false) (1 : Fin 2) {} (devNet 0) ∧
    (fun (port : Fin 2) (f : NetFrame) (bs : List Byte) (d : Dev) =>
  let takes (d : Dev) : Prop := cut (13 + port.val) d = false ∧ flag (F.ETH_CTRL_EN port.val) d = true ∧ d.pwr.sealed = false ∧
    d.pwr.down = false
  let d1 (d : Dev) : Dev := fsat (F.ETH_CNT_RX_CNT port.val) 1 d
  let tagged (d : Dev) : Prop := takes d ∧ vlanOk port.val f.vid (d1 d) = true
  tagged d ∧ bs.length ≤ 1500 ∧ f.dst ≠ 0 ∧ (ownV4 port.val (d1 d) :: ownV6 port.val (d1 d)).contains f.dst.toNat = true) (1 : Fin 2) { dst := 0xFFFF0A000001 } (List.replicate 1500 7) (devNet 0) ∧
    (fun (port : Fin 2) (f : NetFrame) (d : Dev) =>
  let takes (d : Dev) : Prop := cut (13 + port.val) d = false ∧ flag (F.ETH_CTRL_EN port.val) d = true ∧ d.pwr.sealed = false ∧
    d.pwr.down = false
  let d1 (d : Dev) : Dev := fsat (F.ETH_CNT_RX_CNT port.val) 1 d
  let wrong (d : Dev) : Prop := takes d ∧ vlanOk port.val f.vid (d1 d) = false
  (wrong) d) (1 : Fin 2) {} (devNet 1) ∧
    (fun (port : Fin 2) (d : Dev) =>
  let closed (d : Dev) : Prop := flag (F.ETH_CTRL_EN port.val) d = false ∨ d.pwr.sealed = true ∨ d.pwr.down = true
  (closed) d) (1 : Fin 2) (devDeep 2) ∧
    (fun (fast : Bool) (d : Dev) =>
  let d1 (d : Dev) : Dev := fput F.TWP_CTRL_FAST fast d
  matcherOn (d1 d) = true) true (devDeep 2) ∧
    (fun (bs : List Byte) (fast : Bool) (d : Dev) =>
  let d1 (d : Dev) : Dev := fput F.TWP_CTRL_FAST fast d
  twpOn (d1 d) = true ∧ matcherOn (d1 d) = false ∧ twpWhole bs = false) [] true devTrial ∧
    (fun (bs : List Byte) (fast : Bool) (d : Dev) =>
  let d1 (d : Dev) : Dev := fput F.TWP_CTRL_FAST fast d
  twpOn (d1 d) = true ∧ matcherOn (d1 d) = false ∧ twpWhole bs = true ∧ dgCrc bs = false) (datagram 0 false) true (devNet 0) ∧
    (fun (bs : List Byte) (fast : Bool) (d : Dev) =>
  let d1 (d : Dev) : Dev := fput F.TWP_CTRL_FAST fast d
  twpOn (d1 d) = true ∧ matcherOn (d1 d) = false ∧ twpWhole bs = true ∧ dgCrc bs = true ∧ formOk (dgReq 2 0 0 bs) = true ∧ field bs 8 2 = 0) (datagram 0 true) true (devNet 0) ∧
    (fun (fast : Bool) (d : Dev) =>
  let d1 (d : Dev) : Dev := fput F.TWP_CTRL_FAST fast d
  matcherOn (d1 d) = false ∧ d.pwr.booted = true ∧ d.aix.twp = none) true devTrial ∧
    (fun (fast : Bool) (reply : List Byte) (d : Dev) =>
  let d1 (d : Dev) : Dev := fput F.TWP_CTRL_FAST fast d
  matcherOn (d1 d) = false ∧ d.pwr.booted = true ∧ d.aix.twp = some reply) true [7] devTwp := by
  dsimp only
  and_intros <;> decide

theorem witness_EthernetAndWakePortComplete_by1 :
    (fun (port : Fin 2) (up : Bool) (d : Dev) => cut (13 + port.val) d = false ∧ flag (F.ETH_STATUS_LINK port.val) d ≠ up) (1 : Fin 2) true devReset ∧
    (fun (port : Fin 2) (up : Bool) (d : Dev) => flag (F.ETH_STATUS_LINK port.val) d = up) (1 : Fin 2) false devReset ∧
    (fun (port : Fin 2) (d : Dev) => cut (13 + port.val) d = false ∧ flag (F.ETH_STATUS_PTP_SYNC port.val) d = false ∧ flag (F.ETH_CTRL_PTP_EN port.val) d = true) (1 : Fin 2) (devNet 0) ∧
    (fun (port : Fin 2) (d : Dev) => cut (13 + port.val) d = false ∧ flag (F.ETH_STATUS_PTP_SYNC port.val) d = true) (1 : Fin 2) (devNet 1) ∧
    (fun (port : Fin 2) (on : Bool) (d : Dev) => flag (F.ETH_STATUS_PTP_SYNC port.val) d = on) (1 : Fin 2) true (devNet 1) ∧
    (fun (e : Fin 2) (d : Dev) => cut (13 + e.val) d = false) (1 : Fin 2) devReset ∧
    (fun (d : Dev) => d.aix.twp ≠ none) devTwp ∧
    (fun (d : Dev) => d.aix.twp = none) devReset := by
  and_intros <;> decide

theorem witness_ResetsAndPowerComplete_0 :
    (fun (rs : List TestResult) (slotB : Bool) (d : Dev) =>
  let begun (d : Dev) : Dev := { d with pwr := { d.pwr with booted := true }, pair := { d.pair with slotB } }
  let H (d : Dev) : Prop := d.pwr.down = false ∧ d.pwr.booted = false ∧ d.pwr.target = 0
  let tested (d : Dev) : Bool × Dev := trestlesTest rs (begun d)
  H d ∧ (tested d).1 = false) [.fail 0 0 false false] true devReset :=
  ⟨by decide, boot_fails _ _ rfl (by decide) (by decide) (by decide)⟩

theorem witness_ResetsAndPowerComplete :
    (fun (d : Dev) => asleep d = false) devReset ∧
    (fun (d : Dev) => asleep d = true ∧ d.pwr.lowWake = none) devLowWaits ∧
    (fun (w : SleepMeas) (d : Dev) => asleep d = true ∧ d.pwr.lowWake = some w) measNone devLow ∧
    (fun (d : Dev) => d.pwr.down = false) devReset ∧
    (fun (d : Dev) => d.lsw.noGround = true ∧ d.pwr.down = false) devSupply ∧
    (fun (d : Dev) => d.pwr.down = true) devDown ∧
    (fun (d : Dev) => d.lsw.noGround = false ∨ d.pwr.down = true) devReset ∧
    (fun (key : Byte) (d : Dev) => key ≠ 0x5D ∨ d.pwr.down = true) (0 : Byte) devReset ∧
    (fun (d : Dev) => asleep d = true) devLow ∧
    (fun (d : Dev) => d.pwr.down = true ∨ d.pwr.booted = true ∨ d.pwr.target ≠ 0) (devDeep 2) ∧
    (fun (d : Dev) => flag F.PWR_PL_BUSY d = true) devBusy ∧
    (fun (d : Dev) => flag F.PWR_PL_BUSY d = false) devReset ∧
    (fun (d : Dev) => flag F.PWR_PL_BUSY d = true ∧ d.pwr.plNext = none ∧ d.pwr.sleepNext = none) devBusy ∧
    (fun (st : BitVec 3) (d : Dev) => 1 ≤ st.toNat ∧ st.toNat ≤ 4) (4 : BitVec 3) devReset ∧
    (fun (st : BitVec 3) (d : Dev) => st.toNat = 0 ∨ 4 < st.toNat) (0 : BitVec 3) devReset ∧
    (fun (d : Dev) => d.pwr.target ≠ 0 ∧ d.pwr.sealed = false ∧ (List.range 5).any (fun t => !(tlOf t (trestlesStop d)).store.isEmpty) = false) devDozing ∧
    (fun (d : Dev) => d.pwr.target = 0 ∨ d.pwr.sealed = true) devReset ∧
    (fun (j : Fin 48) (d : Dev) => wakeInput j.val d = true) (47 : Fin 48) devWakes ∧
    (fun (j : Fin 48) (d : Dev) => wakeInput j.val d = false) (47 : Fin 48) devReset ∧
    (fun (d : Dev) =>
  matcherOn d = true) (devDeep 2) ∧
    (fun (d : Dev) =>
  matcherOn d = false) devReset ∧
    (fun (d : Dev) => d.pwr.target = 0 ∨ d.pwr.srcs = 0) devReset ∧
    (fun (d : Dev) => d.pwr.target ≠ 0 ∧ d.pwr.srcs ≠ 0 ∧ d.pwr.sealed = false) devDozing ∧
    (fun (d : Dev) => d.pwr.target ≠ 0 ∧ d.pwr.srcs ≠ 0 ∧ d.pwr.sealed = true ∧ d.pwr.target ≤ 2) (devDeep 2) ∧
    (fun (d : Dev) => d.pwr.srcs ≠ 0 ∧ d.pwr.sealed = true ∧ 3 ≤ d.pwr.target ∧ d.pwr.low = false) (devDeep 4) ∧
    (fun (d : Dev) => d.pwr.srcs ≠ 0 ∧ d.pwr.sealed = true ∧ 3 ≤ d.pwr.target ∧ d.pwr.low = true) devLow ∧
    (fun (d : Dev) => flag F.PWR_STATUS_HCLK d = true ∧ d.pwr.sealed = false) devBusy ∧
    (fun (d : Dev) => flag F.PWR_STATUS_HCLK d = true ∧ d.pwr.sealed = true) devDripping ∧
    (fun (d : Dev) => flag F.PWR_STATUS_HCLK d = false) devReset := by
  and_intros <;> decide

theorem witness_ResetsAndPowerComplete_by1 :
    (fun (rs : List TestResult) (slotB : Bool) (d : Dev) =>
  let begun (d : Dev) : Dev := { d with pwr := { d.pwr with booted := true }, pair := { d.pair with slotB } }
  let H (d : Dev) : Prop := d.pwr.down = false ∧ d.pwr.booted = false ∧ d.pwr.target = 0
  let tested (d : Dev) : Bool × Dev := trestlesTest rs (begun d)
  H d ∧ (tested d).1 = true) [] true devReset ∧
    (fun (w : Word) (d : Dev) =>
  let may (kind : Nat) (d : Dev) : Prop := zone d = 0 ∨ zone d = 1 ∨ below 29 (fun i => maskBit w.toNat i &&
    !maskBit (fget (cutField kind) d) i && cutKept.contains i && maskBit (cutMask kind) i) = []
  (may 0) d) (0 : Word) devReset ∧
    (fun (w : Word) (d : Dev) =>
  let may (kind : Nat) (d : Dev) : Prop := zone d = 0 ∨ zone d = 1 ∨ below 29 (fun i => maskBit w.toNat i &&
    !maskBit (fget (cutField kind) d) i && cutKept.contains i && maskBit (cutMask kind) i) = []
  (may 1) d) (0 : Word) devReset ∧
    (fun (w : Word) (d : Dev) =>
  let may (kind : Nat) (d : Dev) : Prop := zone d = 0 ∨ zone d = 1 ∨ below 29 (fun i => maskBit w.toNat i &&
    !maskBit (fget (cutField kind) d) i && cutKept.contains i && maskBit (cutMask kind) i) = []
  (may 2) d) (0 : Word) devReset := by
  dsimp only
  and_intros <;> decide

theorem witness_PeerLinkCommandsComplete :
    (fun (v : Fin 2) (two : Bool) (d : Dev) =>
  let shown (d : Dev) : Dev :=
    let d1 := fset F.PEER_STATUS_VER (v.val + 1) (fset F.PEER_STATUS_LINK 2
      (fput F.PEER_STATUS_LANE_0 true (fput F.PEER_STATUS_LANE_1 two d)))
    let d2 := recordC 0x0A20 (v.val + 1) (if two then 2 else 1) { d1 with brg := { d1.brg with unacked := 0, waiting := [] } }
    updStateTo (updState d2) (fput F.UPD_PARTNER_VALID false d2)
  let H (d : Dev) : Prop := cut 12 d = false ∧ d.pair.mode ≠ 0 ∧ flag F.PEER_CTRL_EN d = true ∧ peerUp d = false
  H d ∧ (shown d).pair.role = 1) (1 : Fin 2) true (devAlone 1) ∧
    (fun (v : Fin 2) (two : Bool) (d : Dev) =>
  let shown (d : Dev) : Dev :=
    let d1 := fset F.PEER_STATUS_VER (v.val + 1) (fset F.PEER_STATUS_LINK 2
      (fput F.PEER_STATUS_LANE_0 true (fput F.PEER_STATUS_LANE_1 two d)))
    let d2 := recordC 0x0A20 (v.val + 1) (if two then 2 else 1) { d1 with brg := { d1.brg with unacked := 0, waiting := [] } }
    updStateTo (updState d2) (fput F.UPD_PARTNER_VALID false d2)
  let H (d : Dev) : Prop := cut 12 d = false ∧ d.pair.mode ≠ 0 ∧ flag F.PEER_CTRL_EN d = true ∧ peerUp d = false
  H d ∧ (shown d).pair.role ≠ 1) (1 : Fin 2) true (devAlone 0) ∧
    (fun (lane : Fin 2) (d : Dev) =>
  let f := if lane.val = 0 then F.PEER_STATUS_LANE_0 else F.PEER_STATUS_LANE_1
  cut 12 d = false ∧ flag f d = true) (1 : Fin 2) (devPair 0) ∧
    (fun (lane : Fin 2) (d : Dev) =>
  let f := if lane.val = 0 then F.PEER_STATUS_LANE_0 else F.PEER_STATUS_LANE_1
  flag f d = false) (1 : Fin 2) devReset ∧
    (fun (d : Dev) =>
  let H (d : Dev) : Prop := cut 12 d = false ∧ fget F.PEER_STATUS_LINK d ≠ 0
  (H) d) (devPair 0) ∧
    (fun (d : Dev) =>
  let up (d : Dev) : Prop := cut 12 d = false ∧ peerUp d = true ∧ fget F.PEER_STATUS_VER d = 2
  let busy (d : Dev) : Bool := actsPrimary d && !d.brg.peerOut.isEmpty
  up d ∧ busy d = true) (devAsks peerReq) ∧
    (fun (a : BitVec 40) (d : Dev) =>
  let up (d : Dev) : Prop := cut 12 d = false ∧ peerUp d = true ∧ fget F.PEER_STATUS_VER d = 2
  let busy (d : Dev) : Bool := actsPrimary d && !d.brg.peerOut.isEmpty
  let open' (d : Dev) : Bool := flag F.PEER_CTRL_IN_EN d && targetOf a.toNat != some 5
  up d ∧ busy d = false ∧ open' d = false) (0x50000000 : BitVec 40) (devPair 4) ∧
    (fun (a : BitVec 40) (d : Dev) =>
  let up (d : Dev) : Prop := cut 12 d = false ∧ peerUp d = true ∧ fget F.PEER_STATUS_VER d = 2
  let busy (d : Dev) : Bool := actsPrimary d && !d.brg.peerOut.isEmpty
  let open' (d : Dev) : Bool := flag F.PEER_CTRL_IN_EN d && targetOf a.toNat != some 5
  up d ∧ busy d = false ∧ open' d = true ∧ d.brg.peerIn = []) (0 : BitVec 40) (devPair 0) ∧
    (fun (a : BitVec 40) (d : Dev) =>
  let up (d : Dev) : Prop := cut 12 d = false ∧ peerUp d = true ∧ fget F.PEER_STATUS_VER d = 2
  let busy (d : Dev) : Bool := actsPrimary d && !d.brg.peerOut.isEmpty
  let open' (d : Dev) : Bool := flag F.PEER_CTRL_IN_EN d && targetOf a.toNat != some 5
  up d ∧ busy d = false ∧ open' d = true ∧ d.brg.peerIn ≠ []) (0 : BitVec 40) (devAsked { write := false, addr := 0x80000000, size := 4, data := 0 }) ∧
    (fun (x : PeerIn) (rest : List PeerIn) (d : Dev) =>
  let H (d : Dev) : Prop := cut 12 d = false ∧ d.brg.peerIn = x :: rest
  (H) d) { write := false, addr := 0x80000000, size := 4, data := 0 } [] (devAsked { write := false, addr := 0x80000000, size := 4, data := 0 }) ∧
    (fun (chk : MemCheck) (x : PeerIn) (rest : List PeerIn) (v : Nat) (m : List Host.Cell) (d : Dev) =>
  let H (d : Dev) : Prop := cut 12 d = false ∧ d.brg.peerIn = x :: rest
  H d ∧ (busRead .peer 8 (peerAttr x.addr d) x.addr x.size chk m d).1 = some (.data v)) .good { write := false, addr := 0x80000000, size := 4, data := 0 } [] 0 [] (devAsked { write := false, addr := 0x80000000, size := 4, data := 0 }) ∧
    (fun (chk : MemCheck) (x : PeerIn) (rest : List PeerIn) (v : Nat) (m : List Host.Cell) (d : Dev) =>
  let H (d : Dev) : Prop := cut 12 d = false ∧ d.brg.peerIn = x :: rest
  H d ∧ (busWrite .peer 8 (peerAttr x.addr d) x.addr x.size x.data chk m d).1 = some (.data v)) .good { write := true, addr := 0x80000000, size := 4, data := 0 } [] 0 [] (devAsked { write := true, addr := 0x80000000, size := 4, data := 0 }) ∧
    (fun (i : Fin 8) (x : PeerReq) (d : Dev) =>
  let H (d : Dev) : Prop := cut 12 d = false ∧ d.brg.peerOut[i.val]? = some x ∧ x.waits = false
  (H) d) (7 : Fin 8) peerReq (devAsks peerReq) ∧
    (fun (i : Fin 8) (x : PeerReq) (d : Dev) =>
  let H (d : Dev) : Prop := cut 12 d = false ∧ d.brg.peerOut[i.val]? = some x ∧ x.waits = false
  H d ∧ x.tries < max 1 (fget F.PEER_CFG_RETRY_MAX (fsat F.PEER_CNT_RETRY_CNT 1 d))) (7 : Fin 8) peerReq (devAsks peerReq) ∧
    (fun (i : Fin 8) (x : PeerReq) (d : Dev) =>
  let H (d : Dev) : Prop := cut 12 d = false ∧ d.brg.peerOut[i.val]? = some x ∧ x.waits = false
  H d ∧ max 1 (fget F.PEER_CFG_RETRY_MAX (fsat F.PEER_CNT_RETRY_CNT 1 d)) ≤ x.tries) (7 : Fin 8) { peerReq with tries := 255 } (devAsks { peerReq with tries := 255 }) := by
  dsimp only
  and_intros <;> decide

theorem witness_PeerLinkCommandsComplete_by1 :
    (fun (d : Dev) => d.pair.mode = 0 ∨ flag F.PEER_CTRL_EN d = false ∨ peerUp d = true) devReset ∧
    (fun (d : Dev) => cut 12 d = false ∧ peerUp d = true ∧ (linkDown d).pair.role ≠ 4) (devPair 0) ∧
    (fun (d : Dev) => cut 12 d = false ∧ peerUp d = false) devReset ∧
    (fun (d : Dev) => fget F.PEER_STATUS_LINK d = 0) devReset ∧
    (fun (n : Fin 33) (d : Dev) => cut 12 d = false ∧ 0 < min n.val d.brg.unacked) (32 : Fin 33) (devAsks peerReq) ∧
    (fun (n : Fin 33) (d : Dev) => min n.val d.brg.unacked = 0) (32 : Fin 33) devReset ∧
    (fun (d : Dev) => cut 12 d = false) devReset ∧
    (fun (i : Fin 8) (x : PeerReq) (d : Dev) => cut 12 d = false ∧ d.brg.peerOut[i.val]? = some x ∧ x.waits = true) (7 : Fin 8) { peerReq with waits := true } (devAsks { peerReq with waits := true }) ∧
    (fun (i : Fin 8) (d : Dev) => d.brg.peerOut[i.val]? = none) (7 : Fin 8) devReset := by
  and_intros <;> decide

theorem witness_BusErrorsAndUpdateEventsComplete :
    (fun (d : Dev) => cut 24 d = false ∧ updState d = 1) (devUpd 1) ∧
    (fun (d : Dev) => updState d ≠ 1) devReset ∧
    (fun (d : Dev) => cut 24 d = false ∧ flag F.UPD_STATUS_TRIAL d = true ∧ d.pwr.booted = true ∧ tlState 0 d = 3) devTrial ∧
    (fun (d : Dev) => flag F.UPD_STATUS_TRIAL d = false ∨ d.pwr.booted = false ∨ tlState 0 d ≠ 3) devReset ∧
    (fun (d : Dev) => cut 24 d = false ∧ heard d = true) (devPair 0) ∧
    (fun (d : Dev) => heard d = false) devReset := by
  and_intros <;> decide

theorem witness_CanTransmissionCompletes :
    (fun (n : Fin 6) (p : Fin 2) (e : BitVec 12) (len : BitVec 7) (d : Dev) => cut (16 + n.val) d = false ∧ txResult n.val p.val e.toNat len.toNat d = 0) (5 : Fin 6) (1 : Fin 2) (4095 : BitVec 12) (8 : BitVec 7) (devRoute 2 0) ∧
    (fun (n : Fin 6) (p : Fin 2) (e : BitVec 12) (len : BitVec 7) (d : Dev) => cut (16 + n.val) d = false ∧ txResult n.val p.val e.toNat len.toNat d ≠ 0) (5 : Fin 6) (1 : Fin 2) (0 : BitVec 12) (0 : BitVec 7) devReset ∧
    (fun (n : Fin 6) (since : Nat) (d : Dev) => canSends n.val d = false ∨ canInTx since (canOf n.val d) = none) (5 : Fin 6) 0 devReset ∧
    (fun (n : Fin 6) (d : Dev) => cut (16 + n.val) d = false ∧ fget (F.CAN_CFG_TTL_MS n.val) d ≠ 0) (5 : Fin 6) (devCan 2 0 1) ∧
    (fun (n : Fin 6) (d : Dev) => fget (F.CAN_CFG_TTL_MS n.val) d = 0) (5 : Fin 6) devReset ∧
    (fun (n : Fin 6) (d : Dev) => cut (16 + n.val) d = false) (5 : Fin 6) devReset := by
  and_intros <;> decide

theorem witness_CanTransmissionCompletes_by1 :
    (fun (n : Fin 6) (p : Fin 2) (tag : Byte) (under : Option Nat) (i : Nat) (d : Dev) =>
  let place (d : Dev) : Option Nat := txPlace n.val p.val tag.toNat d
  cut (16 + n.val) d = false ∧ place d = some i ∧ canUnder under n.val d ≠ some i) (5 : Fin 6) (1 : Fin 2) (255 : Byte) none 0 (devTx canTx []) ∧
    (fun (n : Fin 6) (p : Fin 2) (tag : Byte) (under : Option Nat) (i : Nat) (x : CanTx) (d : Dev) =>
  let place (d : Dev) : Option Nat := txPlace n.val p.val tag.toNat d
  cut (16 + n.val) d = false ∧ place d = some i ∧ canUnder under n.val d = some i ∧ (canOf n.val d).queue[i]? = some x) (5 : Fin 6) (1 : Fin 2) (255 : Byte) (some 0) 0 canTx (devTx canTx []) ∧
    (fun (n : Fin 6) (p : Fin 2) (tag : Byte) (d : Dev) =>
  let place (d : Dev) : Option Nat := txPlace n.val p.val tag.toNat d
  place d = none) (5 : Fin 6) (1 : Fin 2) (0 : Byte) devReset ∧
    (fun (n : Fin 6) (since : Nat) (i : Nat) (x : CanTx) (d : Dev) =>
  let H (d : Dev) : Prop := cut (16 + n.val) d = false ∧ canSends n.val d = true ∧ canInTx since (canOf n.val d) = some i ∧
    (canOf n.val d).queue[i]? = some x
  (H) d) (5 : Fin 6) 0 0 canTx (devTx canTx []) ∧
    (fun (n : Fin 6) (since : Nat) (i : Nat) (x : CanTx) (f : CanFail) (d : Dev) =>
  let H (d : Dev) : Prop := cut (16 + n.val) d = false ∧ canSends n.val d = true ∧ canInTx since (canOf n.val d) = some i ∧
    (canOf n.val d).queue[i]? = some x
  let hits : Nat := if f = .collision then x.collides + 1 else 0
  let y : CanTx := { x with attempts := x.attempts + 1, collides := hits }
  let failed (d : Dev) : Dev :=
    let d1 := canQueuePut n.val i y (fsat (F.CAN_CNT_ERR_ERR n.val) 1 d)
    let d2 := if f = .collision then fsat (F.CAN_CNT_ABN_COLLIDE n.val) 1 d1 else d1
    if f = .exempt then d2 else fsat (F.CAN_ERRCNT_TEC n.val) 8 d2
  let most (d : Dev) : Nat := fget (F.CAN_CFG_COLLIDE_MAX n.val) (failed d)
  let given (d : Dev) : Dev :=
    if f = .collision ∧ most d ≠ 0 ∧ most d ≤ y.collides then
      canLeave n.val i 4 (recordC 0x0B06 n.val x.frame.id (fsat (F.CAN_CNT_ABN_ABANDON n.val) 1 (failed d)))
    else if x.cancelled then canLeave n.val i 2 (failed d)
    else if fget (F.CAN_CFG_RETRY n.val) (failed d) < y.attempts then canAbandon n.val i 1 (failed d) else failed d
  H d ∧ fget (F.CAN_ERRCNT_TEC n.val) (given d) ≤ 255) (5 : Fin 6) 0 0 canTx .error (devTx canTx [(F.CAN_ERRCNT_TEC 5, 247)]) ∧
    (fun (n : Fin 6) (since : Nat) (i : Nat) (x : CanTx) (f : CanFail) (d : Dev) =>
  let H (d : Dev) : Prop := cut (16 + n.val) d = false ∧ canSends n.val d = true ∧ canInTx since (canOf n.val d) = some i ∧
    (canOf n.val d).queue[i]? = some x
  let hits : Nat := if f = .collision then x.collides + 1 else 0
  let y : CanTx := { x with attempts := x.attempts + 1, collides := hits }
  let failed (d : Dev) : Dev :=
    let d1 := canQueuePut n.val i y (fsat (F.CAN_CNT_ERR_ERR n.val) 1 d)
    let d2 := if f = .collision then fsat (F.CAN_CNT_ABN_COLLIDE n.val) 1 d1 else d1
    if f = .exempt then d2 else fsat (F.CAN_ERRCNT_TEC n.val) 8 d2
  let most (d : Dev) : Nat := fget (F.CAN_CFG_COLLIDE_MAX n.val) (failed d)
  let given (d : Dev) : Dev :=
    if f = .collision ∧ most d ≠ 0 ∧ most d ≤ y.collides then
      canLeave n.val i 4 (recordC 0x0B06 n.val x.frame.id (fsat (F.CAN_CNT_ABN_ABANDON n.val) 1 (failed d)))
    else if x.cancelled then canLeave n.val i 2 (failed d)
    else if fget (F.CAN_CFG_RETRY n.val) (failed d) < y.attempts then canAbandon n.val i 1 (failed d) else failed d
  H d ∧ 255 < fget (F.CAN_ERRCNT_TEC n.val) (given d)) (5 : Fin 6) 0 0 canTx .collision (devTx canTx [(F.CAN_ERRCNT_TEC 5, 248)]) ∧
    (fun (n : Fin 6) (since : Nat) (i : Nat) (x : CanTx) (d : Dev) =>
  let H (d : Dev) : Prop := cut (16 + n.val) d = false ∧ canSends n.val d = true ∧ canInTx since (canOf n.val d) = some i ∧
    (canOf n.val d).queue[i]? = some x
  let lost (d : Dev) : Dev := fsat (F.CAN_CNT_ERR_ARB n.val) 1 d
  H d ∧ x.cancelled = false ∧ fget (F.CAN_CFG_RETRY n.val) (lost d) ≠ 0) (5 : Fin 6) 0 0 canTx (devTx canTx [(F.CAN_CFG_RETRY 5, 1)]) ∧
    (fun (n : Fin 6) (since : Nat) (i : Nat) (x : CanTx) (d : Dev) =>
  let H (d : Dev) : Prop := cut (16 + n.val) d = false ∧ canSends n.val d = true ∧ canInTx since (canOf n.val d) = some i ∧
    (canOf n.val d).queue[i]? = some x
  let lost (d : Dev) : Dev := fsat (F.CAN_CNT_ERR_ARB n.val) 1 d
  H d ∧ x.cancelled = false ∧ fget (F.CAN_CFG_RETRY n.val) (lost d) = 0) (5 : Fin 6) 0 0 canTx (devTx canTx [(F.CAN_CFG_RETRY 5, 0)]) ∧
    (fun (n : Fin 6) (since : Nat) (i : Nat) (x : CanTx) (d : Dev) =>
  let H (d : Dev) : Prop := cut (16 + n.val) d = false ∧ canSends n.val d = true ∧ canInTx since (canOf n.val d) = some i ∧
    (canOf n.val d).queue[i]? = some x
  H d ∧ x.cancelled = true) (5 : Fin 6) 0 0 { canTx with cancelled := true } (devTx { canTx with cancelled := true } []) := by
  dsimp only
  and_intros <;> decide

theorem witness_CanReceptionAndChannelsComplete :
    (fun (n : Fin 6) (f : CanFrame) (d : Dev) =>
  let hears (d : Dev) : Prop := cut (16 + n.val) d = false ∧ canMode n.val d ≠ 0 ∧ canEstate n.val d < 2 ∧
    fget (F.CAN_XCVR_STATE n.val) d < 2 ∧ (canOf n.val d).moving = false
  let seen (g : CanFrame) (d : Dev) : Dev := nsmFrame n.val g (canForeign n.val g (canReceived n.val d))
  let entry (g : CanFrame) (d : Dev) : Option Nat := (rtUsed (seen g d)).find? (fun e => rtMatches n.val e g (seen g d))
  hears d ∧ entry f d = none) (5 : Fin 6) { id := 0x7FE } (devRoute 1 0) ∧
    (fun (n : Fin 6) (f : CanFrame) (e : Nat) (p : Nat) (d : Dev) =>
  let hears (d : Dev) : Prop := cut (16 + n.val) d = false ∧ canMode n.val d ≠ 0 ∧ canEstate n.val d < 2 ∧
    fget (F.CAN_XCVR_STATE n.val) d < 2 ∧ (canOf n.val d).moving = false
  let seen (g : CanFrame) (d : Dev) : Dev := nsmFrame n.val g (canForeign n.val g (canReceived n.val d))
  let entry (g : CanFrame) (d : Dev) : Option Nat := (rtUsed (seen g d)).find? (fun e => rtMatches n.val e g (seen g d))
  hears d ∧ entry f d = some e ∧ rtDest e (seen f d) = p ∧ p < 2) (5 : Fin 6) { id := 0x7FF } 4095 1 (devRoute 1 1) ∧
    (fun (n : Fin 6) (f : CanFrame) (e : Nat) (d : Dev) =>
  let hears (d : Dev) : Prop := cut (16 + n.val) d = false ∧ canMode n.val d ≠ 0 ∧ canEstate n.val d < 2 ∧
    fget (F.CAN_XCVR_STATE n.val) d < 2 ∧ (canOf n.val d).moving = false
  let seen (g : CanFrame) (d : Dev) : Dev := nsmFrame n.val g (canForeign n.val g (canReceived n.val d))
  let entry (g : CanFrame) (d : Dev) : Option Nat := (rtUsed (seen g d)).find? (fun e => rtMatches n.val e g (seen g d))
  hears d ∧ entry f d = some e ∧ rtDest e (seen f d) = 2) (5 : Fin 6) { id := 0x7FF } 4095 (devRoute 1 2) ∧
    (fun (n : Fin 6) (f : CanFrame) (e : Nat) (d : Dev) =>
  let hears (d : Dev) : Prop := cut (16 + n.val) d = false ∧ canMode n.val d ≠ 0 ∧ canEstate n.val d < 2 ∧
    fget (F.CAN_XCVR_STATE n.val) d < 2 ∧ (canOf n.val d).moving = false
  let seen (g : CanFrame) (d : Dev) : Dev := nsmFrame n.val g (canForeign n.val g (canReceived n.val d))
  let entry (g : CanFrame) (d : Dev) : Option Nat := (rtUsed (seen g d)).find? (fun e => rtMatches n.val e g (seen g d))
  hears d ∧ entry f d = some e ∧ rtDest e (seen f d) = 3) (5 : Fin 6) { id := 0x7FF } 4095 (devRoute 1 3) ∧
    (fun (n : Fin 6) (node : Fin 64) (bs : List Byte) (d : Dev) =>
  let hears (d : Dev) : Prop := cut (16 + n.val) d = false ∧ canMode n.val d ≠ 0 ∧ canEstate n.val d < 2 ∧
    fget (F.CAN_XCVR_STATE n.val) d < 2 ∧ (canOf n.val d).moving = false
  let seen (g : CanFrame) (d : Dev) : Dev := nsmFrame n.val g (canForeign n.val g (canReceived n.val d))
  let entry (g : CanFrame) (d : Dev) : Option Nat := (rtUsed (seen g d)).find? (fun e => rtMatches n.val e g (seen g d))
  let kept (d : Dev) : CanFrame := { id := fget F.NSM_NM_BASE d + node.val, data := bs }
  hears d ∧ entry (kept d) d = none) (5 : Fin 6) (63 : Fin 64) [7] (devRoute 1 1) ∧
    (fun (n : Fin 6) (d : Dev) =>
  let deaf (d : Dev) : Prop := canMode n.val d = 0 ∨ 2 ≤ canEstate n.val d ∨ 2 ≤ fget (F.CAN_XCVR_STATE n.val) d ∨
    (canOf n.val d).moving = true
  (deaf) d) (5 : Fin 6) devReset ∧
    (fun (n : Fin 6) (d : Dev) =>
  let moded (d : Dev) : Dev := fset (F.CAN_STATUS_EFF_MODE n.val) (fget (F.CAN_CTRL_MODE n.val) d) d
  cut (16 + n.val) d = false ∧ canMode n.val (moded d) ≠ 0) (5 : Fin 6) (devCan 2 0 1) ∧
    (fun (n : Fin 6) (d : Dev) =>
  let moded (d : Dev) : Dev := fset (F.CAN_STATUS_EFF_MODE n.val) (fget (F.CAN_CTRL_MODE n.val) d) d
  cut (16 + n.val) d = false ∧ canMode n.val (moded d) = 0) (5 : Fin 6) devReset ∧
    (fun (n : Fin 6) (d : Dev) =>
  let noted (d : Dev) : Dev := fbitPut F.NSM_XWAKE_CH n.val true d
  let H (d : Dev) : Prop := cut (16 + n.val) d = false ∧ 2 ≤ fget (F.CAN_XCVR_STATE n.val) d ∧ flag (F.CAN_XCVR_WAKE_EN n.val) d = true
  let regs (d : Dev) : Bool := !flag F.NSM_REG_LEVEL (noted d) && flag F.NSM_REG_XWAKE_REG (noted d)
  H d ∧ regs d = false) (5 : Fin 6) devReset ∧
    (fun (n : Fin 6) (d : Dev) =>
  let noted (d : Dev) : Dev := fbitPut F.NSM_XWAKE_CH n.val true d
  let H (d : Dev) : Prop := cut (16 + n.val) d = false ∧ 2 ≤ fget (F.CAN_XCVR_STATE n.val) d ∧ flag (F.CAN_XCVR_WAKE_EN n.val) d = true
  let regs (d : Dev) : Bool := !flag F.NSM_REG_LEVEL (noted d) && flag F.NSM_REG_XWAKE_REG (noted d)
  H d ∧ regs d = true) (5 : Fin 6) devRegs := by
  dsimp only
  and_intros <;> decide

theorem witness_CanReceptionAndChannelsComplete_by1 :
    (fun (n : Fin 6) (d : Dev) => cut (16 + n.val) d = false ∧ canMode n.val d ≠ 0 ∧ canEstate n.val d < 2) (5 : Fin 6) (devCan 2 0 1) ∧
    (fun (n : Fin 6) (d : Dev) => canMode n.val d = 0 ∨ 2 ≤ canEstate n.val d) (5 : Fin 6) devReset ∧
    (fun (n : Fin 6) (d : Dev) => cut (16 + n.val) d = false ∧ canEstate n.val d = 2) (5 : Fin 6) (devCan 1 2 2) ∧
    (fun (n : Fin 6) (d : Dev) => canEstate n.val d ≠ 2) (5 : Fin 6) devReset ∧
    (fun (n : Fin 6) (d : Dev) => cut (16 + n.val) d = false ∧ canEstate n.val d = 3) (5 : Fin 6) (devCan 1 3 3) ∧
    (fun (n : Fin 6) (d : Dev) => canEstate n.val d ≠ 3) (5 : Fin 6) devReset ∧
    (fun (n : Fin 6) (d : Dev) => cut (16 + n.val) d = false) (5 : Fin 6) devReset ∧
    (fun (n : Fin 6) (d : Dev) => fget (F.CAN_XCVR_STATE n.val) d < 2 ∨ flag (F.CAN_XCVR_WAKE_EN n.val) d = false) (5 : Fin 6) (devCan 2 0 1) := by
  and_intros <;> decide

theorem witness_SleepAgreementCompletes :
    (fun (d : Dev) => nsmState d = 4) (devNsm 4) ∧
    (fun (d : Dev) => cut 22 d = false ∧ nsmState d = 0) devReset ∧
    (fun (d : Dev) => cut 22 d = false ∧ nsmState d ≠ 4 ∧ nsmState (fput F.NSM_CTRL_EN true d) ≠ 0) (devNsm 1) ∧
    (fun (d : Dev) => cut 22 d = false ∧ nsmState d ≠ 4) devReset ∧
    (fun (d : Dev) => cut 22 d = false ∧ flag F.NSM_CTRL_EN d = true ∧ ownVote d ≠ none) devVotes ∧
    (fun (d : Dev) => flag F.NSM_CTRL_EN d = false ∨ ownVote d = none) devReset ∧
    (fun (d : Dev) => cut 22 d = false) devReset ∧
    (fun (d : Dev) => cut 22 d = false ∧ nsmState d = 2) (devNsm 2) ∧
    (fun (d : Dev) => nsmState d ≠ 2) devReset ∧
    (fun (j : Fin 64) (d : Dev) => cut 22 d = false ∧ fget F.NSM_CAP_CAP_S d ≠ 0 ∧ nodesAwake d = [j.val] ∧ ownVote d = none) (63 : Fin 64) devCapped ∧
    (fun (j : Fin 64) (d : Dev) => fget F.NSM_CAP_CAP_S d = 0 ∨ nodesAwake d ≠ [j.val] ∨ ownVote d ≠ none) (63 : Fin 64) devReset ∧
    (fun (d : Dev) => cut 22 d = false ∧ nsmState (nsmEval d) ≠ 3) devReset := by
  and_intros <;> decide

theorem witness_SleepAgreementCompletes_by1 :
    (fun (d : Dev) =>
  let H (d : Dev) : Prop := cut 22 d = false ∧ nsmState (nsmEval d) = 3
  H d ∧ flag F.NSM_CTRL_TARGET (nsmEval d) = false) (devNsm 3) ∧
    (fun (d : Dev) =>
  let H (d : Dev) : Prop := cut 22 d = false ∧ nsmState (nsmEval d) = 3
  H d ∧ flag F.NSM_CTRL_TARGET (nsmEval d) = true) devSleeps := by
  dsimp only
  and_intros <;> decide

theorem witness_RecorderCommandsComplete :
    (fun (d : Dev) =>
  let H (d : Dev) : Prop := flag F.REC_STATUS_OPEN d = true
  H d ∧ 0 < d.side.lostNow ∧ d.side.intake.length < 64) (devRec [] 1 none none) ∧
    (fun (e : RecEvent) (rest : List RecEvent) (d : Dev) =>
  let H (d : Dev) : Prop := flag F.REC_STATUS_OPEN d = true
  H d ∧ (d.side.lostNow = 0 ∨ 64 ≤ d.side.intake.length) ∧ d.side.intake = e :: rest) recEvent [] (devRec [recEvent] 0 none none) ∧
    (fun (d : Dev) =>
  let due (d : Dev) : Bool := fget F.REC_CFG_MARK_MIN d != 0
     && decide (60 * fget F.REC_CFG_MARK_MIN d ≤ fget F.PWR_OPSEC_SEC d - d.side.newestAt)
     && !d.side.intake.any (fun e => e.code == 0x0D04 && !e.sw)
  due d = true) (devRec [] 1 none none) ∧
    (fun (d : Dev) =>
  let due (d : Dev) : Bool := fget F.REC_CFG_MARK_MIN d != 0
     && decide (60 * fget F.REC_CFG_MARK_MIN d ≤ fget F.PWR_OPSEC_SEC d - d.side.newestAt)
     && !d.side.intake.any (fun e => e.code == 0x0D04 && !e.sw)
  due d = false) devReset ∧
    (fun (m : List Host.Cell) (d : Dev) =>
  let back (m : List Host.Cell) (d : Dev) : List RecEntry := recRestorable (recScan m) d
  let refilled (m : List Host.Cell) (d : Dev) : List Host.Cell × Dev :=
   (back m d).foldl (fun (md : List Host.Cell × Dev) x => recRing x md.1 md.2) (m, recScanned (recScan m) d)
  let emptied (d : Dev) : Dev := fput F.REC_STATUS_FALLBACK false { d with side := { d.side with fallback := [] } }
  let opening (m : List Host.Cell) (d : Dev) : List Host.Cell × Dev :=
   let d1 := emptied (refilled m d).2
   let e : RecEvent := { code := 0x0D01, p1 := (recScan m).length
                         p2 := fget F.REC_BADSLOT_SCAN d1 + ((back m d).length <<< 16) + (b2n (recScan m).isEmpty <<< 24)
                         p3 := cycleNow d1, optime := opTime d1 }
   recStore .ok e (refilled m d).1 (raiseFlag 0x0D01 0 (fput F.REC_STATUS_OPEN true d1))
  (opening m d).2.side.carried = none) [] devReset ∧
    (fun (c : RecRun) (m : List Host.Cell) (d : Dev) =>
  let back (m : List Host.Cell) (d : Dev) : List RecEntry := recRestorable (recScan m) d
  let refilled (m : List Host.Cell) (d : Dev) : List Host.Cell × Dev :=
   (back m d).foldl (fun (md : List Host.Cell × Dev) x => recRing x md.1 md.2) (m, recScanned (recScan m) d)
  let emptied (d : Dev) : Dev := fput F.REC_STATUS_FALLBACK false { d with side := { d.side with fallback := [] } }
  let opening (m : List Host.Cell) (d : Dev) : List Host.Cell × Dev :=
   let d1 := emptied (refilled m d).2
   let e : RecEvent := { code := 0x0D01, p1 := (recScan m).length
                         p2 := fget F.REC_BADSLOT_SCAN d1 + ((back m d).length <<< 16) + (b2n (recScan m).isEmpty <<< 24)
                         p3 := cycleNow d1, optime := opTime d1 }
   recStore .ok e (refilled m d).1 (raiseFlag 0x0D01 0 (fput F.REC_STATUS_OPEN true d1))
  (opening m d).2.side.carried = some c ∧ c.count = 0) (recRun 0) [] (devRec [] 0 none (some (recRun 0))) ∧
    (fun (c : RecRun) (m : List Host.Cell) (d : Dev) =>
  let back (m : List Host.Cell) (d : Dev) : List RecEntry := recRestorable (recScan m) d
  let refilled (m : List Host.Cell) (d : Dev) : List Host.Cell × Dev :=
   (back m d).foldl (fun (md : List Host.Cell × Dev) x => recRing x md.1 md.2) (m, recScanned (recScan m) d)
  let emptied (d : Dev) : Dev := fput F.REC_STATUS_FALLBACK false { d with side := { d.side with fallback := [] } }
  let opening (m : List Host.Cell) (d : Dev) : List Host.Cell × Dev :=
   let d1 := emptied (refilled m d).2
   let e : RecEvent := { code := 0x0D01, p1 := (recScan m).length
                         p2 := fget F.REC_BADSLOT_SCAN d1 + ((back m d).length <<< 16) + (b2n (recScan m).isEmpty <<< 24)
                         p3 := cycleNow d1, optime := opTime d1 }
   recStore .ok e (refilled m d).1 (raiseFlag 0x0D01 0 (fput F.REC_STATUS_OPEN true d1))
  (opening m d).2.side.carried = some c ∧ c.count ≠ 0) (recRun 1) [] (devRec [] 0 none (some (recRun 1))) ∧
    (fun (code : BitVec 16) (d : Dev) =>
  let coded : Prop := 0x0100 ≤ code.toNat ∧ code.toNat ≤ 0x0FFF
  ¬ coded) (0x1000 : BitVec 16) devReset ∧
    (fun (t : Fin 5) (code : BitVec 16) (d : Dev) =>
  let e (d : Dev) : RecEvent := { code := code.toNat, p1 := fget (F.REC_SUB_P1_P1 t.val) d, p2 := fget (F.REC_SUB_P2_P2 t.val) d
                                  p3 := fget (F.REC_SUB_P3_P3 t.val) d, sw := true, tl := t.val }
  let coded : Prop := 0x0100 ≤ code.toNat ∧ code.toNat ≤ 0x0FFF
  coded ∧ recFull (e d) d = true) (4 : Fin 5) (0xFFF : BitVec 16) (devRec (List.replicate 64 { recEvent with p1 := 9 }) 0 none none) ∧
    (fun (t : Fin 5) (code : BitVec 16) (d : Dev) =>
  let e (d : Dev) : RecEvent := { code := code.toNat, p1 := fget (F.REC_SUB_P1_P1 t.val) d, p2 := fget (F.REC_SUB_P2_P2 t.val) d
                                  p3 := fget (F.REC_SUB_P3_P3 t.val) d, sw := true, tl := t.val }
  let coded : Prop := 0x0100 ≤ code.toNat ∧ code.toNat ≤ 0x0FFF
  coded ∧ recFull (e d) d = false) (4 : Fin 5) (0x100 : BitVec 16) (devRec (List.replicate 63 { recEvent with p1 := 9 }) 0 none none) ∧
    (fun (t : Fin 5) (seq : Word) (bs : List Byte) (m : List Host.Cell) (d : Dev) =>
  let asked (d : Dev) : Dev := fset (F.REC_RD_SEQ_SEQ t.val) seq.toNat d
  recRead m seq.toNat (asked d) = .valid bs) (4 : Fin 5) (5 : Word) (recordOf 5) (memPlace 0x700000A0 (recordOf 5) []) (devRec [] 0 none none) ∧
    (fun (t : Fin 5) (seq : Word) (m : List Host.Cell) (d : Dev) =>
  let asked (d : Dev) : Dev := fset (F.REC_RD_SEQ_SEQ t.val) seq.toNat d
  recRead m seq.toNat (asked d) = .overwritten) (4 : Fin 5) (5 : Word) (memPlace 0x700000A0 (recordOf 6) []) (devRec [] 0 none none) ∧
    (fun (t : Fin 5) (seq : Word) (m : List Host.Cell) (d : Dev) =>
  let asked (d : Dev) : Dev := fset (F.REC_RD_SEQ_SEQ t.val) seq.toNat d
  recRead m seq.toNat (asked d) = .bad) (4 : Fin 5) (5 : Word) [(0x700000A0, 1)] (devRec [] 0 none none) ∧
    (fun (t : Fin 5) (seq : Word) (m : List Host.Cell) (d : Dev) =>
  let asked (d : Dev) : Dev := fset (F.REC_RD_SEQ_SEQ t.val) seq.toNat d
  recRead m seq.toNat (asked d) = .gone) (4 : Fin 5) (0 : Word) [] devReset := by
  dsimp only
  and_intros <;> decide

theorem witness_RecorderCommandsComplete_by1 :
    (fun (d : Dev) => flag F.REC_STATUS_OPEN d = false ∨ (d.side.lostNow = 0 ∧ d.side.intake = [])) devReset ∧
    (fun (d : Dev) => d.side.run = none) devReset ∧
    (fun (x : RecRun) (d : Dev) => d.side.run = some x ∧ x.count = 0) (recRun 0) (devRec [] 0 (some (recRun 0)) none) ∧
    (fun (x : RecRun) (d : Dev) => d.side.run = some x ∧ x.count ≠ 0 ∧ d.side.intake.length < 64) (recRun 1) (devRec [] 0 (some (recRun 1)) none) ∧
    (fun (x : RecRun) (d : Dev) => d.side.run = some x ∧ x.count ≠ 0 ∧ 64 ≤ d.side.intake.length) (recRun 1) (devRec (List.replicate 64 recEvent) 0 (some (recRun 1)) none) := by
  and_intros <;> decide

theorem witness_TrestleFaultReported_0 :
    (fun (d : Dev) => (trestleFaulty) d) (devTl 5) :=
  ⟨0, by decide⟩

/-! ### Hypotheses that ask for a whole image or header -/

/-- A valid configuration image: CAN channel 0 in NORMAL, and a routing entry for the excitation message. -/
def image : List Byte :=
  [0x47, 0x5A, 0x43, 0x46, 2, 0, 64, 0, 108, 0, 0, 0, 1, 0, 0, 0, 1, 0, 0, 0, 1, 0, 0, 0] ++ List.replicate 40 0
    ++ [6, 0, 0, 0, 80, 0, 0, 0, 24, 0, 0, 0, 0x97, 0x1F, 0x5A, 0xAF]
    ++ [0x00, 0x00, 0x10, 0x20, 1, 0, 0, 0, 0x00, 0x80, 0x16, 0x20, 1, 0, 0, 0, 0x04, 0x80, 0x16, 0x20, 2, 0, 0, 0]
    ++ [0x75, 0x0C, 0x2D, 0x53]

/-- A format-1 image in slot 0 with one chemistry set, number 7, of which the slot's record says the length alone. -/
def chemImage : List Byte :=
  leBytes 4 0x46435A47 ++ leBytes 2 1 ++ List.replicate 14 0 ++ leBytes 2 1 ++ List.replicate 10 0
    ++ leBytes 2 0x10 ++ [0, 0] ++ leBytes 4 44 ++ leBytes 4 12 ++ [7, 0, 0, 0, 0, 0, 0, 0, 1, 2, 3, 4]
def chemMem : List Host.Cell := memPlace (slotBase 0) chemImage (memPlace (slotBase 0 + 0x100008) (leBytes 4 56) [])

theorem witness_paramReloaded : ∃ e : Nat × List Byte × Nat,
    (fun (k : Fin 8) (e : Nat × List Byte × Nat) (m : List Host.Cell) (d : Dev) => cut 5 d = false ∧ fbit F.EST_CHEM_BAD k.val d = true ∧
      (chemSets (slotImage m (fget F.CFG_STATUS_SLOT d))).find? (fun x => x.1 == k.val) = some e) 7 e chemMem (up [(F.EST_CHEM_BAD, 255)] devReset) :=
  ⟨(7, [1, 2, 3, 4], 44), by decide⟩

theorem witness_executeInstruction : (fun (t : Fin 5) (pa : Nat) (m : List Host.Cell) (d : Dev) =>
    tlIdle t.val d = false ∧ (tlOf t.val d).load = none ∧ (match fetchPa t.val m d with
      | .ok a => a = pa
      | .error _ => False)) 4 0 [] (devTl 3) :=
  ⟨by decide, by decide, rfl⟩

theorem witness_load : (fun (t : Fin 5) (l : LoadOp) (pc pa : Nat) (m : List Host.Cell) (d : Dev) =>
    tlIdle t.val d = false ∧ (tlOf t.val d).load = none ∧ (tlOf t.val d).latch = none ∧ fetchPa t.val m d = .ok pc ∧
      loadTrap l (tlOf t.val d).arch = none ∧ isIo pa = false ∧
      translate m (fetchFill t.val pc d) (tlOf t.val d).arch (dataMode (tlOf t.val d).arch l.hyp).1
        (dataMode (tlOf t.val d).arch l.hyp).2 .read l.va.toNat = .ok pa) 4 { va := 0xFFFFFFFFF8 } 0 0xFFFFFFFFF8 [] (devTl 3) :=
  ⟨by decide, by decide, by decide, rfl, by decide, by decide, rfl⟩

theorem witness_abstractCommand : (fun (t : Fin 5) (r : DebugReg) (d : Dev) => cut 27 d = false ∧ (∀ va size, r ≠ .mem va size) ∧
    (tlOf t.val d).halted = true ∧ dbgMay true (tlOf t.val d).arch.w d = true) 4 .pc devHalted :=
  ⟨by decide, nofun, by decide, by decide⟩


theorem witness_satRead : ∃ d1 : Dev,
    (fun (r : AixPacket) (hold : Bool) (k : Nat) (x : AixSession) (d1 : Dev) (d : Dev) =>
      let q := reqOf r 0x0703 hold none
      let B := engineBegun q k x
      EngineTakes q k x d ∧ svcAsk false (field q.payload 0 1) (field q.payload 1 1) (field q.payload 2 3) 0 (field q.payload 5 1) (B d) = (none, d1))
      (packet [15, 47, 0, 0, 0, 32]) true 0 session d1 (devAix chainLines) :=
  ⟨_, by simp only [EngineTakes, SessionTakes, PortTakes]; decide, Prod.ext (by decide) rfl⟩

theorem witness_satWrite : ∃ d1 : Dev,
    (fun (r : AixPacket) (hold : Bool) (k : Nat) (x : AixSession) (d1 : Dev) (d : Dev) =>
      let q := reqOf r 0x0704 hold none
      let B := engineBegun q k x
      EngineTakes q k x d ∧ svcAsk true (field q.payload 0 1) (field q.payload 1 1) (field q.payload 2 3) (field q.payload 5 2) 1 (B d) = (none, d1))
      (packet [15, 47, 0xFF, 0xFF, 1, 0, 0]) true 0 session d1 (devAix chainLines) :=
  ⟨_, by simp only [EngineTakes, SessionTakes, PortTakes]; decide, Prod.ext (by decide) rfl⟩

theorem witness_balSet : ∃ d1 : Dev,
    (fun (r : AixPacket) (hold : Bool) (k : Nat) (x : AixSession) (d1 : Dev) (d : Dev) =>
      let q := reqOf r 0x0305 hold none
      let B := engineBegun q k x
      EngineTakes q k x d ∧ svcAsk true (field q.payload 0 1) (field q.payload 1 1) ((Config.balWord 0).toNat % 0x20000)
        (field q.payload 2 2) 1 (B d) = (none, d1)) (packet [15, 47, 0, 0, 0, 0, 0, 0]) true 0 session d1 (devAix chainLines) :=
  ⟨_, by simp only [EngineTakes, SessionTakes, PortTakes]; decide, Prod.ext (by decide) rfl⟩

theorem witness_estRead : ∃ (st : Nat) (frags : List (List Byte)),
    (fun (r : AixPacket) (k : Nat) (x : AixSession) (st : Nat) (frags : List (List Byte)) (m : List Host.Cell) (d : Dev) =>
      let q := reqOf r 0x0301 false none
      let B := engineBegun q k x
      EngineTakes q k x d ∧ opEstRead q.payload m (B d) = (some (st, frags), m, B d))
      (packet [15, 0, 0xFF, 5, 1, 0]) 0 session st frags [] { devAix [] with est := { devReset.est with coverage := [1] } } :=
  ⟨_, _, by simp only [EngineTakes, SessionTakes, PortTakes]; decide, rfl⟩

theorem witness_logRead : ∃ frags : List (List Byte),
    (fun (r : AixPacket) (k : Nat) (x : AixSession) (frags : List (List Byte)) (m : List Host.Cell) (d : Dev) =>
      let q := reqOf r 0x0401 false none
      let B := engineBegun q k x
      EngineTakes q k x d ∧ opLogRead q.payload m (B d) = (some (stOk, frags), m, B d))
      (packet [0, 0, 0, 0, 0, 11]) 0 session frags [] (devAix []) :=
  ⟨_, by simp only [EngineTakes, SessionTakes, PortTakes]; decide, rfl⟩

theorem witness_updateBlock : (fun (r : AixPacket) (k : Nat) (x : AixSession) (m : List Host.Cell) (d : Dev) =>
    let q := reqOf r 0x0502 false none
    let B := engineBegun q k x
    EngineTakes q k x d ∧ (updBlock (field q.payload 0 4) (q.payload.drop 4) m (B d)).1 = stOk)
    (packet [0, 0, 0, 0, 0, 0, 0, 0, 0, 0, 0, 0]) 0 session [] (devAix [(F.UPD_STATUS_STATE, 2), (F.UPD_DONE_DONE, 1)]) :=
  ⟨by simp only [EngineTakes, SessionTakes, PortTakes]; decide, by decide⟩

theorem witness_updateActivate_asks : ∃ d1 : Dev,
    (fun (r : AixPacket) (hold : Bool) (k : Nat) (x : AixSession) (d1 : Dev) (d : Dev) =>
      let q := reqOf r 0x0503 hold none
      let B := engineBegun q k x
      EngineTakes q k x d ∧ activateCheck (field q.payload 0 1 == 1) q.ver (B d) = (none, d1) ∧
        (activateStart (field q.payload 0 1 == 1) d1).upd.asked = true) (packet [0]) true 0 session d1 (devStaged (updHeader 0 []) 4) :=
  ⟨(devStaged (updHeader 0 []) 4 |> engineBegun (reqOf (packet [0]) 0x0503 true none) 0 session),
    by simp only [EngineTakes, SessionTakes, PortTakes]; decide, Prod.ext (by decide) rfl, by decide⟩


/-- A class 2 image of one byte whose key digest cabinet slot 1 holds. -/
def beginHeader : List Byte := updHeader 2 [] 1
def devKeyed : Dev :=
  let d := devAix []
  { d with worlds := { d.worlds with cab := [(1, { bytes := some (digestBytes (sha384 ((beginHeader.drop 112).take 97))) })] } }

theorem begin_passes : beginCheck 2 beginHeader 3 [] (engineBegun (reqOf (packet ([2, 0, 0, 0] ++ beginHeader)) 0x0501 false none) 0 session devKeyed)
    = none := by
  have hk : keyOk beginHeader 2 (engineBegun (reqOf (packet ([2, 0, 0, 0] ++ beginHeader)) 0x0501 false none) 0 session devKeyed) = true :=
    beq_self_eq_true (some (digestBytes (sha384 ((beginHeader.drop 112).take 97))))
  unfold beginCheck
  rw [if_neg (by decide), if_neg (by decide), if_neg (by decide), hk, if_neg (by decide), if_neg (by decide), if_neg (by decide), if_neg (by decide)]
  decide

theorem witness_updateBegin : ∃ d1 : Dev, (fun (r : AixPacket) (k : Nat) (x : AixSession) (d1 : Dev) (m : List Host.Cell) (d : Dev) =>
    let q := reqOf r 0x0501 false none
    let B := engineBegun q k x
    EngineTakes q k x d ∧ updBegin (field q.payload 0 1) (q.payload.drop 4) q.ver m (B d) = (stOk, d1))
    (packet ([2, 0, 0, 0] ++ beginHeader)) 0 session d1 [] devKeyed := by
  refine ⟨(updBegin 2 beginHeader 3 [] (engineBegun (reqOf (packet ([2, 0, 0, 0] ++ beginHeader)) 0x0501 false none) 0 session devKeyed)).2,
    by simp only [EngineTakes, SessionTakes, PortTakes]; decide, Prod.ext ?_ rfl⟩
  show (updBegin 2 beginHeader 3 [] (engineBegun (reqOf (packet ([2, 0, 0, 0] ++ beginHeader)) 0x0501 false none) 0 session devKeyed)).1 = stOk
  unfold updBegin
  rw [begin_passes]

/-- A class 0 image of no bytes whose header bears its hash. -/
def stagedHeader : List Byte := updHeader 0 (digestBytes (sha384 []))

theorem staged_hash : hashOk stagedHeader [] = true := by
  unfold hashOk
  exact beq_iff_eq.mpr rfl

theorem witness_updateActivate : ∃ d1 : Dev, (fun (r : AixPacket) (k : Nat) (x : AixSession) (d1 : Dev) (m : List Host.Cell) (d : Dev) =>
    let q := reqOf r 0x0503 false none
    let B := engineBegun q k x
    EngineTakes q k x d ∧ activateCheck (field q.payload 0 1 == 1) q.ver (B d) = (none, d1) ∧
      (activateStart (field q.payload 0 1 == 1) d1).upd.asked = false ∧ (activateStart (field q.payload 0 1 == 1) d1).aix = (B d).aix ∧
      (activatePrepare m (activateStart (field q.payload 0 1 == 1) d1)).1 = stOk) (packet [0]) 0 session d1 [] (devStaged stagedHeader 0) := by
  refine ⟨engineBegun (reqOf (packet [0]) 0x0503 false none) 0 session (devStaged stagedHeader 0),
    by simp only [EngineTakes, SessionTakes, PortTakes]; decide, Prod.ext (by decide) rfl, by decide, by decide, ?_⟩
  unfold activatePrepare
  dsimp only
  rw [if_neg]
  · rw [if_neg (by decide), if_pos (by decide)]
  · show ¬ (crc32c [] ≠ field stagedHeader 32 4 ∨ hashOk stagedHeader [] = false ∨ (2 ≤ field stagedHeader 8 1 ∧ sigOk stagedHeader = false))
    rw [staged_hash]
    have h1 : crc32c [] = field stagedHeader 32 4 := by decide
    have h2 : ¬ 2 ≤ field stagedHeader 8 1 := by decide
    simp [h1, h2]


/-- The registers as `image` leaves them: no position is enabled, so no string has cells. -/
def imageRegs : Dev := entriesApply (allEntries image) {}

theorem image_regs : imageRegs.regs = [(R.CAN_CTRL 0, 1), (R.NSM_RT_0 0, 1), (R.NSM_RT_1 0, 2)] := by decide

theorem image_positions : ∀ n, n < 16 → ∀ p, p < 48 → flag (F.ACQ_POS_EN n p) imageRegs = false := by
  unfold flag fget regGet
  rw [image_regs]
  decide +kernel

theorem image_cells (k : Nat) : stringCells k imageRegs = [] := by
  unfold stringCells below
  refine List.flatMap_eq_nil_iff.mpr (fun n hn => List.map_eq_nil_iff.mpr (List.filter_eq_nil_iff.mpr (fun p hp => ?_)))
  rw [image_positions n (List.mem_range.mp hn) p (List.mem_range.mp hp)]
  exact Bool.false_ne_true

theorem image_high (n : Nat) (hn : n < 16) : below 48 (fun p => flag (F.ACQ_POS_EN n p) imageRegs && decide (fget (F.KZC_CH_CTRL_COUNT n) imageRegs ≤ p)) = [] := by
  unfold below
  refine List.filter_eq_nil_iff.mpr (fun p hp => ?_)
  rw [image_positions n hn p (List.mem_range.mp hp), Bool.false_and]
  exact Bool.false_ne_true

theorem image_strings : badStrings imageRegs = [] := by
  unfold badStrings
  have h1 : below 48 (fun k => stringCells k imageRegs != [] && !stringFits k imageRegs) = [] :=
    List.filter_eq_nil_iff.mpr (fun k _ => by simp [image_cells])
  dsimp only
  rw [h1, List.map_nil, List.nil_append]
  exact List.flatMap_eq_nil_iff.mpr (fun n hn => by rw [image_high n (List.mem_range.mp hn), List.map_nil])

theorem image_sets : badSets image (allEntries image) imageRegs = [] ∧ usedSets imageRegs = [] := by
  have hn : ∀ k < 48, (allEntries image).any (fun e => regOf e.addr == R.EST_STR_CHEM (k / 8)) = false := by decide
  refine ⟨?_, by simp [usedSets, image_cells, below]⟩
  unfold badSets below
  refine List.map_eq_nil_iff.mpr (List.filter_eq_nil_iff.mpr (fun k hk => ?_))
  simp [image_cells, hn k (List.mem_range.mp hk)]

theorem image_valid : checkImage image 108 (some (imgCrc image)) = none := by
  have hf : checkForm image 108 (some (imgCrc image)) = none := by decide
  have hm : checkMeaning image = none := by
    unfold checkMeaning
    have e : entriesApply (allEntries image) {} = imageRegs := rfl
    simp only [e, image_strings, image_sets.1, image_sets.2]
    decide
  unfold checkImage
  rw [hf, hm]

/-- The image staged, and a packet that commits it to slot 0. -/
def imageMem : List Host.Cell := memPlace (cfgStage devReset) image []
def commitPacket : AixPacket := packet (leBytes 4 (imgCrc image) ++ [0, 0, 0, 0])
def devImage : Dev := devAix [(F.CFG_STAGE_TOTAL_TOTAL, 108), (F.CFG_STAGE_LEN_RECEIVED, 108)]
def commitBegun : Dev := engineBegun (reqOf commitPacket 0x0102 false none) 0 session devImage

theorem image_staged : memRead imageMem (cfgStage commitBegun) 108 = image := by decide

theorem image_slots : newestSlot imageMem = none := by decide

theorem ready_of_valid (img : List Byte) (n : Nat) (c : Option Nat) (h : checkImage img n c = none)
    (hf : imgFormat img ≠ 1) : imageReady img n c = .ok img := by
  simp only [imageReady, h, if_neg hf]

theorem image_ready : imageReady image 108 (some (imgCrc image)) = .ok image := by
  exact ready_of_valid image 108 (some (imgCrc image)) image_valid (by decide)

theorem image_plan : commitPlan (imgCrc image) 0 imageMem commitBegun = { status := stOk, slot := 0, img := image } := by
  have h1 : fget F.CFG_STAGE_TOTAL_TOTAL commitBegun = 108 := by decide
  have h2 : fget F.CFG_STAGE_LEN_RECEIVED commitBegun = 108 := by decide
  unfold commitPlan
  simp only [h1, h2, image_staged, image_slots, image_ready]
  rw [if_neg (by decide), if_neg (by decide)]
  rfl

theorem witness_configCommit : ∃ frags : List (List Byte),
    (fun (r : AixPacket) (fault : Option Nat) (k : Nat) (x : AixSession) (frags : List (List Byte)) (m : List Host.Cell) (d : Dev) =>
      let q := reqOf r 0x0102 false fault
      let B := engineBegun q k x
      EngineTakes q k x d ∧ (opCommit q.payload m (B d)).1 = some (stOk, frags)) commitPacket none 0 session frags imageMem devImage := by
  have h1 : field (leBytes 4 (imgCrc image) ++ [0, 0, 0, 0]) 0 4 = imgCrc image := by decide
  have h2 : field (leBytes 4 (imgCrc image) ++ [0, 0, 0, 0]) 4 1 = 0 := by decide
  have h3 : imgFormat (memRead imageMem (cfgStage commitBegun) (fget F.CFG_STAGE_TOTAL_TOTAL commitBegun)) ≠ 1 := by decide
  have h : (opCommit (leBytes 4 (imgCrc image) ++ [0, 0, 0, 0]) imageMem commitBegun).1 =
      some (stOk, [leBytes 4 (imgCrc image) ++ leBytes 1 0 ++ [0] ++ leBytes 2 0 ++ leBytes 4 0]) := by
    unfold opCommit
    simp only [h1, h2, image_plan, if_neg h3, if_true, opOk]
  exact ⟨_, by simp only [EngineTakes, SessionTakes, PortTakes]; decide, h⟩

/-! ### Hypotheses of the statements that are not about completion -/

def stateOf (d : Dev) (m : List Host.Cell := []) (q : List Instr := []) : State := { State.reset with dev := d, mem := m, pending := q }

theorem witness_StepTakesFront : (stateOf devReset [] [.forceHold true, .peerClr]).pending = .forceHold true :: [.peerClr] := rfl

theorem witness_IdleStepIsOneTick :
    (stateOf devReset).pending = [] ∧
    (clocksRun devReset = true ∧ flag F.ANG_STATUS_HELD devReset = false ∧ (devReset.clk + 1) % 100000000 ≠ 0) ∧
    clocksRun (devDeep 2) = false := ⟨rfl, by decide, by decide⟩

theorem witness_QueueServedFirstInFirstOut :
    2 ≤ (stateOf devReset [] [.peerClr, .forceHold true]).pending.length ∧
    (stateOf devReset [] [.peerClr, .forceHold true]).pending = .peerClr :: [.forceHold true] ∧
    ∃ t, Machine.exec .peerClr (stateOf devReset [] [.forceHold true]) = .next t := ⟨by decide, rfl, _, rfl⟩

theorem witness_MemoryFormKeptByEveryStep : Memory.wf (stateOf devStore [] [.storeDrain 4 .good false]).mem = true ∧
    ∃ t, Machine.step (stateOf devStore [] [.storeDrain 4 .good false]) = .next t := ⟨by decide, _, rfl⟩

/-- Writes of a byte to the last byte of the SRAM, the estimator store, the MRAM and the DRAM. -/
def lastByte (a : Nat) : SbEntry := { addr := a, size := 1, data := 5, attr := 0x31, committed := true }
def devLast (c base a : Nat) : Dev :=
  up [(F.RC_BASE_BASE c 0, base / 256), (F.RC_CFG_SIZE c 0, 31), (F.RC_CFG_EN c 0, 1), (F.RC_CFG_S_W c 0, 1)]
    (devHart (fun x => { x with store := [lastByte a] }))
def drains (t : Fin 5) (e : SbEntry) (rest : List SbEntry) (c : Nat) (s : State) : Prop :=
  (tlOf t.val s.dev).store = e :: rest ∧ e.committed = true ∧ (c = 1 ∨ c = 2 ∨ c = 7 ∨ c = 8) ∧
    accessTarget e.addr e.size = some c ∧ (c = 2 → flag F.EST_CTRL_EN s.dev = false) ∧ granted c e.addr e.size 1 e.attr s.dev = true ∧
    badMeets e.addr e.size s.dev = none

theorem witness_DrainedStoreReachesMemory :
    drains 0 sbEntry [] 8 (stateOf devStore) ∧
    drains 4 (lastByte 0xFFFFFFFF) [] 8 (stateOf (devLast 8 0x80000000 0xFFFFFFFF)) ∧
    drains 4 (lastByte (sramBase + 0x1FFFFF)) [] 1 (stateOf (devLast 1 sramBase (sramBase + 0x1FFFFF))) ∧
    drains 4 (lastByte (storeBase + 0x3FFFFF)) [] 2 (stateOf (devLast 2 storeBase (storeBase + 0x3FFFFF))) ∧
    drains 4 (lastByte (mramBase + 0x1FFFFF)) [] 7 (stateOf (devLast 7 mramBase (mramBase + 0x1FFFFF))) := by
  unfold drains
  exact ⟨by decide, by decide, by decide, by decide, by decide⟩

theorem witness_CabinetErrorLeavesSlots :
    ((4 : Nat) < 5 ∧ (15 : Nat) < 16 ∧ fget F.CAB_STAT_ERR (cabCmd 4 15 0 false devReset) ≠ 0) ∧
    ((0 : Nat) < 5 ∧ (1 : Nat) < 16 ∧ fget F.CAB_STAT_ERR (cabCmd 0 1 0 true devReset) ≠ 0) ∧ (15 : Nat) < 16 :=
  ⟨by decide, by decide, by decide⟩

theorem witness_ResetTurnsOutputsOff : devReset.pwr.down = false ∧
    (devSupply.pwr.down = false ∧ devSupply.lsw.noGround = true) ∧
    asleep devReset = false ∧ asleep (devDeep 2) = false :=
  ⟨by decide, by decide, by decide, by decide⟩

/-- An update COMPLETE of class `c` in zone state `z`. -/
def devComplete (c z : Nat) (h : List Byte) : Dev :=
  let d := up [(F.UPD_STATUS_STATE, 3), (F.UPD_STATUS_CLASS, c), (F.PROT_STATUS_ZSTATE, z)] devReset
  { d with upd := { d.upd with header := h } }
def permits (when1 : Bool) (d : Dev) : Prop :=
  let c := fget F.UPD_STATUS_CLASS d
  (c ≤ 4 ∧ (zone d = 0 ∨ zone d = 1 ∨ when1 = true)) ∨ (c = 5 ∧ when1 = false ∧ zone d = 1) ∨ c = 6

theorem witness_ActivationPermittedByClassAndZone :
    updState devReset ≠ 3 ∧
    (updState (devComplete 5 1 []) = 3 ∧ fget F.UPD_STATUS_CLASS (devComplete 5 1 []) = 5) ∧
    (updState (devComplete 4 2 []) = 3 ∧ ¬ permits false (devComplete 4 2 [])) ∧
    (updState (devComplete 5 0 []) = 3 ∧ ¬ permits false (devComplete 5 0 [])) ∧
    ¬ permits true (devComplete 7 1 []) ∧
    (permits true (devComplete 3 2 []) ∧ permits false (devComplete 5 1 []) ∧ permits false (devComplete 6 6 [])) ∧
    ¬ (fget F.UPD_STATUS_CLASS (devComplete 4 1 []) = 4 ∧ updPaired (devComplete 4 1 []) = true) ∧
    versionRules (devComplete 0 1 []).upd.header 3 (devComplete 0 1 []) = some stVersion ∧
    versionRules (devComplete 0 1 (updHeader 0 [])).upd.header 3 (devComplete 0 1 (updHeader 0 [])) = none := by
  unfold permits
  exact ⟨by decide, by decide, by decide, by decide, by decide, by decide, by decide, by decide, by decide⟩

theorem witness_ProtectionInterruptRegisters : (0 < 16 ∧ 15 < 16) ∧ 16 ≤ 16 ∧ (0 ≤ 13 ∧ 13 ≤ 13) := by decide

theorem witness_TimestampReadLatchesItsUpperBits : (0 : Nat) ≠ 4 ∧ (R.ANG_NOW_LO = R.ANG_NOW_LO ∨ R.ANG_NOW_LO = R.ANG_NOW_HI) ∧
    clocksRun (stateOf devReset).dev = true := by decide

/-- A hart that returns to M-mode. -/
def archM : Arch := { csr := [(0x300, 0x1800)] }

theorem witness_WorldOfTrapsAndReturns : ((0 : Nat) < 5 ∧ (4 : Nat) < 5) ∧
    (bitsOf (mst {}) 11 2 ≠ 3 ∧ (1 : Nat) ≠ 0) ∧ bitsOf (mst archM) 11 2 = 3 := by decide

/-- The recorder with an event waiting, its ring holding sequence number `n`. -/
def devLogs (n : Nat) : Dev := up [(F.REC_NEWEST_SEQ, n)] (devRec [recEvent] 0 none none)

theorem witness_RecordLayoutInTheRing : ∀ n ∈ [5, 0xFFFFFFFF],
    flag F.REC_STATUS_OPEN (devLogs n) = true ∧ flag F.REC_STATUS_FALLBACK (devLogs n) = false ∧
    flag F.REC_STATUS_MRAM_FAIL (devLogs n) = false ∧ (devLogs n).side.lostNow = 0 ∧ (devLogs n).side.intake = recEvent :: [] ∧
    fget F.REC_HELD_HELD (devLogs n) ≠ 0 ∧ fget F.REC_NEWEST_SEQ (devLogs n) = n := by decide

theorem witness_OneTimeAndHutchMemorySurviveResets :
    (otpRegs.length ≠ 0 ∧ hutchRegs.length ≠ 0) ∧
    (∃ t, Machine.exec .rstNReset (stateOf devReset) = .next t) ∧ (∃ t, Machine.exec (.sysReset 0x5D) (stateOf devReset) = .next t) ∧
    ∃ t, Machine.exec (.powerOnReset true) (stateOf devReset) = .next t := ⟨by decide, ⟨_, rfl⟩, ⟨_, rfl⟩, _, rfl⟩

theorem witness_ClearCommandsChangeTheirCountersAlone :
    cut 12 devReset = false ∧ cut (16 + 5) devReset = false ∧ cut (13 + 1) devReset = false := by decide

theorem witness_StagingEraseReachesItsBlocksAlone :
    (Memory.wf (stateOf (devUpd 1)).mem = true ∧ cut 24 (devUpd 1) = false ∧ updState (devUpd 1) = 1) ∧
    (0x63000000 ≤ 0x63000FFF ∧ 0x63000FFF < 0x63000000 + 0x1000 ∧ 0x63000FFF < 0x64000000) := by decide

theorem witness_AngleNeverRunsBackward : (stateOf devReset).pending = [] ∧ (∃ t, Machine.step (stateOf devReset) = .next t) ∧
    flag F.ANG_STATUS_HELD devHeld = true ∧ clocksRun (devDeep 4) = false := ⟨rfl, ⟨_, rfl⟩, by decide, by decide⟩

theorem witness_SecurityVersionsAndLifecycleNeverFall : ((0 : Nat) < 5 ∧ (4 : Nat) < 5) ∧
    (∃ t, Machine.exec .bankConfirmed (stateOf devTrial) = .next t) ∧ (∃ t, Machine.exec (.otpProgrammed true) (stateOf devBusy) = .next t) ∧
    cut 27 devBusy = false ∧ flag F.DBG_STAT_BUSY devBusy = true := ⟨by decide, ⟨_, rfl⟩, ⟨_, rfl⟩, by decide, by decide⟩

/-- CAN channel 5 with `k` frames queued. -/
def devQueue (k : Nat) : Dev :=
  let d := devTx canTx []
  { d with nsm := { d.nsm with cans := [(5, { queue := List.replicate k canTx })] } }

theorem witness_CanQueueHoldsAtMost16 : ∀ k ∈ [0, 15, 16],
    canCounted (canOf 5 (devQueue k)) = k ∧ k ≤ 16 ∧
    ∃ t, Machine.exec (.txCmd 5 0 0xFFF 64 true) (stateOf (devQueue k)) = .next t := by
  intro k hk
  have h : canCounted (canOf 5 (devQueue k)) = k ∧ k ≤ 16 := (by decide : ∀ k ∈ [0, 15, 16], canCounted (canOf 5 (devQueue k)) = k ∧ k ≤ 16) k hk
  exact ⟨h.1, h.2, _, rfl⟩

theorem witness_SleepAndCutsRefusedWhileArmed :
    ((1 ≤ (1 : BitVec 3).toNat ∧ (1 : BitVec 3).toNat ≤ 4) ∧ (1 ≤ (4 : BitVec 3).toNat ∧ (4 : BitVec 3).toNat ≤ 4)) ∧
    ((devZone 2).pwr.target = 0 ∧ zone (devZone 2) ≠ 0 ∧ zone (devZone 2) ≠ 1) ∧
    (∀ i ∈ [3, 25], i ∈ cutKept ∧ (0x02000008 : Word).toNat.testBit i = true ∧
      (fget (cutField 0) (devZone 2)).testBit i = false ∧ (cutMask 0).testBit i = true ∧
      (fget (cutField 1) (devZone 2)).testBit i = false ∧ (cutMask 1).testBit i = true) ∧
    (4 ∈ cutKept ∧ (0x10 : Word).toNat.testBit 4 = true ∧ (fget (cutField 2) (devZone 2)).testBit 4 = false ∧
      (cutMask 2).testBit 4 = true) := by decide

/-- The first clause of AngleStandsInDeepSleep, at both ends of its range. -/
theorem witness_deepSleep : ((devDeep 2).pwr.sealed = true ∧ 2 ≤ (devDeep 2).pwr.target) ∧
    ((devDeep 4).pwr.sealed = true ∧ 2 ≤ (devDeep 4).pwr.target) := by decide

/-! ### WellFormed refuses (one ill-formed term for each check) -/

theorem test_ill_formed_refused : (
    [.cycleBoundary {} { ns := 1000000000 }, .ptpSync 0 0 { ns := 1000000000 }, .dataBurst 0 .a (List.replicate 7 0) false,
    .dataRetx 0 .a (List.replicate 599 0), .syncReceived 0 .a { ordP := 32 } 0, .enumResp 0 { pos := 64 },
    .enumReceived 0 (.commit 3 0 false), .enumReceived 0 (.commit 1 49 false), .delayTableTransfer 0 [some 0],
    .alignTransfer 0 [{ chain := 0, pos := 0, bytes := [] }] true, .digestMessage { chains := List.replicate 17 (0, 0) },
    .lossEstimate 0 [], .executeInstruction 0 { store := some { size := 3 } } .good, .load 0 { size := 0 } .good, .abstractCommand 0 (.mem 0 3) none,
    .comparatorMismatch 0 7 0 false, .comparatorMismatch 0 11 0 false,
    .systemBusAccess true 0 16 0 .good, .peerRequest true 0 3 0, .peerResponse 0 (.data (List.replicate 65 0)),
    .canFrameReceived 0 { id := 2048 } 0, .canFrameReceived 0 { fdf := true, rtr := true } 0,
    .canFrameReceived 0 { data := List.replicate 9 0 } 0, .keepAlive 0 0 [] 0, .boot (List.replicate 6 .pass) false,
    .roleExchange { role := 6 }, .roleExchange { zone := 7 }, .hello { via := 2, payload := List.replicate 241 0 },
    .regRead { payload := List.replicate 1433 0 } false, .tenantRequest { drawer := 0 } 0, .tenantRequest { drawer := 1, via := 2 } 0,
    .echoRequest 0 {} (List.replicate 1501 0)] : List Instr).all (fun i => !WellFormed i) = true := by decide

theorem test_well_formed_accepted : (
    [.cycleBoundary {} { ns := 999999999 }, .dataBurst 0 .a (List.replicate 598 0) false, .enumReceived 0 (.commit 2 48 false),
    .lossEstimate 0 (List.replicate 32 {}), .peerRequest false 0 64 0, .canFrameReceived 0 { fdf := true, data := List.replicate 64 0 } 0,
    .hello { via := 2, payload := List.replicate 240 0 }, .tenantRequest { drawer := 1 } 0, .peerClr] : List Instr).all WellFormed = true := by decide

/-! ### The machine -/

theorem test_reset_memory : Memory.wf State.reset.mem = true := by decide

theorem test_no_word_spells_a_command : State.reset.withFetchWord 16 0x1234 = State.reset := rfl

/-- SYS_ID as the HELLO reply of the worked example in the protocol file shows it. -/
theorem test_sys_id : regGet State.reset.dev R.SYS_ID = 0x7100B101 := by decide

/-- The check values of CRC-32C and CRC-16 over the digits 1 to 9; the latter is the one the CRC table of the scope file gives. -/
theorem test_crc_check_values : crc32c [0x31, 0x32, 0x33, 0x34, 0x35, 0x36, 0x37, 0x38, 0x39] = 0xE3069283 ∧
    crc16 [0x31, 0x32, 0x33, 0x34, 0x35, 0x36, 0x37, 0x38, 0x39] = 0x29B1 := by decide

/-! ### Accesses and answers -/

/-- DRAM open to secure reads, and a load of it. -/
def devOpenRead : Dev := up [(F.RC_CFG_S_R 8 0, 1)] (dramOpen (devTl 3))

theorem witness_TrestleAccessesTakeEffect_write :
    granted 3 (0x20000000 + R.EST_INIT_FRAME) 4 1 ((0x31 : Byte).toNat ||| 0x80) devReset = true ∧ cut 5 devReset = false := by decide

theorem witness_TrestleAccessesTakeEffect_load : (fun (t : Fin 5) (l : LoadOp) (pc pa c : Nat) (m : List Host.Cell) (d : Dev) =>
    tlIdle t.val d = false ∧ (tlOf t.val d).load = none ∧ (tlOf t.val d).latch = none ∧ d.brg.held = [] ∧ d.brg.peerOut = [] ∧
      fetchPa t.val m d = .ok pc ∧ loadTrap l (tlOf t.val d).arch = none ∧
      translate m (fetchFill t.val pc d) (tlOf t.val d).arch (dataMode (tlOf t.val d).arch l.hyp).1
        (dataMode (tlOf t.val d).arch l.hyp).2 .read l.va.toNat = .ok pa ∧
      isIo pa = false ∧ accessTarget pa l.size = some c ∧ (c = 0 ∨ c = 1 ∨ c = 2 ∨ c = 6 ∨ c = 7 ∨ c = 8) ∧
      granted c pa l.size 0 (tlAttr (tlOf t.val d).arch (dataMode (tlOf t.val d).arch l.hyp).1 (dataMode (tlOf t.val d).arch l.hyp).2 pa)
        (fetchFill t.val pc d) = true ∧ badMeets pa l.size d = none) 4 { va := 0x80000000 } 0 0x80000000 8 [] devOpenRead :=
  ⟨by decide, by decide, by decide, by decide, by decide, rfl, by decide, rfl, by decide, by decide, by decide, by decide, by decide⟩

theorem witness_TrestleAccessesTakeEffect_return : (tlOf 4 (devLoad busLoad)).load = some busLoad ∧ busLoad.error = none ∧
    busLoad.data = some 1 ∧ tlIdle 4 (devLoad busLoad) = false ∧ busLoad.op.fp = false := by decide

/-- A request of drawer 0 whose answer waits for AIX_CMT. -/
def devAnswers : Dev :=
  { devNet 0 with aix := { (devNet 0).aix with cur := some { opcode := 0x0101, seq := 6, session := 5, slot := 0 }
                                               held := true, ready := some (0, [[7]]) } }

theorem witness_CommittedRequestIsAnswered : devAnswers.aix.cur = some { opcode := 0x0101, seq := 6, session := 5, slot := 0 } ∧
    devAnswers.aix.held = true ∧ devAnswers.aix.ready = some (0, [[7]]) ∧ devAnswers.aix.deferred = [] ∧ devAnswers.aix.queue = [] ∧
    engineUp devAnswers = true ∧ (0 : Nat) ≠ stRecomputed := by decide

end Sys2Proof.Tests
end

namespace Sys2Proof.Machine

/-! ### Registers under a write; the state after reset and the identification (O6, O7) -/

/-- Bits put back where they were read leave the number. -/
theorem bitsPut_bitsOf_self (n lo w : Nat) : bitsPut n lo w (bitsOf n lo w) = n := by
  apply Nat.eq_of_testBit_eq
  intro i
  rw [bitsPut_testBit]
  split
  next hi =>
    rw [bitsOf_testBit, Nat.add_sub_cancel' hi.1]
    have : i - lo < w := by omega
    simp [this]
  · rfl

/-- A write leaves a register whose fields are all RO (R9). -/
theorem regAfter_of_ro (a : Nat) (secure : Bool) (w : Nat) (d : Dev) (h : ∀ f ∈ regFields a, f.acc = .ro) :
    regAfter a secure w d = (regGet d a).toNat := by
  have step : ∀ n : Nat, ∀ f ∈ regFields a,
      bitsPut n f.lo f.width (fieldWrite a f secure (bitsOf w f.lo f.width) (bitsOf n f.lo f.width) d) = n := by
    intro n f hf
    rw [fieldWrite, h f hf]
    exact bitsPut_bitsOf_self n f.lo f.width
  unfold regAfter
  split
  · rfl
  · exact List.foldlRecOn _ _ (motive := fun n => n = (regGet d a).toNat) rfl (fun n hn f hf => (step n f hf).trans hn)

/-- With no bit kept, a merge is the new word. -/
theorem ofNat_merge_zero (x y : Nat) : BitVec.ofNat 32 (merge 0 x y) = BitVec.ofNat 32 x := by
  have hm : merge 0 x y = x % 2 ^ 64 := by simp [merge, Nat.and_two_pow_sub_one_eq_mod x 64]
  apply BitVec.eq_of_toNat_eq
  simp [hm]

/-- Where the register has no operation of its own, a write gives it the word that its access codes make, and does no more. -/
theorem fieldsWrite_plain (a : Nat) (secure : Bool) (w : Nat) (d : Dev) (hk : regKeep a = 0) (ha : a ≠ R.ACQ_CTRL) :
    fieldsWrite a secure w d = regPut a (BitVec.ofNat 32 (regAfter a secure w d)) d := by
  unfold fieldsWrite
  simp only [if_neg ha, hk, Nat.zero_mod, ofNat_merge_zero]

/-- The bytes of SYS_ID stand at place 8 of a HELLO's reply, behind VERSION, WINDOW, the size and the session. -/
theorem helloBytes_id (r : AixReq) (v id : Nat) (d : Dev) : ((helloBytes r v id d).drop 8).take 4 =
    leBytes 4 (fget F.SYS_ID_DEVICE d * 65536 + fget F.SYS_ID_STEPPING d * 256 + fget F.SYS_ID_PACKAGE d) := by
  simp [helloBytes, leBytes]

/-- Settles O6: after reset nothing waits, nothing is stored and nothing has left; a register without an entry reads its reset value. -/
theorem resetIsWellFormed : Obligations.ResetIsWellFormed := ⟨rfl, rfl, rfl, rfl, fun _ => rfl⟩

/-- Settles O7: the three fields of SYS_ID are RO. -/
theorem identificationAfterReset : Obligations.IdentificationAfterReset := by
  refine ⟨by decide, fun secure w d => ?_, helloBytes_id⟩
  rw [fieldsWrite_plain _ _ _ _ rfl (by decide), regGet_regPut_same, regAfter_of_ro _ _ _ _ (by decide), BitVec.ofNat_toNat,
    BitVec.setWidth_eq]

/-! ### A trestle beyond its registers -/

@[simp] theorem tlOf_tlPut_same (t : Nat) (x : Trestle) (d : Dev) : tlOf t (tlPut t x d) = x :=
  tabGet_tabSet_same _ _ _ _

@[simp] theorem tlPut_brg (t : Nat) (x : Trestle) (d : Dev) : (tlPut t x d).brg = d.brg := rfl

/-- A line filled into the instruction caches leaves the trestle's registers, load and latch. -/
theorem tlOf_fetchFill (t pa : Nat) (d : Dev) :
    tlOf t (fetchFill t pa d) = { tlOf t d with icache := lineFill (tlOf t d).icache pa } := tlOf_tlPut_same t _ d

/-! ### Accesses of the trestles (O10) -/

/-- A granted write of a word that a peripheral slot takes acts by regWrite, with the monitor's copy for a trestle that it releases. -/
theorem busWrite_register (o : Origin) (t attr reg data : Nat) (m : List Host.Cell) (d : Dev)
    (hc : accessTarget (0x20000000 + reg) 4 = some 3) (hg : granted 3 (0x20000000 + reg) 4 1 attr d = true)
    (hr : reg % 4 = 0) (hs : slotDead (reg / 0x10000) d = false) :
    busWrite o t attr (0x20000000 + reg) 4 data .good m d =
      (some (.data 0), withMonitor (regWrite t attr reg (data % 2 ^ 32) m) m d) := by
  have ho : regOf (0x20000000 + reg) = reg := Nat.add_sub_cancel_left _ _
  have hp : periRefuses (0x20000000 + reg) 4 d = none := by
    have ha : (0x20000000 + reg) % 4 = 0 := by omega
    simp [periRefuses, ho, ha, hs]
  simp [busWrite, hc, hg, hp, ho]

/-- A write that is granted is captured by no bus error. -/
theorem postedWrite_register (t attr reg data : Nat) (m : List Host.Cell) (d : Dev)
    (hc : accessTarget (0x20000000 + reg) 4 = some 3) (hg : granted 3 (0x20000000 + reg) 4 1 attr d = true)
    (hr : reg % 4 = 0) (hs : slotDead (reg / 0x10000) d = false) :
    postedWrite t attr (0x20000000 + reg) 4 data .good m d = withMonitor (regWrite t attr reg (data % 2 ^ 32) m) m d := by
  rw [postedWrite, busWrite_register _ t attr reg data m d hc hg hr hs]

/-- REGISTER_WRITE of a word that is granted and no commit write. -/
theorem registerWrite_granted (t attr reg : Nat) (w : Word) (m : List Host.Cell) (d : Dev)
    (hc : accessTarget (0x20000000 + reg) 4 = some 3) (hg : granted 3 (0x20000000 + reg) 4 1 (attr ||| 0x80) d = true)
    (hr : reg % 4 = 0) (hs : slotDead (reg / 0x10000) d = false)
    (hw : cmtWanted (0x20000000 + reg) 4 w.toNat (attr ||| 0x80) d = false) :
    registerWrite t attr reg w.toNat m d = withMonitor (regWrite t (attr ||| 0x80) reg w.toNat m) m d := by
  rw [registerWrite, hw, postedWrite_register t _ reg _ m d hc hg hr hs, Nat.mod_eq_of_lt w.isLt]
  rfl

/-- LOAD outside the I/O regions with an empty latch goes to the fabric at its physical address. -/
theorem loadIssue_sends (t pc pa : Nat) (l : LoadOp) (chk : MemCheck) (m : List Host.Cell) (d : Dev)
    (hi : tlIdle t d = false) (hl : (tlOf t d).load = none) (hk : (tlOf t d).latch = none) (hf : fetchPa t m d = .ok pc)
    (ht : loadTrap l (tlOf t d).arch = none) (hio : isIo pa = false)
    (hp : translate m (fetchFill t pc d) (tlOf t d).arch (dataMode (tlOf t d).arch l.hyp).1 (dataMode (tlOf t d).arch l.hyp).2
      .read l.va.toNat = .ok pa) :
    loadIssue t l chk m d = loadSend t { op := l, addr := pa, attr := (tlAttr (tlOf t d).arch
      (dataMode (tlOf t d).arch l.hyp).1 (dataMode (tlOf t d).arch l.hyp).2 pa) } chk m (fetchFill t pc d) := by
  simp [loadIssue, hi, hl, hk, hf, ht, hio, hp, tlOf_fetchFill]

/-- LOAD_DATA_RETURN of data without a parity error. -/
theorem loadReturn_data (t : Nat) (l : BusLoad) (v : Nat) (d : Dev) (hl : (tlOf t d).load = some l) (he : l.error = none)
    (hv : l.data = some v) (hi : tlIdle t d = false) : loadReturn t false d = loadRetire t l v d := by
  simp [loadReturn, hl, he, hv, hi]

/-- LOAD_DATA_RETURN of an error. -/
theorem loadReturn_error (t : Nat) (p : Bool) (l : BusLoad) (e : Nat × Nat × Nat) (d : Dev) (hl : (tlOf t d).load = some l)
    (he : l.error = some e) (hi : tlIdle t d = false) :
    loadReturn t p d = loadFault t e.1 e.2.1 (l.op.va.toNat + e.2.2 - l.addr) d := by
  simp [loadReturn, hl, he, hi]

/-- STORE_DRAIN of the oldest committed store. -/
theorem storeDrain_committed (t : Nat) (chk : MemCheck) (e : SbEntry) (rest : List SbEntry) (m : List Host.Cell) (d : Dev)
    (hs : (tlOf t d).store = e :: rest) (hc : e.committed = true) :
    storeDrain t chk false m d = postedWrite t e.attr e.addr e.size e.data chk m (tlPut t { tlOf t d with store := rest } d) := by
  simp [storeDrain, hs, hc]

/-- A store that is no commit write drains as none. -/
theorem drainCmt_not_wanted (t : Nat) (chk : MemCheck) (e : SbEntry) (rest : List SbEntry) (d : Dev)
    (hs : (tlOf t d).store = e :: rest) (hw : cmtWanted e.addr e.size e.data e.attr d = false) :
    (drainCmt t chk false d).1 = false := by
  simp [drainCmt, hs, hw]

/-- Settles O10: each clause is the rule of its command above. -/
theorem trestleAccessesComplete : Obligations.TrestleAccessesComplete := by
  refine ⟨fun t attr reg w s h => ?_, fun t l chk pc pa s h => ?_, fun t l v s h => ?_, fun t l e p s h => ?_, fun t chk e rest s h => ?_⟩
  · obtain ⟨hc, hg, hr, hs, hw⟩ := h
    rw [exec_registerWrite, execRegisterWrite, onBoth, registerWrite_granted _ _ _ _ _ _ hc hg hr hs hw]
  · obtain ⟨hi, hl, hk, hf, ht, hio, hp⟩ := h
    rw [exec_load, execLoad, loadIssue_sends _ pc pa _ _ _ _ hi hl hk hf ht hio hp]
  · obtain ⟨hl, he, hv, hi⟩ := h
    rw [exec_loadDataReturn, execLoadDataReturn, onDev_next, loadReturn_data _ l v _ hl he hv hi]
  · obtain ⟨hl, he, hi⟩ := h
    rw [exec_loadDataReturn, execLoadDataReturn, onDev_next, loadReturn_error _ p l e _ hl he hi]
  · obtain ⟨hs, hc, hw⟩ := h
    rw [exec_storeDrain, execStoreDrain, onBoth]
    dsimp only
    rw [drainCmt_not_wanted _ chk e rest _ hs hw, storeDrain_committed _ chk e rest _ _ hs hc]
    rfl

/-! ### What a register write leaves (O11) -/

/-- Only the register AIX_CMT takes a commit write. -/
theorem cmtWanted_other (a size data attr : Nat) (d : Dev) (h : a ≠ 0x200A0018) : cmtWanted a size data attr d = false := by
  simp [cmtWanted, h]

/-- A block that is whole answers accesses and is not held in reset. -/
theorem whole_iff (i : Nat) (d : Dev) : whole i d ↔ slotDead i d = false ∧ fbit F.PWR_RST_RST i d = false := by
  simp only [whole, cut, slotDead, Bool.or_eq_false_iff]
  tauto

/-- EST_INIT_FRAME is one field of 32 bits, RW: a write makes it the word. -/
theorem regAfter_estInitFrame (secure : Bool) (w : Word) (d : Dev) : regAfter R.EST_INIT_FRAME secure w.toNat d = w.toNat := by
  have hf : regFields R.EST_INIT_FRAME = [⟨"FRAME", 0, 32, .rw, 0, none⟩] := by decide
  have hv : valueTaken R.EST_INIT_FRAME w.toNat = true := by
    have hb : below 8 (fun k => 1 ≤ k && (R.EST_INIT_FRAME == R.DRW_REQ_BASE k || R.EST_INIT_FRAME == R.DRW_RSP_BASE k)) = [] := by
      decide
    simp [valueTaken, hb]
  have ho : (regGet d R.EST_INIT_FRAME).toNat >>> 32 = 0 := by
    rw [Nat.shiftRight_eq_div_pow]
    exact Nat.div_eq_of_lt (regGet d R.EST_INIT_FRAME).isLt
  have hw : w.toNat < 4294967296 := w.isLt
  simp [regAfter, hv, hf, fieldWrite, fieldTakes, bitsPut, bitsOf, ho, Nat.mod_one, hw]

/-- A write of EST_INIT_FRAME, in a block that is not held in reset, sets the register and does no more. -/
theorem regWrite_estInitFrame (t attr : Nat) (w : Word) (m : List Host.Cell) (d : Dev) (h : fbit F.PWR_RST_RST 5 d = false) :
    regWrite t attr R.EST_INIT_FRAME w.toNat m d = regPut R.EST_INIT_FRAME w d := by
  have hrow : (regRow R.EST_INIT_FRAME).isNone = false := by decide
  have hrst : fbit F.PWR_RST_RST (R.EST_INIT_FRAME / 0x10000) d = false := h
  have href : secRefused t attr R.EST_INIT_FRAME w.toNat d = d := by
    have hsec : secTouched R.EST_INIT_FRAME = false := by decide
    simp [secRefused, hsec]
  have heff : ∀ e : Dev, regEffect t attr R.EST_INIT_FRAME w.toNat m e = e := fun _ => rfl
  rw [regWrite, hrow, hrst, href, fieldsWrite_plain _ _ _ _ rfl (by decide), regAfter_estInitFrame, heff, BitVec.ofNat_toNat,
    BitVec.setWidth_eq]
  rfl

/-- Setting a register other than the trestles' states releases none of them, and the monitor copies nothing. -/
theorem withMonitor_regPut (f : Dev → Dev) (a : Nat) (w : Word) (m : List Host.Cell) (d : Dev) (hf : f d = regPut a w d)
    (ha : ∀ t : Nat, t < 5 → a ≠ R.TL_STAT t) : withMonitor f m d = (m, regPut a w d) := by
  rw [withMonitor, hf]
  refine monitorCopies_none _ _ _ (fun t ht hs => .inl ?_)
  rwa [tlState, fget, regGet_regPut_ne _ _ (ha t ht)] at hs

/-- REGISTER_WRITE of EST_INIT_FRAME, granted, with the bench whole. -/
theorem registerWrite_estInitFrame (t attr : Nat) (w : Word) (m : List Host.Cell) (d : Dev)
    (hg : granted 3 (0x20000000 + R.EST_INIT_FRAME) 4 1 (attr ||| 0x80) d = true) (hw : whole 5 d) :
    registerWrite t attr R.EST_INIT_FRAME w.toNat m d = (m, regPut R.EST_INIT_FRAME w d) := by
  obtain ⟨hs, hr⟩ := (whole_iff 5 d).1 hw
  rw [registerWrite_granted _ _ _ _ _ _ (by decide) hg (by decide) hs (cmtWanted_other _ _ _ _ _ (by decide))]
  refine withMonitor_regPut _ _ _ _ _ (regWrite_estInitFrame _ _ _ _ _ hr) (fun t ht => ?_)
  simp only [ne_eq, R.EST_INIT_FRAME, R.TL_STAT]
  omega

/-! ### What a load holds (O11) -/

@[simp] theorem bitsPut_bitsPut_same (n lo w v : Nat) : bitsPut (bitsPut n lo w v) lo w v = bitsPut n lo w v := by
  apply Nat.eq_of_testBit_eq
  intro i
  rw [bitsPut_testBit, bitsPut_testBit]
  split <;> rfl

/-- A field set to the value that it holds leaves every register. -/
theorem regGet_fset_again (f : Fld) (v : Nat) (d e : Dev) (hf : f.lo + f.width ≤ 32) (he : e.regs = (fset f v d).regs) (a : Nat) :
    regGet (fset f v e) a = regGet (fset f v d) a := by
  by_cases ha : f.reg = a
  · subst ha
    have hold : (regGet e f.reg).toNat = bitsPut (regGet d f.reg).toNat f.lo f.width v := by
      rw [regGet_of_regs he, fset, regGet_regPut_same, BitVec.toNat_ofNat]
      exact Nat.mod_eq_of_lt (bitsPut_lt (regGet d f.reg).isLt hf)
    rw [fset, regGet_regPut_same, hold, bitsPut_bitsPut_same, fset, regGet_regPut_same]
  · rw [regGet_fset_ne _ _ ha, regGet_of_regs he]

/-- What stands for a trestle, set again with as many buffered stores, leaves every register. -/
theorem regGet_tlPut_again (t : Nat) (x y : Trestle) (d : Dev) (h : y.store.length = x.store.length) (a : Nat) :
    regGet (tlPut t y (tlPut t x d)) a = regGet (tlPut t x d) a := by
  have hy : tlPut t y (tlPut t x d) =
      fset (F.TL_STAT_SB_USED t) y.store.length { tlPut t x d with trestles := tabSet (fun _ => {}) (tlPut t x d).trestles t y } := rfl
  rw [hy, h]
  exact regGet_fset_again (F.TL_STAT_SB_USED t) x.store.length { d with trestles := tabSet (fun _ => {}) d.trestles t x } _
    (by show 16 + 6 ≤ 32; decide) rfl a

/-- A decision of a region controller reads the registers alone. -/
theorem granted_congr {d e : Dev} (h : ∀ a : Nat, regGet d a = regGet e a) (c a size ty attr : Nat) :
    granted c a size ty attr d = granted c a size ty attr e := by
  have hf : ∀ f : Fld, fget f d = fget f e := fun f => by rw [fget, fget, h]
  simp only [granted, regionOf, regionHolds, regionGrants, tenantBlocked, blockSecure, ownerPermits, ownerOf, flag, fbit, hf]

/-- What an access reaches stands at its first address. -/
theorem targetOf_of_accessTarget (pa size c : Nat) (h : accessTarget pa size = some c) : targetOf pa = some c := by
  unfold accessTarget at h
  split at h
  · exact h
  · cases h

/-- A load of a memory, granted, with nothing held or under way at the bridges and no bad word met, holds the memory's bytes with
those of the buffered stores over them. -/
theorem loadSend_memory (t c : Nat) (l : BusLoad) (m : List Host.Cell) (d : Dev) (hh : d.brg.held = []) (hp : d.brg.peerOut = [])
    (hio : isIo l.addr = false) (hc : accessTarget l.addr l.op.size = some c) (hm : c = 0 ∨ c = 1 ∨ c = 2 ∨ c = 6 ∨ c = 7 ∨ c = 8)
    (hg : granted c l.addr l.op.size 0 l.attr (tlPut t { tlOf t d with load := some l } d) = true)
    (hb : badMeets l.addr l.op.size d = none) :
    (tlOf t (loadSend t l .good m d)).load =
      some { l with data := some (bufferOver (tlOf t d).store l.addr l.op.size (leNat (memRead m l.addr l.op.size))) } := by
  have hheld : heldFor t l.attr l.addr l.op.size d = none := by simp [heldFor, hh]
  have hq : queuedFor t l.attr l.addr l.op.size d = false := by
    have : targetOf l.addr ≠ some 4 := by
      rw [targetOf_of_accessTarget _ _ _ hc]
      simp only [ne_eq, Option.some.injEq]
      omega
    simp [queuedFor, this, hp]
  have hr := busRead_memory (.load t) t l.attr l.addr l.op.size c m _ hc hm hg hb
  simp [loadSend, hheld, hq, hr, loadTakes, hio, loadFill]

/-- A line filled into the instruction caches, and then the load, leave the decisions of the region controllers. -/
theorem granted_load_fetchFill (t pc c a size ty attr : Nat) (l : BusLoad) (d : Dev) :
    granted c a size ty attr (tlPut t { tlOf t (fetchFill t pc d) with load := some l } (fetchFill t pc d)) =
      granted c a size ty attr (fetchFill t pc d) :=
  granted_congr (regGet_tlPut_again _ _ _ _ (by rw [tlOf_fetchFill])) _ _ _ _ _

/-! ### What a retired load leaves (O11) -/

@[simp] theorem tlOf_fset (t : Nat) (f : Fld) (v : Nat) (d : Dev) : tlOf t (fset f v d) = tlOf t d := rfl

/-- The end of an epoch leaves the hart's registers and its load. -/
theorem epochCommit_arch_load (t : Nat) (d : Dev) :
    (tlOf t (epochCommit t d)).arch = (tlOf t d).arch ∧ (tlOf t (epochCommit t d)).load = (tlOf t d).load := by
  unfold epochCommit
  extract_lets
  split
  · rw [tlOf_tlPut_same]
    exact ⟨rfl, rfl⟩
  · rw [tlOf_fset, tlOf_tlPut_same]
    exact ⟨rfl, rfl⟩

/-- A halt at an instruction boundary leaves them too. -/
theorem haltCheck_arch_load (t : Nat) (d : Dev) :
    (tlOf t (haltCheck t d)).arch = (tlOf t d).arch ∧ (tlOf t (haltCheck t d)).load = (tlOf t d).load := by
  unfold haltCheck
  extract_lets
  split
  · rw [fput, tlOf_fset, tlOf_tlPut_same]
    exact epochCommit_arch_load t d
  · exact ⟨rfl, rfl⟩

/-- So does an instruction boundary at which an epoch may end. -/
theorem boundary_arch_load (t : Nat) (c : Bool) (d : Dev) :
    (tlOf t (haltCheck t (if c then epochCommit t d else d))).arch = (tlOf t d).arch ∧
      (tlOf t (haltCheck t (if c then epochCommit t d else d))).load = (tlOf t d).load := by
  obtain ⟨ha, hl⟩ := haltCheck_arch_load t (if c then epochCommit t d else d)
  rw [ha, hl]
  split
  · exact epochCommit_arch_load t d
  · exact ⟨rfl, rfl⟩

/-- A retirement counts: the integer registers, the pc and the load stand. -/
theorem retired_x_pc_load (t : Nat) (ends : Bool) (d : Dev) :
    (tlOf t (retired t ends d)).arch.x = (tlOf t d).arch.x ∧ (tlOf t (retired t ends d)).arch.pc = (tlOf t d).arch.pc ∧
      (tlOf t (retired t ends d)).load = (tlOf t d).load := by
  unfold retired
  extract_lets x off a stores b
  obtain ⟨ha, hl⟩ := boundary_arch_load t (ends || decide (256 ≤ x.epoch + 1) || decide (32 ≤ stores)) b
  rw [ha, hl, tlOf_tlPut_same]
  refine ⟨?_, ?_, rfl⟩
  · simp only [a]
    split <;> rfl
  · simp only [a]
    split <;> rfl

/-- The integer register that a retirement writes reads the value, x0 apart; the others stand. -/
theorem regWrites_x (rd i : Fin 32) (w : DWord) (a : Arch) :
    tabGet (fun _ => (0 : DWord)) (regWrites { x := some (rd, w) } a).x i.val =
      if i = rd ∧ i ≠ 0 then w else tabGet (fun _ => (0 : DWord)) a.x i.val := by
  unfold regWrites
  by_cases h0 : rd = 0
  · subst h0
    have : ¬(i = 0 ∧ i ≠ 0) := fun e => e.2 e.1
    simp [this]
  · have hv : rd.val ≠ 0 := fun e => h0 (Fin.ext e)
    by_cases hi : i = rd
    · subst hi
      simp [h0]
    · have hne : rd.val ≠ i.val := fun e => hi (Fin.ext e.symm)
      simp [hv, hi, tabGet_tabSet_ne _ _ _ hne]

/-- A load of an integer register retires: the register holds the value, the pc is the next one, and no load is under way. -/
theorem loadRetire_integer (t : Nat) (l : BusLoad) (v : Nat) (d : Dev) (hf : l.op.fp = false) :
    (∀ i : Fin 32, tabGet (fun _ => (0 : DWord)) (tlOf t (loadRetire t l v d)).arch.x i.val =
      if i = l.op.rd ∧ i ≠ 0 then loadValue l.op v else tabGet (fun _ => (0 : DWord)) (tlOf t d).arch.x i.val) ∧
      (tlOf t (loadRetire t l v d)).arch.pc = l.op.next ∧ (tlOf t (loadRetire t l v d)).load = none := by
  unfold loadRetire
  extract_lets x w a
  obtain ⟨hx, hpc, hl⟩ := retired_x_pc_load t (isIo l.addr) (tlPut t { x with arch := { a with pc := l.op.next }, load := none } d)
  rw [hx, hpc, hl, tlOf_tlPut_same]
  refine ⟨fun i => ?_, rfl, rfl⟩
  simp only [a, hf, w, x]
  exact regWrites_x _ _ _ _

/-- Settles O11: each clause by what its access leaves. -/
theorem trestleAccessesTakeEffect : Obligations.TrestleAccessesTakeEffect := by
  refine ⟨fun t attr w s hg hw => ?_, fun t l pc pa c s => ?_, fun t l v s hl he hv hi hf => ?_⟩
  · refine ⟨{ s with dev := regPut R.EST_INIT_FRAME w s.dev }, ?_, regGet_regPut_same _ _ _,
      fun r hr => regGet_regPut_ne _ _ (Ne.symm hr), rfl, rfl, rfl⟩
    have hreg : (BitVec.ofNat 21 R.EST_INIT_FRAME).toNat = R.EST_INIT_FRAME := rfl
    rw [exec_registerWrite, execRegisterWrite, onBoth, hreg, registerWrite_estInitFrame _ _ _ _ _ hg hw]
  · intro mode attr hi hload hk hheld hp hf ht htr hio hc hm hg hb
    refine ⟨{ s with dev := loadIssue t.val l .good s.mem s.dev }, by rw [exec_load, execLoad], ?_, rfl, rfl⟩
    dsimp only
    have hb' : badMeets pa l.size (fetchFill t.val pc s.dev) = none := hb
    have hg' := (granted_load_fetchFill t.val pc c pa l.size 0 attr { op := l, addr := pa, attr := attr } s.dev).trans hg
    have hsend := loadSend_memory t.val c { op := l, addr := pa, attr := attr } s.mem (fetchFill t.val pc s.dev) hheld hp hio hc hm hg' hb'
    rw [loadIssue_sends _ pc pa _ _ _ _ hi hload hk hf ht hio htr, hsend, tlOf_fetchFill]
  · obtain ⟨hx, hpc, hn⟩ := loadRetire_integer t.val l v s.dev hf
    refine ⟨{ s with dev := loadRetire t.val l v s.dev }, ?_, hx, hpc, hn, rfl, rfl⟩
    rw [exec_loadDataReturn, execLoadDataReturn, onDev_next, loadReturn_data _ l v _ hl he hv hi]

/-! ### The canonical form of the memories: the shared operations (O5) -/

/-- Memories that a pair brings, named by a destructuring `let`. -/
theorem wf_of_eq_pair {β : Type} {x : List Host.Cell × β} {m : List Host.Cell} {b : β} (e : x = (m, b)) (h : Memory.wf x.1 = true) :
    Memory.wf m = true := by rw [e] at h; exact h

/-- The same for memories in the middle of a triple. -/
theorem wf_of_eq_triple {α β : Type} {x : α × List Host.Cell × β} {a : α} {m : List Host.Cell} {b : β} (e : x = (a, m, b))
    (h : Memory.wf x.2.1 = true) : Memory.wf m = true := by rw [e] at h; exact h

/-- Memories paired with a device, seen as the pair's first part. -/
theorem wf_pair {β : Type} {m : List Host.Cell} (b : β) (h : Memory.wf m = true) : Memory.wf (m, b).1 = true := h

section MemoryForm

variable {m : List Host.Cell} (h : Memory.wf m = true)
include h

theorem blockStore_wf (i : Nat) (s : CellBlock) : Memory.wf (blockStore i s m) = true := memWrite_wf _ _ _ h

theorem idleSweep_wf (f : Nat) (skip : Nat → Bool) (d : Dev) : Memory.wf (idleSweep f skip d m) = true :=
  memSweep_wf (by decide) _ _ _ h

theorem unalignedSweep_wf (d : Dev) : Memory.wf (unalignedSweep d m) = true := memSweep_wf (by decide) _ _ _ h

theorem storeInit_wf (d : Dev) : Memory.wf (storeInit d m) = true := memPlace_wf _ _ _ h

theorem bankMark_wf (b st : Nat) : Memory.wf (bankMark b st m) = true := memPut_wf _ _ _ h

/-- A header and an image written, one after the other. -/
theorem memPlace_memPlace_wf (a b : Nat) (x y : List Byte) : Memory.wf (memPlace a x (memPlace b y m)) = true :=
  memPlace_wf _ _ _ (memPlace_wf _ _ _ h)

/-- A region erased and then written. -/
theorem memPlace_memErase_wf (a b n : Nat) (x : List Byte) : Memory.wf (memPlace a x (memErase b n m)) = true :=
  memPlace_wf _ _ _ (memErase_wf _ _ _ h)

theorem copyClass_wf (a b c : Nat) (src : List Host.Cell) : Memory.wf (copyClass a b c src m) = true :=
  memPlace_memPlace_wf h _ _ _ _

theorem buildBank_wf (d : Dev) : Memory.wf (buildBank m d) = true := by
  unfold buildBank
  refine memPlace_wf _ _ _ (memPlace_memPlace_wf ?_ _ _ _ _)
  refine List.foldlRecOn _ _ (motive := fun o => Memory.wf o = true) (memErase_wf _ _ _ h) (fun o ho k _ => ?_)
  split
  · exact ho
  · exact copyClass_wf ho _ _ _ _

theorem romBuild_wf (d : Dev) : Memory.wf (romBuild m d).1 = true :=
  memPlace_memPlace_wf (memPlace_memErase_wf (memErase_wf _ _ _ h) _ _ _ _) _ _ _ _

theorem slotWriteImage_wf (s seq : Nat) (img : List Byte) : Memory.wf (slotWriteImage s seq img m) = true :=
  memPlace_wf _ _ _ (memPlace_memErase_wf h _ _ _ _)

theorem slotSpoil_wf (s : Nat) (d : Dev) : Memory.wf (slotSpoil s m d).1 = true := memPlace_memErase_wf h _ _ _ _

theorem monitorCopy_wf (t : Nat) (d : Dev) : Memory.wf (monitorCopy t m d).1 = true := by
  unfold monitorCopy
  split
  · exact memPlace_wf _ _ _ h
  · exact h

theorem withMonitor_wf (f : Dev → Dev) (d : Dev) : Memory.wf (withMonitor f m d).1 = true :=
  List.foldlRecOn _ _ (motive := fun (md : List Host.Cell × Dev) => Memory.wf md.1 = true) h (fun _ hmd t _ => monitorCopy_wf hmd t _)

/-! ### The estimator and the digests -/

theorem digestMark_wf (msg : DigestMsg) (o : OwnSet) (d : Dev) : Memory.wf (digestMark msg o m d).1 = true := by
  unfold digestMark
  split
  · exact h
  · extract_lets
    split_ifs
    · exact h
    · exact unalignedSweep_wf h _

theorem digestJudge_wf (msg : DigestMsg) (o : OwnSet) (d : Dev) : Memory.wf (digestJudge msg o m d).1 = true :=
  digestMark_wf h _ _ _

theorem digestMessage_wf (msg : DigestMsg) (d : Dev) : Memory.wf (digestMessage msg m d).1 = true := by
  unfold digestMessage
  split
  · exact h
  · split
    · exact digestMark_wf h _ _ _
    · split
      · exact digestJudge_wf h _ _ _
      · split
        · exact h
        · exact h

theorem ownDone_wf (o : OwnSet) (d : Dev) : Memory.wf (ownDone o m d).1 = true := by
  unfold ownDone
  extract_lets
  split
  · exact h
  · exact digestJudge_wf h _ _ _

theorem estSkip_wf (f : Nat) (d : Dev) : Memory.wf (estSkip f m d).1 = true :=
  ownDone_wf (idleSweep_wf h _ _ _) _ _

theorem alignInstall_wf (f : Nat) (bs : List PosBlocks) (d : Dev) : Memory.wf (alignInstall f bs m d).1 = true := by
  unfold alignInstall
  extract_lets put
  split
  next m' d' e =>
    have h' : Memory.wf m' = true := by
      refine wf_of_eq_pair e ?_
      refine List.foldlRecOn _ _ (motive := fun (md : List Host.Cell × Dev) => Memory.wf md.1 = true) h (fun md hmd b _ => ?_)
      unfold put
      split
      split
      · exact hmd
      · extract_lets i0 m1 m2
        have h1 : Memory.wf m1 = true := memWrite_wf _ _ _ hmd
        have h2 : Memory.wf m2 = true :=
          List.foldlRecOn _ _ (motive := fun m => Memory.wf m = true) h1 (fun _ hm c _ => blockStore_wf hm _ _)
        exact wf_pair _ h2
    extract_lets
    split_ifs
    · exact h'
    · exact h'

theorem alignTransfer_wf (f : Nat) (bs : List PosBlocks) (good : Bool) (d : Dev) :
    Memory.wf (alignTransfer f bs good m d).1 = true := by
  unfold alignTransfer
  split_ifs
  · exact h
  · exact alignInstall_wf h _ _ _
  · exact h

theorem workStart_wf (d : Dev) : Memory.wf (workStart m d).1 = true := by
  unfold workStart
  split
  · exact h
  · extract_lets
    split
    next m' d' e =>
      have h' : Memory.wf m' = true := by
        refine wf_of_eq_pair e ?_
        split
        · split_ifs
          · exact alignInstall_wf h _ _ _
          · exact h
        · exact h
      extract_lets
      split_ifs
      · exact estSkip_wf h' _ _
      · exact estSkip_wf h' _ _
      · exact estSkip_wf h' _ _
      · exact h'

theorem workEnd_wf (d : Dev) : Memory.wf (workEnd m d).1 = true := by
  unfold workEnd
  split
  · exact h
  · split
    · exact h
    · exact idleSweep_wf h _ _ _

theorem cellIdle_wf (i f : Nat) (d : Dev) : Memory.wf (cellIdle i f m d).1 = true := by
  unfold cellIdle
  exact wf_pair _ (blockStore_wf h _ _)

theorem cellCommit_wf (l : Nat) (e : EstEntry) (i : Nat) (parity : Bool) (d : Dev) :
    Memory.wf (cellCommit l e i parity m d).1 = true := by
  unfold cellCommit
  extract_lets
  exact wf_pair _ (blockStore_wf h _ _)

theorem cellUpdate_wf (l : Nat) (r : LaneResult) (d : Dev) : Memory.wf (cellUpdate l r m d).1 = true := by
  unfold cellUpdate
  split
  · split
    · exact h
    · extract_lets
      split
      · exact h
      · split
        · split
          · exact cellIdle_wf h _ _ _
          · exact h
        · exact estSkip_wf h _ _
        · exact h
        · exact cellIdle_wf h _ _ _
        all_goals
          split
          split
          · exact cellIdle_wf h _ _ _
          · exact cellCommit_wf h _ _ _ _ _
  · exact h

theorem publishCommit_wf (d : Dev) : Memory.wf (publishCommit m d).1 = true := by
  unfold publishCommit
  split
  · exact h
  · exact ownDone_wf (memPlace_wf _ _ _ h) _ _

theorem paramReloaded_wf (k : Nat) (d : Dev) : Memory.wf (paramReloaded k m d).1 = true := by
  unfold paramReloaded
  split
  · exact h
  · extract_lets
    split
    · exact h
    · exact memPlace_memErase_wf h _ _ _ _

/-! ### The sideboard -/

theorem recRing_wf (x : RecEntry) (d : Dev) : Memory.wf (recRing x m d).1 = true := by
  unfold recRing
  exact wf_pair _ (memWrite_wf _ _ _ h)

theorem recStore_wf (r : MramResult) (e : RecEvent) (d : Dev) : Memory.wf (recStore r e m d).1 = true := by
  unfold recStore
  extract_lets
  split
  split
  · exact h
  · split
    · exact recRing_wf h _ _
    · exact recRing_wf h _ _
    · exact h
    · exact h

theorem recordWrite_wf (r : MramResult) (d : Dev) : Memory.wf (recordWrite r m d).1 = true := by
  unfold recordWrite
  split_ifs
  · exact h
  · exact recStore_wf h _ _ _
  · split
    · exact h
    · exact recStore_wf h _ _ _

theorem ringBegin_wf (r : MramResult) (d : Dev) : Memory.wf (ringBegin r m d).1 = true := by
  unfold ringBegin
  extract_lets _ _ _ _ _ md
  have hmd : Memory.wf md.1 = true :=
    List.foldlRecOn _ _ (motive := fun (md : List Host.Cell × Dev) => Memory.wf md.1 = true) h (fun _ hmd x _ => recRing_wf hmd x _)
  exact recStore_wf hmd _ _ _

theorem ringOpened_wf (r : MramResult) (d : Dev) : Memory.wf (ringOpened r m d).1 = true := by
  have hb := ringBegin_wf h r d
  unfold ringOpened ringCarried
  split
  · exact hb
  · extract_lets
    split
    · exact hb
    · exact recStore_wf hb _ _ _

/-! ### Power and the pair -/

theorem wakeDecision_wf (x : SleepMeas) (d : Dev) : Memory.wf (wakeDecision x m d).1 = true := by
  unfold wakeDecision
  split_ifs
  · exact h
  · exact h
  · extract_lets
    split_ifs
    · exact unalignedSweep_wf h _
    · exact h
  · exact h
  · exact memLose_wf _ h

theorem vauxRise_wf (xtal : Bool) (d : Dev) : Memory.wf (vauxRise xtal m d).1 = true := by
  unfold vauxRise
  split
  · extract_lets
    split
    · exact memLose_wf _ h
    · exact h
  · exact memLose_wf _ h

theorem roleExchange_wf (r : RoleReport) (d : Dev) : Memory.wf (roleExchange r m d).1 = true := by
  unfold roleExchange
  split
  · exact h
  · extract_lets
    split
    · exact h
    · exact h
    · exact h
    · split_ifs
      · exact unalignedSweep_wf h _
      · exact h
      · exact h
    · exact h

theorem linkDownBoth_wf (d : Dev) : Memory.wf (linkDownBoth m d).1 = true := by
  unfold linkDownBoth
  extract_lets
  split_ifs
  · exact unalignedSweep_wf h _
  · exact h

theorem heardBoth_wf (f : List Host.Cell → Dev → List Host.Cell × Dev) (d : Dev) (hf : Memory.wf (f m d).1 = true) :
    Memory.wf (heardBoth f m d).1 = true := by
  unfold heardBoth
  split
  · exact hf
  · exact h

/-! ### The buses -/

theorem busWrite_wf (o : Origin) (t attr a size data : Nat) (chk : MemCheck) (d : Dev) :
    Memory.wf (busWrite o t attr a size data chk m d).2.1 = true := by
  unfold busWrite
  split
  · exact h
  · split
    · exact h
    · split
      · exact h
      · split
        · split
          · exact h
          · exact withMonitor_wf h _ _
        · split_ifs
          · exact h
          · exact h
          · exact h
          · exact h
          · exact h
          · exact h
          · exact h
          · exact memWrite_wf _ _ _ h

theorem postedWrite_wf (t attr a size data : Nat) (chk : MemCheck) (d : Dev) :
    Memory.wf (postedWrite t attr a size data chk m d).1 = true := by
  unfold postedWrite
  split
  next r m' d' e =>
    have h' : Memory.wf m' = true := wf_of_eq_triple e (busWrite_wf h _ _ _ _ _ _ _ _)
    split
    · exact h'
    · exact h'

theorem storeDrain_wf (t : Nat) (chk : MemCheck) (parity : Bool) (d : Dev) : Memory.wf (storeDrain t chk parity m d).1 = true := by
  unfold storeDrain
  extract_lets
  split
  · exact h
  · split_ifs
    · exact h
    · exact h
    · exact postedWrite_wf h _ _ _ _ _ _ _

theorem systemBus_wf (write : Bool) (a size data : Nat) (chk : MemCheck) (d : Dev) :
    Memory.wf (systemBus write a size data chk m d).1 = true := by
  unfold systemBus
  split
  · exact h
  · extract_lets
    split
    · exact busWrite_wf h _ _ _ _ _ _ _ _
    · exact h

theorem debugMem_wf (t va size : Nat) (v : Option DWord) (d : Dev) : Memory.wf (debugMem t va size v m d).1 = true := by
  unfold debugMem
  extract_lets
  split
  split
  · exact h
  · split
    · exact h
    · exact busWrite_wf h _ _ _ _ _ _ _ _

theorem abstractCommand_wf (t : Nat) (r : DebugReg) (v : Option DWord) (d : Dev) :
    Memory.wf (abstractCommand t r v m d).1 = true := by
  unfold abstractCommand
  extract_lets
  split_ifs
  · exact h
  · exact h
  · split
    · exact debugMem_wf h _ _ _ _ _
    · exact h

theorem peerInDone_wf (chk : MemCheck) (d : Dev) : Memory.wf (peerInDone chk m d).1 = true := by
  unfold peerInDone
  split
  · exact h
  · extract_lets
    split
    · exact h
    · split
      · exact h
      · split
        next r m' d' e =>
          have h' : Memory.wf m' = true := by
            refine wf_of_eq_triple e ?_
            split
            · exact busWrite_wf h _ _ _ _ _ _ _ _
            · exact h
          split
          · exact h'
          · exact h'
          · exact h'

/-! ### Update and boot -/

theorem stagingErased_wf (d : Dev) : Memory.wf (stagingErased m d).1 = true := by
  unfold stagingErased
  split
  · exact h
  · exact memErase_wf _ _ _ h

theorem blockDone_wf (bs : List Byte) (crc : Nat) (d : Dev) : Memory.wf (blockDone bs crc m d).2.1 = true := by
  unfold blockDone
  extract_lets
  split
  · exact memPlace_wf _ _ _ h
  · exact h

omit h in
theorem copyRun_wf (base : Nat × Nat × Nat × Nat) (l : List (Nat × Nat)) {m : List Host.Cell} (h : Memory.wf m = true) (d : Dev) :
    Memory.wf (copyRun base l m d).2.1 = true := by
  induction l generalizing m d with
  | nil => exact h
  | cons e l ih =>
    obtain ⟨i, crc⟩ := e
    unfold copyRun
    split
    next st m' d' e =>
      have h' : Memory.wf m' = true := wf_of_eq_triple e (blockDone_wf h _ _ _)
      split
      · exact ih h' _
      · exact h'

theorem recordApply_wf (rec : List Byte) (base : Option (Nat × Nat × Nat × Nat)) (d : Dev) :
    Memory.wf (recordApply rec base m d).2.1 = true := by
  unfold recordApply
  extract_lets
  split
  · exact copyRun_wf _ _ h _
  · extract_lets
    split
    · exact blockDone_wf h _ _ _
    · exact h

theorem updBlock_wf (block : Nat) (rec : List Byte) (d : Dev) : Memory.wf (updBlock block rec m d).2.1 = true := by
  unfold updBlock
  extract_lets base
  split_ifs
  · exact h
  · exact h
  · exact h
  · exact h
  · exact h
  · exact recordApply_wf h _ _ _
  · exact h
  · exact h

theorem activatePrepare_wf (d : Dev) : Memory.wf (activatePrepare m d).2.1 = true := by
  unfold activatePrepare
  extract_lets
  split_ifs
  · exact h
  · exact romBuild_wf h _
  · exact buildBank_wf h _
  · exact memPlace_wf _ _ _ (memPlace_memErase_wf h _ _ _ _)
  · exact h

theorem activateEffect_wf (d : Dev) : Memory.wf (activateEffect m d).2.1 = true := by
  unfold activateEffect
  extract_lets
  split_ifs
  · exact bankMark_wf h _ _
  · exact h
  · exact bankMark_wf h _ _
  · exact bankMark_wf h _ _
  · exact h
  · exact h
  · exact withMonitor_wf h _ _

theorem updCancel_wf (d : Dev) : Memory.wf (updCancel m d).2.1 = true := by
  unfold updCancel
  dsimp only
  split
  · exact h
  · exact h
  · exact h
  · split
    · exact bankMark_wf h _ _
    · exact h
  · exact h
  · exact h

theorem bankConfirmed_wf (d : Dev) : Memory.wf (bankConfirmed m d).1 = true := by
  unfold bankConfirmed
  split
  · exact h
  · exact bankMark_wf h _ _

theorem bankTry_wf (b : Nat) : Memory.wf (bankTry b m).1 = true := by
  unfold bankTry
  split
  · exact memPut_wf _ _ _ h
  · exact h

omit h in
theorem bankPick_wf (d : Dev) (l : List Nat) {m : List Host.Cell} (h : Memory.wf m = true) (ns : List BootNote) :
    Memory.wf (bankPick d l m ns).2.1 = true := by
  induction l generalizing m ns with
  | nil => exact h
  | cons b l ih =>
    unfold bankPick
    split
    next m' new e =>
      have h' : Memory.wf m' = true := wf_of_eq_pair e (bankTry_wf h _)
      split
      · exact h'
      · exact ih h' _

omit h in
theorem bankBoot_wf (n : Nat) {m : List Host.Cell} (h : Memory.wf m = true) (d : Dev) (ns : List BootNote) :
    Memory.wf (bankBoot n m d ns).2.1 = true := by
  induction n generalizing m d ns with
  | zero => exact h
  | succ n ih =>
    unfold bankBoot
    have hp := bankPick_wf d (bankCands m) h ns
    split
    next m' ns' e => exact wf_of_eq_triple e hp
    next b m' ns' e =>
      have h' : Memory.wf m' = true := wf_of_eq_triple e hp
      split
      · exact h'
      · refine ih ?_ _ _
        split
        · exact bankMark_wf h' _ _
        · exact h'

theorem customerBoot_wf (d : Dev) : Memory.wf (customerBoot m d).2.1 = true := by
  unfold customerBoot
  split
  next m' d' e =>
    have h' : Memory.wf m' = true := by
      refine wf_of_eq_pair e ?_
      split
      · exact memPlace_wf _ _ _ (memPlace_memErase_wf h _ _ _ _)
      · exact h
    extract_lets
    split_ifs
    · exact h'
    · exact h'
    · exact h'

theorem applyChem_wf (img : List Byte) (d : Dev) : Memory.wf (applyChem img m d).1 = true :=
  List.foldlRecOn _ _ (motive := fun (md : List Host.Cell × Dev) => Memory.wf md.1 = true) h
    (fun _ hmd _ _ => memPlace_memErase_wf hmd _ _ _ _)

theorem applyStart_wf (img : List Byte) (slot : Nat) (d : Dev) : Memory.wf (applyStart img slot m d).1 = true := by
  unfold applyStart
  exact wf_pair _ (storeInit_wf h _)

theorem configApply_wf (slot : Nat) (img : List Byte) (d : Dev) : Memory.wf (configApply slot img m d).1 = true := by
  unfold configApply
  extract_lets
  split
  next m' d' e => exact applyStart_wf (wf_of_eq_pair e (applyChem_wf h _ _)) _ _ _

theorem configSelect_wf (custOk : Bool) (d : Dev) : Memory.wf (configSelect custOk m d).1 = true := by
  unfold configSelect
  extract_lets
  split
  · exact h
  · extract_lets
    split
    · exact h
    · split
      next m' d' e => exact withMonitor_wf (wf_of_eq_pair e (configApply_wf h _ _ _)) _ _

theorem engineStart_wf (d : Dev) : Memory.wf (engineStart m d).1 = true := by
  unfold engineStart
  split
  next ok m' d' e => exact configSelect_wf (wf_of_eq_triple e (customerBoot_wf h _)) _ _

theorem engineReturn_wf (d : Dev) : Memory.wf (engineReturn m d).1 = true := by
  unfold engineReturn
  split_ifs
  · exact h
  · exact h
  · exact engineStart_wf h _
  · exact h
  · exact h

theorem boot_wf (rs : List TestResult) (slotB : Bool) (d : Dev) : Memory.wf (boot rs slotB m d).1 = true := by
  unfold boot
  split
  · exact h
  · extract_lets
    split
    · exact h
    · split
      next b m' d' ns e =>
        have h' : Memory.wf m' = true := wf_of_eq_triple e (bankBoot_wf 8 h _ _)
        extract_lets
        split
        · exact h'
        · exact engineStart_wf h' _

theorem configLoad_wf (total ofs : Nat) (data : List Byte) (d : Dev) : Memory.wf (configLoad total ofs data m d).2.1 = true := by
  unfold configLoad
  extract_lets
  split
  · exact h
  · exact memWrite_wf _ _ _ h

theorem commitEffect_wf (p : CommitPlan) (bad : Option Nat) (d : Dev) : Memory.wf (commitEffect p bad m d).1 = true := by
  unfold commitEffect
  extract_lets
  split
  · exact slotSpoil_wf h _ _
  · exact slotWriteImage_wf h _ _ _

end MemoryForm

/-! ### Opcodes that leave the memories -/

@[simp] theorem opOk_mem (p : List Byte) (m : List Host.Cell) (d : Dev) : (opOk p m d).2.1 = m := rfl

@[simp] theorem opNo_mem (st : Nat) (m : List Host.Cell) (d : Dev) : (opNo st m d).2.1 = m := rfl

@[simp] theorem opConfigRead_mem (p : List Byte) (m : List Host.Cell) (d : Dev) : (opConfigRead p m d).2.1 = m := by
  unfold opConfigRead
  extract_lets
  split <;> rfl

@[simp] theorem opPairRole_mem (p : List Byte) (m : List Host.Cell) (d : Dev) : (opPairRole p m d).2.1 = m := by
  unfold opPairRole
  split <;> rfl

@[simp] theorem opArm_mem (m : List Host.Cell) (d : Dev) : (opArm m d).2.1 = m := by
  unfold opArm
  split <;> rfl

@[simp] theorem opDisarm_mem (m : List Host.Cell) (d : Dev) : (opDisarm m d).2.1 = m := rfl

@[simp] theorem opString_mem (p : List Byte) (m : List Host.Cell) (d : Dev) : (opString p m d).2.1 = m := by
  unfold opString
  extract_lets
  split
  · split <;> rfl
  · rfl
  · split <;> rfl

@[simp] theorem opZoneClear_mem (m : List Host.Cell) (d : Dev) : (opZoneClear m d).2.1 = m := by
  unfold opZoneClear
  extract_lets
  split <;> rfl

@[simp] theorem opChannel_mem (q : AixReq) (m : List Host.Cell) (d : Dev) : (opChannel q m d).2.1 = m := by
  unfold opChannel
  extract_lets
  split
  · rfl
  · split
    · split <;> rfl
    · rfl

@[simp] theorem opEstRead_mem (p : List Byte) (m : List Host.Cell) (d : Dev) : (opEstRead p m d).2.1 = m := by
  unfold opEstRead
  extract_lets
  split
  · rfl
  · split <;> rfl

@[simp] theorem svcOut_mem (r : Option Nat × Dev) (m : List Host.Cell) : (svcOut r m).2.1 = m := by
  unfold svcOut
  split <;> rfl

@[simp] theorem opRecordRead_mem (p : List Byte) (m : List Host.Cell) (d : Dev) : (opRecordRead p m d).2.1 = m := rfl

@[simp] theorem opCellInit_mem (p : List Byte) (m : List Host.Cell) (d : Dev) : (opCellInit p m d).2.1 = m := rfl

@[simp] theorem opBalEnable_mem (p : List Byte) (m : List Host.Cell) (d : Dev) : (opBalEnable p m d).2.1 = m := rfl

@[simp] theorem opTenantCtrl_mem (p : List Byte) (m : List Host.Cell) (d : Dev) : (opTenantCtrl p m d).2.1 = m := rfl

@[simp] theorem opNetPolicy_mem (p : List Byte) (m : List Host.Cell) (d : Dev) : (opNetPolicy p m d).2.1 = m := rfl

@[simp] theorem opBalSet_mem (p : List Byte) (k : Nat) (m : List Host.Cell) (d : Dev) : (opBalSet p k m d).2.1 = m := svcOut_mem _ _

@[simp] theorem opSatRead_mem (p : List Byte) (m : List Host.Cell) (d : Dev) : (opSatRead p m d).2.1 = m := svcOut_mem _ _

@[simp] theorem opSatWrite_mem (p : List Byte) (m : List Host.Cell) (d : Dev) : (opSatWrite p m d).2.1 = m := svcOut_mem _ _

@[simp] theorem svcEnd_mem (q : AixReq) (res : SvcResult) (m : List Host.Cell) (d : Dev) : (svcEnd q res m d).2.1 = m := by
  unfold svcEnd
  split
  · extract_lets
    split
    · rfl
    · exact svcOut_mem _ _
  all_goals rfl

@[simp] theorem opPlevel_mem (p : List Byte) (m : List Host.Cell) (d : Dev) : (opPlevel p m d).2.1 = m := by
  unfold opPlevel
  extract_lets
  split <;> rfl

@[simp] theorem opRouteSend_mem (p : List Byte) (m : List Host.Cell) (d : Dev) : (opRouteSend p m d).2.1 = m := by
  unfold opRouteSend
  extract_lets
  split
  · rfl
  · split <;> rfl

@[simp] theorem opCommit_mem (p : List Byte) (m : List Host.Cell) (d : Dev) : (opCommit p m d).2.1 = m := by
  unfold opCommit
  extract_lets
  split
  · rfl
  · split <;> rfl

@[simp] theorem regReads_mem (q : AixReq) (m : List Host.Cell) (n : Nat) (d : Dev) : (regReads q m n d).2.1 = m := by
  induction n generalizing d with
  | zero => rfl
  | succ n ih =>
    unfold regReads
    extract_lets
    split
    · exact ih _
    · rfl
    · rfl

section MemoryForm

variable {m : List Host.Cell} (h : Memory.wf m = true)
include h

/-! ### Opcodes that write memory -/

/-- An opcode that answers with its reply or a status, on the memories that it leaves. -/
theorem opOk_or_opNo_wf (c : Prop) [Decidable c] (p : List Byte) (st : Nat) (d : Dev) :
    Memory.wf (if c then opOk p m d else opNo st m d).2.1 = true := by
  split
  · exact h
  · exact h

theorem opConfigLoad_wf (p : List Byte) (d : Dev) : Memory.wf (opConfigLoad p m d).2.1 = true := by
  unfold opConfigLoad
  split
  next st m' d' e => exact opOk_or_opNo_wf (wf_of_eq_triple e (configLoad_wf h _ _ _ _)) _ _ _ _

omit h in
theorem regWritesDo_wf (q : AixReq) (n : Nat) {m : List Host.Cell} (h : Memory.wf m = true) (d : Dev) :
    Memory.wf (regWritesDo q n m d).2.1 = true := by
  induction n generalizing m d with
  | zero => exact h
  | succ n ih =>
    unfold regWritesDo
    extract_lets i a
    have hb := busWrite_wf h (.service 0) 0 (hypAttr a) a 4 (field q.payload (8 + 4 * i) 4) .good d
    split
    next e => exact ih (wf_of_eq_triple e hb) _
    next e => exact wf_of_eq_triple e hb
    next e => exact wf_of_eq_triple e hb

theorem regEnd_wf (q : AixReq) (res : SvcResult) (d : Dev) : Memory.wf (regEnd q res m d).2.1 = true := by
  unfold regEnd
  extract_lets
  split
  · exact h
  · split
    · rw [regReads_mem]; exact h
    · exact regWritesDo_wf _ _ h _

theorem opUpdateCancel_wf (d : Dev) : Memory.wf (opUpdateCancel m d).2.1 = true := by
  unfold opUpdateCancel
  split
  next st m' d' e => exact opOk_or_opNo_wf (wf_of_eq_triple e (updCancel_wf h _)) _ _ _ _

theorem opUpdateBlock_wf (p : List Byte) (d : Dev) : Memory.wf (opUpdateBlock p m d).2.1 = true := by
  unfold opUpdateBlock
  split
  next st m' d' e =>
    have h' : Memory.wf m' = true := wf_of_eq_triple e (updBlock_wf h _ _ _)
    split
    · exact h'
    · exact h'

/-- CONFIG_LOAD, UPDATE_CANCEL and REG_WRITE are the opcodes of the queue that write memory. -/
theorem opRun_wf (q : AixReq) (d : Dev) : Memory.wf (opRun q m d).2.1 = true := by
  unfold opRun
  extract_lets
  split
  case h_1 => exact opConfigLoad_wf h _ _
  case h_16 => exact opUpdateCancel_wf h _
  case h_20 => exact regWritesDo_wf _ _ h _
  all_goals simp [h]

theorem abRun_wf (q : AixReq) (d : Dev) : Memory.wf (abRun q m d).2.1 = true := by
  unfold abRun
  extract_lets
  split
  · rw [opCommit_mem]; exact h
  · rw [opEstRead_mem]; exact h
  · exact h
  · split
    exact opOk_or_opNo_wf h _ _ _ _
  · exact opUpdateBlock_wf h _ _
  · split
    next st m' d' e => exact opOk_or_opNo_wf (wf_of_eq_triple e (activatePrepare_wf h _)) _ _ _ _
  · exact opOk_or_opNo_wf h _ _ _ _
  · exact h

/-! ### The management engine -/

theorem abEffect_wf (q : AixReq) (d : Dev) : Memory.wf (abEffect q m d).1 = true := by
  unfold abEffect
  split
  · exact commitEffect_wf h _ _ _
  · split
    next reset m' d' e => exact wf_pair _ (wf_of_eq_triple e (activateEffect_wf h _))
  · split
    · exact h
    · exact h
  · exact h

omit h in
theorem aixOut_wf {o : OpOut} (ho : Memory.wf o.2.1 = true) : Memory.wf (aixOut o).1 = true := by
  unfold aixOut
  split
  · exact ho
  · exact ho

theorem aixCommit_wf (force : Option Nat) (d : Dev) : Memory.wf (aixCommit force m d).1 = true := by
  unfold aixCommit
  split
  · exact h
  · split
    · exact h
    · exact h
    · split
      next o m' d' e =>
        have h' : Memory.wf m' = true := wf_of_eq_triple e (abRun_wf h _ _)
        split
        · exact h'
        · extract_lets
          split
          · exact abEffect_wf h' _ _
          · exact h'

theorem abArrive_wf (q : AixReq) (d : Dev) : Memory.wf (abArrive q m d).1 = true := by
  unfold abArrive
  split
  · exact h
  · exact aixCommit_wf h _ _

theorem aixStart_wf (q : AixReq) (d : Dev) : Memory.wf (aixStart q m d).1 = true := by
  unfold aixStart
  extract_lets
  split
  · exact h
  · split
    · split
      · exact h
      · extract_lets
        split
        · exact h
        · exact abArrive_wf h _ _
    · split
      · exact abArrive_wf h _ _
      · exact aixOut_wf (opRun_wf h _ _)

theorem ringPlace_wf (k : Nat) (packet : List Byte) (d : Dev) : Memory.wf (ringPlace k packet m d).2.1 = true := by
  unfold ringPlace
  extract_lets
  split
  split
  · exact memWrite_wf _ _ _ h
  · exact h

theorem tenantPlace_wf (r : AixReq) (flags : Nat) (d : Dev) : Memory.wf (tenantPlace r flags m d).1 = true := by
  unfold tenantPlace
  split
  next ok m' d' e => exact wf_pair _ (wf_of_eq_triple e (ringPlace_wf h _ _ _))

theorem tenantTake_wf (r : AixReq) (d : Dev) : Memory.wf (tenantTake r m d).1 = true := by
  unfold tenantTake
  extract_lets
  split
  · exact h
  · split
    · exact h
    · split
      · exact h
      · exact tenantPlace_wf h _ _ _

theorem aixAbort_wf (r : AixReq) (d : Dev) : Memory.wf (aixAbort r m d).1 = true := by
  unfold aixAbort
  extract_lets
  split
  · exact h
  · split
    · split
      · exact h
      · split
        · exact h
        · exact tenantPlace_wf h _ _ _
    · split
      · exact h
      · split
        · split
          · split
            · split
              next m' d' e => exact wf_pair _ (wf_of_eq_pair e (aixCommit_wf h _ _))
            · exact h
          · split
            · split
              · exact h
              · exact h
            · exact h
        · split
          · exact h
          · exact h
        · exact h

theorem aixFast_wf (r : AixReq) (d : Dev) : Memory.wf (aixFast r m d).1 = true := by
  unfold aixFast
  split
  · exact h
  · exact h
  · exact h
  · exact aixAbort_wf h _ _

theorem aixWay_wf (r : AixReq) (limit : Bool) (d : Dev) : Memory.wf (aixWay r limit m d).2.1 = true := by
  unfold aixWay
  extract_lets
  split
  · exact h
  · exact h
  · split
    · exact h
    · split
      · exact h
      · split
        · exact tenantTake_wf h _ _
        · split
          · exact aixFast_wf h _ _
          · split
            · exact h
            · exact h

theorem aixTake_wf (r : AixReq) (limit : Bool) (d : Dev) : Memory.wf (aixTake r limit m d).2.1 = true := by
  unfold aixTake
  split
  · exact h
  · split
    · exact h
    · extract_lets
      split
      · exact h
      · split
        next go m' d' e => exact wf_of_eq_triple e (aixWay_wf h _ _ _)

omit h in
theorem aixPump_wf (n : Nat) {m : List Host.Cell} (h : Memory.wf m = true) (d : Dev) : Memory.wf (aixPump n m d).1 = true := by
  induction n generalizing m d with
  | zero => exact h
  | succ n ih =>
    unfold aixPump
    split
    · exact h
    · split
      · exact h
      next q _ =>
        extract_lets
        split
        next m' d' e =>
          refine ih (wf_of_eq_pair e ?_) _
          split
          · split
            next r m' d' e => exact aixStart_wf (wf_of_eq_triple e (aixTake_wf h _ _ _)) _ _
            next m' d' e => exact wf_pair _ (wf_of_eq_triple e (aixTake_wf h _ _ _))
          · exact aixStart_wf h _ _

theorem aixGo_wf (d : Dev) : Memory.wf (aixGo m d).1 = true := aixPump_wf _ h _

theorem aixAccept_wf (r : AixReq) (d : Dev) : Memory.wf (aixAccept r m d).1 = true := by
  unfold aixAccept
  split
  · exact h
  · split
    next q m' d' e => exact aixGo_wf (wf_of_eq_triple e (aixTake_wf h _ _ _)) _
    next m' d' e => exact aixGo_wf (wf_of_eq_triple e (aixTake_wf h _ _ _)) _

theorem aixSource_wf (r : AixReq) (d : Dev) : Memory.wf (aixSource r m d).1 = true := by
  unfold aixSource
  split_ifs
  · exact aixAccept_wf h _ _
  · exact h
  · exact aixAccept_wf h _ _
  · exact h

theorem aixArrive_wf (r : AixReq) (d : Dev) : Memory.wf (aixArrive r m d).1 = true := by
  unfold aixArrive
  split
  · split
    · exact h
    · extract_lets
      split
      · exact aixSource_wf h _ _
      · exact h
  · split
    · exact h
    · extract_lets
      split
      · exact h
      · split
        · exact aixSource_wf h _ _
        · exact h

theorem dgChecks_wf (q : AixReq) (bs : List Byte) (d : Dev) : Memory.wf (dgChecks q bs m d).1 = true := by
  unfold dgChecks
  split
  · exact h
  · split
    · exact h
    · exact aixSource_wf h _ _

theorem datagram_wf (g : Datagram) (d : Dev) : Memory.wf (datagram g m d).1 = true := by
  unfold datagram
  extract_lets
  split
  · exact h
  · split
    · exact h
    · split
      · exact h
      · split
        · exact h
        · exact dgChecks_wf h _ _ _

theorem twpWrite_wf (bs : List Byte) (fast : Bool) (d : Dev) : Memory.wf (twpWrite bs fast m d).1 = true := by
  unfold twpWrite
  extract_lets
  split_ifs
  · exact h
  · exact h
  · exact h
  · exact h
  · exact aixSource_wf h _ _
  · exact h

theorem aixCmt_wf (d : Dev) : Memory.wf (aixCmt m d).1 = true := by
  unfold aixCmt
  split
  · split
    next m' d' e => exact aixGo_wf (wf_of_eq_pair e (aixCommit_wf h _ _)) _
  · exact h

theorem engineResume_wf (d : Dev) : Memory.wf (engineResume m d).1 = true := by
  unfold engineResume
  extract_lets
  split
  next m' d' e =>
    have h' : Memory.wf m' = true := wf_of_eq_pair e (aixCommit_wf h _ _)
    extract_lets
    split
    next m'' d'' e' => exact aixGo_wf (wf_of_eq_pair e' (engineReturn_wf h' _)) _

theorem activationSettled_wf (q : AixReq) (d : Dev) : Memory.wf (activationSettled q m d).1 = true := by
  unfold activationSettled
  split
  · exact h
  · split
    · exact abArrive_wf h _ _
    · exact h

omit h in
theorem resultsTake_wf (l : List SvcResult) {m : List Host.Cell} (h : Memory.wf m = true) (d : Dev) :
    Memory.wf (resultsTake l m d).1 = true := by
  induction l generalizing m d with
  | nil => exact h
  | cons r l ih =>
    unfold resultsTake
    split
    · exact ih h _
    · split
      next m' d' e =>
        refine ih (wf_of_eq_pair e ?_) _
        split
        · split
          · exact h
          · split
            · exact aixOut_wf (regEnd_wf h _ _ _)
            · split
              · refine aixOut_wf ?_
                rw [svcEnd_mem]
                exact h
              · exact h
        · exact h

theorem curSettle_wf (d : Dev) : Memory.wf (curSettle m d).1 = true := by
  unfold curSettle
  split
  · exact h
  · split
    · exact h
    · split
      · split
        · exact h
        · exact aixOut_wf h
      · split
        · exact h
        · exact aixCommit_wf h _ _
      · exact activationSettled_wf h _ _
      · split
        · exact h
        · exact aixOut_wf h
      · exact h

omit h in
theorem settle_wf {md : List Host.Cell × Dev} (h : Memory.wf md.1 = true) : Memory.wf (settle md).1 = true := by
  unfold settle
  split
  next m d =>
  have hm : Memory.wf m = true := h
  extract_lets
  split
  next m' d' e =>
    have h' : Memory.wf m' = true := wf_of_eq_pair e (resultsTake_wf _ hm _)
    split
    · split
      next m'' d'' e' => exact aixGo_wf (wf_of_eq_pair e' (curSettle_wf h' _)) _
    · exact h'

theorem testEnds_wf (t : Nat) (r : TestResult) (d : Dev) : Memory.wf (testEnds t r m d).1 = true := by
  unfold testEnds
  extract_lets
  split
  next m' d' e =>
    have h' : Memory.wf m' = true := wf_of_eq_pair e (withMonitor_wf h _ _)
    split
    · exact engineResume_wf h' _
    · exact h'

omit h in
theorem cmtBy_wf (wanted : Bool) (data : Nat) {md : List Host.Cell × Dev} (h : Memory.wf md.1 = true) :
    Memory.wf (cmtBy wanted data md).1 = true := by
  unfold cmtBy
  split
  · extract_lets
    split
    next m' d' e => exact aixGo_wf (wf_of_eq_pair e (aixCommit_wf h _ _)) _
  · exact h

theorem registerWrite_wf (t attr reg w : Nat) (d : Dev) : Memory.wf (registerWrite t attr reg w m d).1 = true :=
  cmtBy_wf _ _ (postedWrite_wf h _ _ _ _ _ _ _)

theorem frameClose_wf (d : Dev) : Memory.wf (frameClose m d).1 = true := by
  unfold frameClose
  split
  · exact h
  · extract_lets
    split
    · exact h
    · exact h

end MemoryForm

/-! ### Every command -/

/-- What an outcome answers holds memories in canonical form. -/
def AnswersFormed (o : Host.Outcome State Fault Refusal) : Prop := ∀ t : State, o = .next t → Memory.wf t.mem = true

theorem answersFormed_next {s : State} (h : Memory.wf s.mem = true) : AnswersFormed (.next s) := by
  rintro t ⟨⟩
  exact h

section Commands

variable {s : State} (h : Memory.wf s.mem = true)
include h

theorem onDev_formed (f : Dev → Dev) : AnswersFormed (onDev f s) := answersFormed_next h

theorem onBlk_formed (i : Nat) (f : Dev → Dev) : AnswersFormed (onBlk i f s) := by
  refine answersFormed_next ?_
  split
  · exact h
  · exact h

omit h in
theorem onBoth_formed {f : List Host.Cell → Dev → List Host.Cell × Dev} (hf : Memory.wf (f s.mem s.dev).1 = true) :
    AnswersFormed (onBoth f s) := answersFormed_next hf

theorem onBlkBoth_formed (i : Nat) {f : List Host.Cell → Dev → List Host.Cell × Dev} (hf : Memory.wf (f s.mem s.dev).1 = true) :
    AnswersFormed (onBlkBoth i f s) := by
  refine answersFormed_next ?_
  split
  · exact h
  · exact hf

theorem onEvent_formed (i : Nat) (f : Dev → Dev) : AnswersFormed (onEvent i f s) :=
  onBlkBoth_formed h i (settle_wf (wf_pair _ h))

omit h in
theorem onSettled_formed {f : List Host.Cell → Dev → List Host.Cell × Dev} (hf : Memory.wf (f s.mem s.dev).1 = true) :
    AnswersFormed (onSettled f s) := onBoth_formed (settle_wf hf)

theorem onSettled_device_formed (f : Dev → Dev) : AnswersFormed (onSettled (fun m d => (m, f d)) s) :=
  onSettled_formed (wf_pair _ h)

theorem request_formed (r : AixPacket) (opcode : Nat) (hold : Bool) (fault : Option Nat) :
    AnswersFormed (request r opcode hold fault s) := onBoth_formed (aixArrive_wf h _ _)

/-- Every command keeps the form: those that write memory by the lemma of their meaning, the requests of Aidex by that of their
arrival, and the others change the device alone. -/
theorem exec_formed (c : Instr) : AnswersFormed (exec c s) := by
  cases c
  case registerWrite => exact onBoth_formed (registerWrite_wf h _ _ _ _ _)
  case storeDrain =>
    rw [exec_storeDrain, execStoreDrain]
    refine onBoth_formed ?_
    exact cmtBy_wf _ _ (storeDrain_wf h _ _ _ _)
  case tlCtrlRestart => exact onBoth_formed (withMonitor_wf h _ _)
  case comparatorTestDone => exact onSettled_formed (testEnds_wf h _ _ _)
  case abstractCommand => exact onBlkBoth_formed h _ (abstractCommand_wf h _ _ _ _)
  case systemBusAccess =>
    rw [exec_systemBusAccess, execSystemBusAccess]
    refine onBlkBoth_formed h _ ?_
    exact cmtBy_wf _ _ (systemBus_wf h _ _ _ _ _ _)
  case roleExchange => exact onSettled_formed (roleExchange_wf h _ _)
  case roleGrantAck | partnerLost | plChange | activationGrant => exact onSettled_device_formed h _
  case digestMessage => exact onBoth_formed (heardBoth_wf h _ _ (digestMessage_wf h _ _))
  case alignTransfer => exact onBlkBoth_formed h _ (heardBoth_wf h _ _ (alignTransfer_wf h _ _ _ _))
  case estimateWorkStart => exact onBoth_formed (workStart_wf h _)
  case estimateWorkEnd => exact onBlkBoth_formed h _ (workEnd_wf h _)
  case cellUpdate => exact onBlkBoth_formed h _ (cellUpdate_wf h _ _ _)
  case publishCommit => exact onBlkBoth_formed h _ (publishCommit_wf h _)
  case paramReloaded => exact onBlkBoth_formed h _ (paramReloaded_wf h _ _)
  case frameClose => exact onBoth_formed (frameClose_wf h _)
  case kzbTransactionStart | regResp | svcTimeout | kzbBusyRetry | peerResponse => exact onEvent_formed h _ _
  case peerLinkDown =>
    rw [exec_peerLinkDown, execPeerLinkDown]
    refine onBlkBoth_formed h _ ?_
    exact settle_wf (linkDownBoth_wf h _)
  case peerInboundComplete => exact onBlkBoth_formed h _ (peerInDone_wf h _ _)
  case datagramDiscarded => exact onBoth_formed (datagram_wf h _ _)
  case aixCmt => exact onBoth_formed (aixCmt_wf h _)
  case twpWriteTransfer => exact onBoth_formed (twpWrite_wf h _ _ _)
  case powerOnReset => exact onBoth_formed (vauxRise_wf h _ _)
  case hutchRetentionLoss => exact answersFormed_next (memLose_wf _ h)
  case boot => exact onSettled_formed (boot_wf h _ _ _)
  case wakeDecision => exact onSettled_formed (wakeDecision_wf h _ _)
  case bankConfirmed => exact onBlkBoth_formed h _ (bankConfirmed_wf h _)
  case stagingEraseDone => exact onBlkBoth_formed h _ (stagingErased_wf h _)
  case recordWrite => exact onBoth_formed (recordWrite_wf h _ _)
  case ringOpened => exact onBoth_formed (ringOpened_wf h _ _)
  case rdSeq =>
    rw [exec_rdSeq, execRdSeq]
    exact onBoth_formed (wf_pair _ h)
  case abort | arm | balEnable | balSet | bye | cellInit | channelCmd | configCommit | configLoad | configRead | disarm |
      estRead | hello | logRead | logStatus | netSleepPolicy | netStatus | outputStatus | pairRole | ping | powerStatus |
      recordRead | regRead | regWrite | routeSend | satRead | satWrite | setPlevel | sleep | status | stringCmd |
      tenantCtrl | tenantRequest | updateActivate | updateBegin | updateBlock | updateCancel | updateStatus | zoneClear =>
    exact request_formed h _ _ _ _
  case safeNFall =>
    rw [exec_safeNFall, execSafeNFall]
    exact onDev_formed h _
  case aloneWaitTimeout | angNowLoRead | angPtpCommit | angleMessageSend | angleUnqualified | bandClassify | beNPop |
      beSPop | brgClr | brownOut | cabClear | cabDerive | cabLock | cabRead | cabUndefinedOp | cabWrite | closeAbandoned |
      closeEndNotice | coastMaxExpiry | comparatorMismatch | contactorFbFault | cycleBoundary | digestLate | dinChange |
      divergenceInterval | engineHoldExpiry | executeInstruction | forceHold | groundReturnReset | holdWarn | hutchClock |
      interruptTaken | kickMissed | load | loadDataReturn | partnerTripNotice | peerAngleMessage | peerAngleMissing |
      protCmdArm | protCmdDisarm | protCmdReconf | protKick | protStrCmdClose | protStrCmdClr | protStrCmdOpen | ptpSync |
      ptpSyncMissing | pwrCgWrite | pwrPlWrite | pwrPswWrite | pwrRstWrite | pwrSleepGo | repeatExpiry | rollbackRestart |
      rstNReset | safeExit | sleepSeal | slewComplete | slotCtrlWrite | slotFire | stepConf | stepGo | stepRefuse |
      stepReq | subCmd | switchWake | sysReset | sysWakeAck | tenantRelease | tenantReset | timeMark | timestampHoldEnd |
      tl0StoppedReset | tlCtrlClrCnt | tlCtrlStop | tlCtrlTest | twpAddressMatch | twpReadTransfer | twpReplyExpiry |
      wentry | wgate | wldSecblkWrite | wret | wtenantWrite | zclr =>
    exact onDev_formed h _
  case pullInEnd =>
    rw [exec_pullInEnd, execPullInEnd]
    exact onBlk_formed h _ _
  case slewRampEnd =>
    rw [exec_slewRampEnd, execSlewRampEnd]
    exact onBlk_formed h _ _
  case groundLoss =>
    rw [exec_groundLoss, execGroundLoss]
    exact onBlk_formed h _ _
  all_goals exact onBlk_formed h _ _

end Commands

/-- Settles O5: a step is a tick, which touches the device alone, or the command at the front of the queue. -/
theorem memoryFormKeptByEveryStep : Obligations.MemoryFormKeptByEveryStep := by
  intro s t h hs
  unfold step at hs
  split at hs
  · exact answersFormed_next (s := { s with dev := tick s.dev }) h t hs
  next c rest _ => exact exec_formed (s := { s with pending := rest }) h c t hs

end Sys2Proof.Machine

namespace Sys2Proof.Machine

/-! ### What a command does, by what its meaning does to the device (O20, O21, O25) -/

section Meanings

variable {c : Instr} {H : Dev → Prop} {HM : List Host.Cell → Dev → Prop} {f g : Dev → Dev} {i n : Nat}
  {fm gm : List Host.Cell → Dev → List Host.Cell × Dev}

theorem completes_onDev (hc : ∀ s, exec c s = onDev f s) (h : ∀ d, H d → f d = g d) : Completes c H g := fun s hs => by
  rw [hc, onDev_next, h _ hs]

theorem ignored_onDev (hc : ∀ s, exec c s = onDev f s) (h : ∀ d, H d → f d = d) : Ignored c H :=
  completes_onDev (g := id) hc h

theorem completes_onBlk (hc : ∀ s, exec c s = onBlk i f s) (hw : ∀ d, H d → whole i d) (h : ∀ d, H d → f d = g d) :
    Completes c H g := fun s hs => by
  rw [hc, onBlk_whole _ _ _ (hw _ hs), h _ hs]

/-- What leaves the device as it is leaves it so in a cut block too. -/
theorem ignored_onBlk (hc : ∀ s, exec c s = onBlk i f s) (h : ∀ d, H d → f d = d) : Ignored c H := fun s hs => by
  rw [hc, onBlk, h _ hs]
  exact congrArg Host.Outcome.next (ite_self s)

/-- A receiver event of an enabled chain in the whole Kazilo block (R91). -/
theorem completes_onPort (hc : ∀ s, exec c s = onBlk 4 (onPort n f) s) (hh : ∀ d, H d → chainHears n d)
    (h : ∀ d, H d → f d = g d) : Completes c H g :=
  completes_onBlk hc (fun d hd => (hh d hd).1) fun d hd => (if_pos (hh d hd).2).trans (h d hd)

theorem ignored_onPort (hc : ∀ s, exec c s = onBlk i (onPort n f) s) (h : ∀ d, H d → f d = d) : Ignored c H :=
  ignored_onBlk hc fun d hd => by rw [onPort, h d hd, ite_self]

theorem completesBoth_onBoth (hc : ∀ s, exec c s = onBoth fm s) (h : ∀ m d, HM m d → fm m d = gm m d) :
    CompletesBoth c HM gm := fun s hs => by
  rw [hc, onBoth, h _ _ hs]

theorem completes_onBoth (hc : ∀ s, exec c s = onBoth fm s) (h : ∀ m d, H d → fm m d = (m, g d)) : Completes c H g :=
  completesBoth_onBoth (HM := fun _ => H) (gm := fun m d => (m, g d)) hc h

theorem ignored_onBoth (hc : ∀ s, exec c s = onBoth fm s) (h : ∀ m d, H d → fm m d = (m, d)) : Ignored c H :=
  completes_onBoth (g := id) hc h

theorem completesBoth_onBlkBoth (hc : ∀ s, exec c s = onBlkBoth i fm s) (hw : ∀ m d, HM m d → whole i d)
    (h : ∀ m d, HM m d → fm m d = gm m d) : CompletesBoth c HM gm := fun s hs => by
  rw [hc, onBlkBoth_whole _ _ _ (hw _ _ hs), h _ _ hs]

theorem completes_onBlkBoth (hc : ∀ s, exec c s = onBlkBoth i fm s) (hw : ∀ d, H d → whole i d)
    (h : ∀ m d, H d → fm m d = (m, g d)) : Completes c H g :=
  completesBoth_onBlkBoth (HM := fun _ => H) (gm := fun m d => (m, g d)) hc (fun _ => hw) h

theorem ignored_onBlkBoth (hc : ∀ s, exec c s = onBlkBoth i fm s) (h : ∀ m d, H d → fm m d = (m, d)) : Ignored c H :=
  fun s hs => by
    rw [hc, onBlkBoth, h _ _ hs]
    exact congrArg Host.Outcome.next (ite_self s)

theorem settles_onSettled (hc : ∀ s, exec c s = onSettled fm s) (h : ∀ m d, H d → fm m d = gm m d) : Settles c H gm :=
  completesBoth_onBoth hc fun m d hd => congrArg settle (h m d hd)

end Meanings

/-! ### A message of the partner (R23) -/

theorem heardThen_heard {f : Dev → Dev} {d : Dev} (h : heard d = true) : heardThen f d = f d := if_pos h

theorem heardThen_unheard {f : Dev → Dev} {d : Dev} (h : heard d = false) : heardThen f d = d := if_neg (by simp [h])

/-- A message that would change nothing changes nothing, heard or not. -/
theorem heardThen_stands {f : Dev → Dev} {d : Dev} (h : f d = d) : heardThen f d = d := by rw [heardThen, h, ite_self]

theorem heardBoth_heard {f : List Host.Cell → Dev → List Host.Cell × Dev} {m : List Host.Cell} {d : Dev} (h : heard d = true) :
    heardBoth f m d = f m d := if_pos h

theorem heardBoth_unheard {f : List Host.Cell → Dev → List Host.Cell × Dev} {m : List Host.Cell} {d : Dev}
    (h : heard d = false) : heardBoth f m d = (m, d) := if_neg (by simp [h])

theorem heardBoth_stands {f : List Host.Cell → Dev → List Host.Cell × Dev} {m : List Host.Cell} {d : Dev}
    (h : f m d = (m, d)) : heardBoth f m d = (m, d) := by rw [heardBoth, h, ite_self]

/-! ### The roles of the pair (O20) -/

theorem roleExchange_not_linked (r : RoleReport) (m : List Host.Cell) (d : Dev) (h : d.pair.mode = 0 ∨ peerUp d = false) :
    roleExchange r m d = (m, d) := if_pos h

section RoleExchange

variable {r : RoleReport} {d : Dev} (m : List Host.Cell) (hm : d.pair.mode ≠ 0) (hu : peerUp d = true)
include hm hu

/-- A LONE member negotiates with a partner that may be primary (R27). -/
theorem roleExchange_lone (hr : (roleHeard r d).pair.role = 5) : roleExchange r m d =
    (m, if r.barred then roleHeard r d
      else negotiate (roleTo 2 (pairPut { (roleHeard r d).pair with fromLone := true } (roleHeard r d)))) := by
  simp only [roleExchange, hm, hu, ← roleHeard.eq_1, hr, Bool.true_eq_false, or_self, if_false]

/-- A member that holds a role negotiates on a restart alone. -/
theorem roleExchange_paired (hr : (roleHeard r d).pair.role = 3 ∨ (roleHeard r d).pair.role = 4) : roleExchange r m d =
    (m, if r.restart then negotiate (roleTo 2 (pairPut { (roleHeard r d).pair with
      fromLone := false, prefers := !r.prefers } (roleHeard r d))) else roleHeard r d) := by
  rcases hr with hr | hr <;>
    simp only [roleExchange, hm, hu, ← roleHeard.eq_1, hr, Bool.true_eq_false, or_self, if_false]

/-- A negotiating member follows the commit of the partner that is to be primary. -/
theorem roleExchange_follows (hr : (roleHeard r d).pair.role = 2) (hp : r.role = 3) (hn : negotiated (roleHeard r d) = some false) :
    roleExchange r m d =
      (let e := relabelTo r.cycle.toNat (roleTo 4 (pairPut { (roleHeard r d).pair with fromLone := false } (roleHeard r d)))
       (if (roleHeard r d).est.alignAll then unalignedSweep e m else m, e)) := by
  simp only [roleExchange, hm, hu, ← roleHeard.eq_1, hr, hp, hn, Bool.true_eq_false, or_self, if_false, and_self, if_true]

/-- Without it, negotiation goes on. -/
theorem roleExchange_again (hr : (roleHeard r d).pair.role = 2) (h : r.role ≠ 3 ∨ negotiated (roleHeard r d) ≠ some false) :
    roleExchange r m d = (m, negotiate (roleHeard r d)) := by
  simp only [roleExchange, hm, hu, ← roleHeard.eq_1, hr, not_and_or.2 h, Bool.true_eq_false, or_self, if_false]

end RoleExchange

theorem grantAck_granted {d : Dev} (hr : d.pair.role = 2) (hn : negotiated d = some true) :
    grantAck d = roleMessage false (pairPut { (roleTo 3 d).pair with fromLone := false } (roleTo 3 d)) := if_pos ⟨hr, hn⟩

theorem grantAck_stands {d : Dev} (h : d.pair.role ≠ 2 ∨ negotiated d ≠ some true) : grantAck d = d := if_neg (not_and_or.2 h)

theorem aloneTimeout_stands {d : Dev} (h : d.pair.role ≠ 1 ∨ peerUp d = true ∨ monitorPulses d = true) : aloneTimeout d = d :=
  if_neg fun ⟨hr, hu, hp⟩ => by simp [hr, hu, hp] at h

theorem partnerLost_stands {c : Nat} {d : Dev} (h : d.pair.role < 2 ∨ 5 ≤ d.pair.role ∨ lostBy d ≠ some c) :
    partnerLost c d = d := by
  refine if_neg fun ⟨hlo, hhi, hl⟩ => ?_
  rcases h with h | h | h
  · omega
  · omega
  · exact h hl

/-! ### The digests of the partner (O20) -/

section Digests

variable {g : DigestMsg} {d : Dev} (m : List Host.Cell)

theorem digestMessage_unpaired (hp : paired d = false) : digestMessage g m d = (m, d) := by simp [digestMessage, hp]

/-- A digest tells of a skip: the chains of its frame are marked. -/
theorem digestMessage_skip (hp : paired d = true) (hs : g.skip = true) :
    digestMessage g m d = digestMark g { frame := g.frame.toNat } m d := by simp [digestMessage, hp, hs]

/-- The own set of its frame is kept: both are compared now (R34). -/
theorem digestMessage_kept {o : OwnSet} (hp : paired d = true) (hs : g.skip = false)
    (ho : d.pair.sets.find? (fun o => o.frame == g.frame.toNat) = some o) :
    digestMessage g m d = digestMark g o m (digestCompare g o d) := by simp [digestMessage, hp, hs, ho, digestJudge]

/-- The own set is still to come: the message waits for it. -/
theorem digestMessage_early (hp : paired d = true) (hs : g.skip = false)
    (ho : d.pair.sets.find? (fun o => o.frame == g.frame.toNat) = none) (he : digestEarly g d = true) :
    digestMessage g m d = (m, { d with pair := { d.pair with digests := (g :: d.pair.digests).take 3 } }) := by
  simp [digestMessage, hp, hs, ho, he]

end Digests

/-- Settles O20: each clause is the rule of its message above. -/
theorem pairCommandsComplete : Obligations.PairCommandsComplete := by
  refine ⟨fun r => ?_, fun r => ?_, fun r => ?_, fun r => ?_, fun r => ?_, fun r => ?_, ?_, ?_, ?_, ?_, fun c => ?_, fun c => ?_,
    fun g => ?_, fun g o => ?_, fun g => ?_, fun g => ?_, ?_⟩
  · refine settles_onSettled (exec_roleExchange r) fun m d ⟨hm, hu, hr, hb⟩ => ?_
    rw [roleExchange_lone m hm hu hr, hb]
    rfl
  · refine settles_onSettled (exec_roleExchange r) fun m d ⟨hm, hu, hr, hb⟩ => ?_
    rw [roleExchange_lone m hm hu hr, if_pos hb]
  · exact settles_onSettled (exec_roleExchange r) fun m d ⟨hm, hu, hr⟩ => roleExchange_paired m hm hu hr
  · exact settles_onSettled (exec_roleExchange r) fun m d ⟨hm, hu, hr, hp, hn⟩ => roleExchange_follows m hm hu hr hp hn
  · exact settles_onSettled (exec_roleExchange r) fun m d ⟨hm, hu, hr, h⟩ => roleExchange_again m hm hu hr h
  · exact settles_onSettled (exec_roleExchange r) fun m d h => roleExchange_not_linked r m d h
  · refine settles_onSettled exec_roleGrantAck fun m d ⟨hh, hr, hn⟩ => ?_
    rw [heardThen_heard hh, grantAck_granted hr hn]
  · refine settles_onSettled exec_roleGrantAck fun m d h => ?_
    rcases h with hh | h
    · rw [heardThen_unheard hh]
    · rw [heardThen_stands (grantAck_stands h)]
  · exact completes_onDev exec_aloneWaitTimeout fun d h => if_pos h
  · exact ignored_onDev exec_aloneWaitTimeout fun d h => aloneTimeout_stands h
  · exact settles_onSettled (exec_partnerLost c) fun m d h => congrArg (Prod.mk m) (if_pos h)
  · exact settles_onSettled (exec_partnerLost c) fun m d h => congrArg (Prod.mk m) (partnerLost_stands h)
  · exact completesBoth_onBoth (exec_digestMessage g) fun m d ⟨hh, hp, hs⟩ =>
      (heardBoth_heard hh).trans (digestMessage_skip m hp hs)
  · exact completesBoth_onBoth (exec_digestMessage g) fun m d ⟨hh, hp, hs, ho⟩ =>
      (heardBoth_heard hh).trans (digestMessage_kept m hp hs ho)
  · exact completes_onBoth (exec_digestMessage g) fun m d ⟨hh, hp, hs, ho, he⟩ =>
      (heardBoth_heard hh).trans (digestMessage_early m hp hs ho he)
  · refine ignored_onBoth (exec_digestMessage g) fun m d h => ?_
    rcases h with hh | hp
    · exact heardBoth_unheard hh
    · exact heardBoth_stands (digestMessage_unpaired m hp)
  · exact completes_onDev exec_digestLate fun d _ => rfl

end Sys2Proof.Machine

namespace Sys2Proof.Machine

/-! ### The step handshake (O21) -/

section Handshakes

variable {n c : Nat} {r : Role} {on : Bool} {h : Handshake} {d : Dev}

theorem stepReq_unheard (hh : heard d = false) : stepReq n r on c d = d := if_pos (by simp [hh])

/-- An off step is taken at once. -/
theorem stepReq_off (hh : heard d = true) : stepReq n r false c d =
    hsPut (some { string := n, role := roleCode r, on := false, cycle := c, phase := 3 }) d := by simp [stepReq, hh]

theorem stepReq_confirmed (hh : heard d = true) (hf : followRefuses n d = false) : stepReq n r true c d =
    toPartner (.stepConf n (roleCode r) c)
      (hsPut (some { string := n, role := roleCode r, on := true, cycle := c, phase := 2 }) d) := by simp [stepReq, hh, hf]

theorem stepReq_refused (hh : heard d = true) (hf : followRefuses n d = true) : stepReq n r true c d =
    toPartner (.stepRefuse n (Config.freeWord (draw d).1).toNat) (draw d).2 := by simp [stepReq, hh, hf]

/-- STEP_CONF of the step requested is answered by STEP_GO: the commit point of R31. -/
theorem stepConf_commits (hs : d.prot.hs = some h)
    (hg : heard d = true ∧ h.string = n ∧ h.role = roleCode r ∧ h.cycle = c ∧ h.phase = 0) :
    stepConf n r c d = toPartner (.stepGo n (roleCode r) c) (hsPut (some { h with phase := 1 }) d) := by
  simp only [stepConf, hs, if_pos hg]

theorem stepConf_other (hs : d.prot.hs = some h)
    (hg : ¬(heard d = true ∧ h.string = n ∧ h.role = roleCode r ∧ h.cycle = c ∧ h.phase = 0)) : stepConf n r c d = d := by
  simp only [stepConf, hs, if_neg hg]

theorem stepConf_idle (hs : d.prot.hs = none) : stepConf n r c d = d := by simp only [stepConf, hs]

/-- STEP_GO of the step confirmed commits it. -/
theorem stepGo_commits (hs : d.prot.hs = some h)
    (hg : heard d = true ∧ h.string = n ∧ h.role = roleCode r ∧ h.cycle = c ∧ h.phase = 2) :
    stepGo n r c d = hsPut (some { h with phase := 3 }) d := by simp only [stepGo, hs, if_pos hg]

theorem stepGo_other (hs : d.prot.hs = some h)
    (hg : ¬(heard d = true ∧ h.string = n ∧ h.role = roleCode r ∧ h.cycle = c ∧ h.phase = 2)) : stepGo n r c d = d := by
  simp only [stepGo, hs, if_neg hg]

theorem stepGo_idle (hs : d.prot.hs = none) : stepGo n r c d = d := by simp only [stepGo, hs]

theorem stepRefuse_abandons (hs : d.prot.hs = some h) (hg : heard d = true ∧ h.string = n ∧ h.phase = 0) :
    stepRefuse n d = abandon n 1 d := by simp only [stepRefuse, hs, if_pos hg]

theorem stepRefuse_other (hs : d.prot.hs = some h) (hg : ¬(heard d = true ∧ h.string = n ∧ h.phase = 0)) :
    stepRefuse n d = d := by simp only [stepRefuse, hs, if_neg hg]

theorem stepRefuse_idle (hs : d.prot.hs = none) : stepRefuse n d = d := by simp only [stepRefuse, hs]

theorem closeAbandoned_requested (hs : d.prot.hs = some h) (hp : h.phase = 0) :
    closeAbandoned d = abandon h.string 0 d := by simp only [closeAbandoned, hs, if_pos hp]

theorem closeAbandoned_idle (hs : d.prot.hs = none) : closeAbandoned d = d := by simp only [closeAbandoned, hs]

/-- The handshake's three answers do nothing at a member that does not hear them. -/
theorem stepConf_unheard (hh : heard d = false) : stepConf n r c d = d := by
  cases hs : d.prot.hs with
  | none => exact stepConf_idle hs
  | some h => exact stepConf_other hs (by simp [hh])

theorem stepGo_unheard (hh : heard d = false) : stepGo n r c d = d := by
  cases hs : d.prot.hs with
  | none => exact stepGo_idle hs
  | some h => exact stepGo_other hs (by simp [hh])

theorem stepRefuse_unheard (hh : heard d = false) : stepRefuse n d = d := by
  cases hs : d.prot.hs with
  | none => exact stepRefuse_idle hs
  | some h => exact stepRefuse_other hs (by simp [hh])

end Handshakes

/-! ### The partner's notices and the alignment (O21) -/

section Notices

variable {z : Bool} {n : Nat} {d : Dev}

/-- A trip at the partner trips here, with source 6 (R216). -/
theorem partnerTrip_heard (hr : d.prot.runs = true) (hh : heard d = true) :
    partnerTrip z n d = if z then tripZone (srcWord 6 0 0 0) d else tripString n (srcWord 6 0 0 0) d := by
  simp [partnerTrip, hr, hh]

theorem partnerTrip_stands (h : d.prot.runs = false ∨ heard d = false) : partnerTrip z n d = d := if_pos (by simpa using h)

theorem closeEndNotice_unheard (hh : heard d = false) : closeEndNotice n d = d := by simp [closeEndNotice, hh]

/-- The close of the string is under way here: its coils go off (R211). -/
theorem closeEndNotice_closing (hh : heard d = true) (hc : closing n d = true) : closeEndNotice n d =
    zoneSettle (recordC 0x0506 n 2 (seqTo n 0 (coilsOff n (hsDrop n (queueDrop n d))))) := by simp [closeEndNotice, hh, hc]

theorem closeEndNotice_not_driven (hh : heard d = true) (hc : closing n d = false) : closeEndNotice n d =
    if onAgreed n d then hsDrop n (queueDrop n d) else queueDrop n d := by simp [closeEndNotice, hh, hc]

theorem activationRequest_barred {same : Bool} {why : Nat} (hb : ownBar d = some why) : activationRequest same d =
    toPartner (.activationAnswer false why) (recordC 0x0E0E 1 why d) := by simp [activationRequest, hb]

theorem activationRequest_granted {same : Bool} (hb : ownBar d = none) (ha : d.upd.asked = false) (h4 : updState d ≠ 4)
    (h6 : updState d ≠ 6) :
    activationRequest same d = toPartner (.activationAnswer true 0) (fput F.UPD_STATUS_HOLD true d) := by
  simp [activationRequest, hb, ha, h4, h6]

theorem activationAnswer_asked {g : Bool} {why : Nat} (ha : d.upd.asked = true) : activationAnswer g why d =
    if g then updPut { d.upd with asked := false } d else activationRefused why d := by simp [activationAnswer, ha]

theorem activationAnswer_not_asked {g : Bool} {why : Nat} (ha : d.upd.asked = false) : activationAnswer g why d = d := by
  simp [activationAnswer, ha]

theorem alignRequest_stands {ps : List (Nat × Nat)} (h : d.pair.role ≠ 3 ∨ flag F.EST_CTRL_ALIGN_EN d = false) :
    alignRequest ps d = d := if_neg fun ⟨hr, ha⟩ => by simp [hr, ha] at h

variable {f : Nat} {bs : List PosBlocks} (m : List Host.Cell)

theorem alignTransfer_dropped {good : Bool} (h : d.pair.role ≠ 4 ∨ good = false) :
    alignTransfer f bs good m d = (m, alignEnd d) := if_pos (by simpa using h)

/-- The own work for its frame is done: the transfer is installed at once (R183). -/
theorem alignTransfer_installed (hr : d.pair.role = 4) (hd : d.est.work = none ∧ d.est.pub = none ∧ d.est.considered = some f) :
    alignTransfer f bs true m d = alignInstall f bs m d := by simp [alignTransfer, hr, hd]

theorem alignTransfer_kept (hr : d.pair.role = 4) (hd : d.est.work ≠ none ∨ d.est.pub ≠ none ∨ d.est.considered ≠ some f) :
    alignTransfer f bs true m d = (m, { d with est := { d.est with xfer := some (f, bs) } }) := by
  have hn : ¬(d.est.work = none ∧ d.est.pub = none ∧ d.est.considered = some f) := by tauto
  simp only [alignTransfer, hr, if_neg hn, ne_eq, not_true_eq_false, Bool.not_true, Bool.false_eq_true, or_self, if_false]

end Notices

/-- Settles O21: each clause is the rule of its message above. -/
theorem stepHandshakeCompletes : Obligations.StepHandshakeCompletes := by
  refine ⟨fun n r c => ?_, fun n r c => ?_, fun n r c => ?_, fun n r c h => ?_, fun n r c h => ?_, fun n r c h => ?_,
    fun n r c h => ?_, fun n h => ?_, fun h => ?_, fun n r c => ⟨?_, ?_, ?_, ?_⟩, fun n => ?_, fun n => ?_, fun z n => ?_,
    fun n => ?_, fun n => ?_, fun same => ?_, fun same why => ?_, fun g why => ?_, fun g why => ?_, fun ps => ?_, fun ps => ?_,
    fun f bs good => ?_, fun f bs => ?_, fun f bs => ?_,
    fun n r on z same c f ps bs good => ⟨?_, ?_, ?_, ?_, ?_, ?_, ?_, ?_, ?_⟩⟩
  -- the step and its answers
  · exact completes_onDev (exec_stepReq n r false c) fun d hh => stepReq_off hh
  · exact completes_onDev (exec_stepReq n r true c) fun d ⟨hh, hf⟩ => stepReq_confirmed hh hf
  · exact completes_onDev (exec_stepReq n r true c) fun d ⟨hh, hf⟩ => stepReq_refused hh hf
  · exact completes_onDev (exec_stepConf n r c) fun d ⟨hs, hn, hr, hc, hp, hh⟩ => stepConf_commits hs ⟨hh, hn, hr, hc, hp⟩
  · exact ignored_onDev (exec_stepConf n r c) fun d ⟨hs, ho⟩ => stepConf_other hs (by tauto)
  · exact completes_onDev (exec_stepGo n r c) fun d ⟨hs, hn, hr, hc, hp, hh⟩ => stepGo_commits hs ⟨hh, hn, hr, hc, hp⟩
  · exact ignored_onDev (exec_stepGo n r c) fun d ⟨hs, ho⟩ => stepGo_other hs (by tauto)
  · exact completes_onDev (exec_stepRefuse n) fun d ⟨hs, hn, hp, hh⟩ => stepRefuse_abandons hs ⟨hh, hn, hp⟩
  · exact completes_onDev exec_closeAbandoned fun d ⟨hs, hp⟩ => closeAbandoned_requested hs hp
  · exact ignored_onDev (exec_stepConf n r c) fun d hs => stepConf_idle hs
  · exact ignored_onDev (exec_stepGo n r c) fun d hs => stepGo_idle hs
  · exact ignored_onDev (exec_stepRefuse n) fun d hs => stepRefuse_idle hs
  · exact ignored_onDev exec_closeAbandoned fun d hs => closeAbandoned_idle hs
  -- trips, the end of a close, activation and alignment
  · exact completes_onDev (exec_partnerTripNotice true n) fun d ⟨hr, hh⟩ => partnerTrip_heard hr hh
  · exact completes_onDev (exec_partnerTripNotice false n) fun d ⟨hr, hh⟩ => partnerTrip_heard hr hh
  · exact ignored_onDev (exec_partnerTripNotice z n) fun d hr => partnerTrip_stands (.inl hr)
  · exact completes_onDev (exec_closeEndNotice n) fun d ⟨hh, hc⟩ => closeEndNotice_closing hh hc
  · exact completes_onDev (exec_closeEndNotice n) fun d ⟨hh, hc⟩ => closeEndNotice_not_driven hh hc
  · exact completes_onBlk (exec_activationRequest same) (fun d h => h.1) fun d ⟨_, hh, hb, ha, h4, h6⟩ =>
      (heardThen_heard hh).trans (activationRequest_granted hb ha h4 h6)
  · exact completes_onBlk (exec_activationRequest same) (fun d h => h.1) fun d ⟨_, hh, hb⟩ =>
      (heardThen_heard hh).trans (activationRequest_barred hb)
  · refine settles_onSettled (exec_activationGrant g why) fun m d ⟨hh, ha⟩ => ?_
    rw [heardThen_heard hh, activationAnswer_asked ha]
  · refine settles_onSettled (exec_activationGrant g why) fun m d h => ?_
    rcases h with hh | ha
    · rw [heardThen_unheard hh]
    · rw [heardThen_stands (activationAnswer_not_asked ha)]
  · exact completes_onBlk (exec_alignRequest ps) (fun d h => h.1) fun d ⟨_, hh, hr, ha⟩ =>
      (heardThen_heard hh).trans (if_pos ⟨hr, ha⟩)
  · exact ignored_onBlk (exec_alignRequest ps) fun d h => heardThen_stands (alignRequest_stands h)
  · exact completes_onBlkBoth (exec_alignTransfer f bs good) (fun d h => h.1) fun m d ⟨_, hh, h⟩ =>
      (heardBoth_heard hh).trans (alignTransfer_dropped m h)
  · exact completesBoth_onBlkBoth (exec_alignTransfer f bs true) (fun m d h => h.1) fun m d ⟨_, hh, hr, hd⟩ =>
      (heardBoth_heard hh).trans (alignTransfer_installed m hr hd)
  · exact completes_onBlkBoth (exec_alignTransfer f bs true) (fun d h => h.1) fun m d ⟨_, hh, hr, hd⟩ =>
      (heardBoth_heard hh).trans (alignTransfer_kept m hr hd)
  -- what is not heard
  · exact ignored_onDev (exec_stepReq n r on c) fun d hh => stepReq_unheard hh
  · exact ignored_onDev (exec_stepConf n r c) fun d hh => stepConf_unheard hh
  · exact ignored_onDev (exec_stepGo n r c) fun d hh => stepGo_unheard hh
  · exact ignored_onDev (exec_stepRefuse n) fun d hh => stepRefuse_unheard hh
  · exact ignored_onDev (exec_partnerTripNotice z n) fun d hh => partnerTrip_stands (.inr hh)
  · exact ignored_onDev (exec_closeEndNotice n) fun d hh => closeEndNotice_unheard hh
  · exact ignored_onBlk (exec_activationRequest same) fun d hh => heardThen_unheard hh
  · exact ignored_onBlk (exec_alignRequest ps) fun d hh => heardThen_unheard hh
  · exact ignored_onBlkBoth (exec_alignTransfer f bs good) fun m d hh => heardBoth_unheard hh

end Sys2Proof.Machine

namespace Sys2Proof.Machine

/-! ### SYNC, mastership, failure and healing of a chain (O25) -/

section ChainStates

variable {n : Nat} {d : Dev}

/-- The device once the travel time of a SYNC at chain `n`'s B port is shown (R133). -/
def syncShown (n travel : Nat) (d : Dev) : Dev :=
  fset (F.KZC_CH_RT_RT n) (min travel 65535) (fput (F.KZC_CH_STAT_SYNC_RET n) true
    (chainPut n { chainOf n d with retA := true, rtLast := min travel 65535 } d))

/-- A SYNC of A at the B port: the travel time is shown, and the chain goes on by its state. -/
theorem syncReceived_fromA {b : SyncBody} (travel : Nat) (hb : b.fromB = false) :
    syncReceived n .b b travel d =
      if chState3 n (syncShown n travel d) = 7 then chNext n 6 (syncShown n travel d)
      else if chState3 n (syncShown n travel d) = 6 then listenOrder n b (masterSeen n (syncShown n travel d))
      else syncShown n travel d := by
  simp only [syncReceived, hb, Bool.false_eq_true, if_false, ← syncShown.eq_1]
  split
  next h => rw [if_pos h]
  next h => rw [h]; rfl
  next h7 h6 => rw [if_neg h7, if_neg h6]

theorem takeover_listener (h : chState3 n d = 6) :
    takeover n d = chainPut n { chainOf n d with next := some 7, takeoverDue := true } d := if_pos h

theorem takeover_stands (h : chState3 n d ≠ 6) : takeover n d = d := if_neg h

/-- A mastered chain fails after FAIL frames without a burst (R116). -/
theorem chainFailed_mastered (hs : chState3 n d = 3 ∨ chState3 n d = 4 ∨ chState3 n d = 5 ∨ chState3 n d = 7)
    (hn : (chainOf n d).next ≠ some 8) (hi : fget F.KZC_HEAL_FAIL d ≤ (chainOf n d).idle) :
    chainFailed n d = record 0x030B n (cycleNow d) 0 (chNext n 8 d) := by
  rcases hs with hs | hs | hs | hs <;> simp only [chainFailed, hs, if_neg hn, if_neg (Nat.not_lt.2 hi)]

/-- A broken chain heals after HEAL intact cycles (R120). -/
theorem chainHeal_heals (hs : chState3 n d = 4 ∨ chState3 n d = 5) (hr : fget F.KZC_HEAL_HEAL d ≤ (chainOf n d).healRun)
    (hn : (chainOf n d).next = none) : chainHeal n d =
      record 0x0303 n ((cycleNow d + 2 ^ 32 - (chainOf n d).broken.getD (cycleNow d)) % 2 ^ 32) 0
        (chainPut n { chainOf n d with next := some 3, broken := none, breakTold := true, healRun := 0 } d) :=
  if_pos (by simpa [hr, hn] using hs)

theorem chainHeal_stands (h : (chState3 n d ≠ 4 ∧ chState3 n d ≠ 5) ∨ (chainOf n d).healRun < fget F.KZC_HEAL_HEAL d) :
    chainHeal n d = d := if_neg (by
  simp only [Bool.and_eq_true, Bool.or_eq_true, beq_iff_eq, decide_eq_true_eq]
  omega)

end ChainStates

/-! ### The enumeration of a chain (O25) -/

section Enumeration

variable {n : Nat} {d : Dev}

theorem enumCmd_stands (h : mayEnum n d = false) : enumCmd n d = d := if_neg (by simp [h])

/-- ENUM leaves through the first of the owned ports. -/
theorem enumSend_run {r : EnumRun} {p : Port} {more : List Port} (hr : (chainOf n d).run = some r)
    (hp : ownedPorts d = p :: more) (hs : chState3 n d ≠ 6) : enumSend n d =
      enumOut n p (chainPut n { chainOf n d with run := some { r with strayA := false, strayB := false } } d) := by
  simp only [enumSend, hr, hp, if_neg hs]

theorem enumSend_idle (hr : (chainOf n d).run = none) : enumSend n d = d := by simp only [enumSend, hr]

theorem enumTimeout_run {r : EnumRun} (hr : (chainOf n d).run = some r) :
    enumTimeout n d = if r.returned = true ∨ d.pair.role ≠ 0 then d else enumOut n .b d := by
  simp only [enumTimeout, hr, Bool.or_eq_true, bne_iff_ne]

theorem enumTimeout_idle (hr : (chainOf n d).run = none) : enumTimeout n d = d := by simp only [enumTimeout, hr]

/-- A response of a position is kept with its delay. -/
theorem enumResp_kept {r : EnumResp} {x : EnumRun} (hx : runOf n d = some x) (ha : answerTaken n r d = true) (hp : r.pos < 48) :
    enumResp n r d = delayPut n r (chainPut n { chainOf n d with
      run := some { x with answers := tabSet (fun _ => none) x.answers r.pos (some r) } } d) := by
  simp only [enumResp, hx, ha, if_neg (Nat.not_le.2 hp), Bool.not_true, Bool.false_eq_true, if_false]

theorem enumResp_stray {r : EnumResp} {x : EnumRun} (hx : runOf n d = some x) (ha : answerTaken n r d = true) (hp : 48 ≤ r.pos) :
    enumResp n r d = enumStray n r x d := by
  simp only [enumResp, hx, ha, if_pos hp, Bool.not_true, Bool.false_eq_true, if_false]

theorem enumResp_stands {r : EnumResp} (h : runOf n d = none ∨ answerTaken n r d = false) : enumResp n r d = d := by
  cases hx : runOf n d with
  | none => simp only [enumResp, hx]
  | some x =>
    have ha : answerTaken n r d = false := h.resolve_left (by simp [hx])
    simp only [enumResp, hx, ha, Bool.not_false, if_true]

/-- A COMMIT that passes a listener's B port ends its run. -/
theorem enumReceived_commit {ver k : Nat} {alerts : Bool} (hs : chState3 n (masterSeen n d) = 6) :
    enumReceived n (.commit ver k alerts) d =
      enumFinish n ver alerts ((runOf n (masterSeen n d)).getD {}) (masterSeen n d) := if_pos hs

theorem enumCommit_idle (hr : (chainOf n d).run = none) : enumCommit n d = d := by simp only [enumCommit, hr]

end Enumeration

/-! ### Fill-in ENUMs (O25) -/

section FillIn

variable {n : Nat} {d : Dev}

theorem fillCmd_mastered (h : mayEnum n d = true) :
    fillCmd n d = fillGo n (chainPut n { chainOf n d with fillDue := true, fillB := false } d) := if_pos h

theorem fillCmd_stands (h : mayEnum n d = false) : fillCmd n d = d := if_neg (by simp [h])

theorem reenumDue_due (hc : fget F.KZC_REENUM_CYCLES d ≠ 0) (hm : mayEnum n d = true)
    (hp : (positionsOf n d).any (fun p =>
      decide (fget F.KZC_REENUM_CYCLES d ≤ (posOf n p d).silent) || excluded n p d || (posOf n p d).awaits) = true) :
    reenumDue n d = chainPut n { chainOf n d with fillDue := true, fillB := false } d := by
  simp only [reenumDue, hp, hm, bne_iff_ne.2 hc, Bool.and_self, if_true]

theorem reenumDue_stands (h : fget F.KZC_REENUM_CYCLES d = 0 ∨ mayEnum n d = false) : reenumDue n d = d :=
  if_neg (by rcases h with h | h <;> simp [h])

/-- In the service window a fill-in ENUM that is due leaves through the mastered ports (R126). -/
theorem fillGo_sends (hf : (chainOf n d).fillDue = true) (hm : mayEnum n d = true) (hr : (chainOf n d).run = none)
    (hw : svcWindow n d = true) : fillGo n d =
      (let e := chainPut n { chainOf n d with run := some { full := false }, fillDue := false, fillB := false } d
       each ((masterPorts n e).filter (fun p => !(chainOf n d).fillB || p == .b)) (enumOut n) e) := by
  simp only [fillGo, fillIn, hf, hw, hm, hr, Bool.and_self, if_true, Bool.not_true, Option.isSome_none, Bool.or_self,
    Bool.false_eq_true, if_false]

theorem fillGo_stands (h : (chainOf n d).fillDue = false ∨ svcWindow n d = false) : fillGo n d = d :=
  if_neg (by rcases h with h | h <;> simp [h])

end FillIn

/-! ### The chain messages of the pair (O25) -/

section PairChains

variable {syncs enums n : Nat} {d : Dev}

theorem peerChains_not_primary (h : d.pair.role ≠ 3) : peerChains syncs enums d = d := if_pos h

theorem peerChains_primary (h : d.pair.role = 3) (hc : chainsOn d = []) : peerChains syncs enums d = d := by
  simp [peerChains, h, hc]

/-- A broken chain of two members counts the SYNCs that reached the B end (R120). -/
theorem peerChains_broken (h : d.pair.role = 3) (hc : chainsOn d = [n]) (he : maskBit enums n = false) (hs : chState3 n d = 5) :
    peerChains syncs enums d =
      chainPut n { chainOf n d with healRun := if maskBit syncs n then (chainOf n d).healRun + 1 else 0 } d := by
  simp [peerChains, h, hc, he, hs]

theorem delayTransfer_stands {dly : List (Option (BitVec 16))} (h : d.pair.role ≠ 4) : delayTransfer n dly d = d := if_pos h

end PairChains

/-- Settles O25: each clause is the rule of its event above. -/
theorem chainStatesComplete : Obligations.ChainStatesComplete := by
  refine ⟨fun n b tr => ?_, fun n b tr => ⟨?_, ?_, ?_⟩, fun n => ?_, fun n => ?_, fun n => ?_, fun n => ?_, fun n => ?_, fun n => ?_,
    fun n => ?_, fun n r p more => ?_, fun n r => ?_, fun n r => ?_, fun n r x => ?_, fun n r x => ?_, fun n r => ?_, fun n k => ?_,
    fun n ver k al => ?_, fun n x => ?_, fun n => ⟨?_, ?_, ?_⟩, fun n => ?_, fun n => ?_, fun n => ?_, fun n => ?_, fun n => ?_,
    fun n => ?_, fun sy en => ?_, fun sy en => ?_, fun sy en n => ?_, fun n dly => ?_, fun n dly => ?_⟩
  -- SYNC, mastership, failure and healing
  · exact completes_onPort (exec_syncReceived n .a b tr) (fun d h => h) fun d _ => rfl
  · refine completes_onPort (exec_syncReceived n .b b tr) (fun d h => h.1) fun d ⟨_, hb, h6, h7⟩ => ?_
    exact (syncReceived_fromA tr hb).trans ((if_neg h7).trans (if_neg h6))
  · refine completes_onPort (exec_syncReceived n .b b tr) (fun d h => h.1) fun d ⟨_, hb, h7⟩ => ?_
    exact (syncReceived_fromA tr hb).trans (if_pos h7)
  · refine completes_onPort (exec_syncReceived n .b b tr) (fun d h => h.1) fun d ⟨_, hb, h6⟩ => ?_
    have h7 : chState3 n (syncShown n tr d) ≠ 7 := ne_of_eq_of_ne h6 (by decide)
    exact (syncReceived_fromA tr hb).trans ((if_neg h7).trans (if_pos h6))
  · exact completes_onBlk (exec_mastershipTakeover n) (fun d h => h.1) fun d ⟨_, h⟩ => takeover_listener h
  · exact ignored_onBlk (exec_mastershipTakeover n) fun d h => takeover_stands h
  · exact completes_onBlk (exec_chainFailed n) (fun d h => h.1) fun d ⟨_, hs, hn, hi⟩ => chainFailed_mastered hs hn hi
  · exact completes_onBlk (exec_chainHeal n) (fun d h => h.1) fun d ⟨_, hs, hr, hn⟩ => chainHeal_heals hs hr hn
  · exact ignored_onBlk (exec_chainHeal n) fun d h => chainHeal_stands h
  -- enumeration
  · exact completes_onBlk (exec_enum n) (fun d h => h.1) fun d ⟨_, h⟩ => if_pos h
  · exact ignored_onBlk (exec_enum n) fun d h => enumCmd_stands h
  · exact completes_onBlk (exec_enumSend n) (fun d h => h.1) fun d ⟨_, hr, hp, hs⟩ => enumSend_run hr hp hs
  · refine completes_onBlk (exec_enumReturnTimeout n) (fun d h => h.1) fun d ⟨_, hr, ht, hp⟩ => ?_
    exact (enumTimeout_run hr).trans (if_neg (by simp [ht, hp]))
  · exact ignored_onBlk (exec_enumReturnTimeout n) fun d ⟨hr, h⟩ => (enumTimeout_run hr).trans (if_pos h)
  · exact completes_onPort (exec_enumResp n r) (fun d h => h.1) fun d ⟨_, hx, ha, hp⟩ => enumResp_kept hx ha hp
  · exact completes_onPort (exec_enumResp n r) (fun d h => h.1) fun d ⟨_, hx, ha, hp⟩ => enumResp_stray hx ha hp
  · exact ignored_onPort (exec_enumResp n r) fun d h => enumResp_stands h
  · exact completes_onPort (exec_enumReceived n (.enum k)) (fun d h => h) fun d _ => rfl
  · exact completes_onPort (exec_enumReceived n (.commit ver k al)) (fun d h => h.1) fun d ⟨_, hs⟩ => enumReceived_commit hs
  · refine completes_onBlk (exec_enumCommit n) (fun d h => h.1) fun d ⟨_, hr, hs⟩ => ?_
    rw [enumCommit, hr]
    exact if_neg hs
  · exact ignored_onBlk (exec_enumSend n) fun d hr => enumSend_idle hr
  · exact ignored_onBlk (exec_enumReturnTimeout n) fun d hr => enumTimeout_idle hr
  · exact ignored_onBlk (exec_enumCommit n) fun d hr => enumCommit_idle hr
  -- fill-in ENUMs
  · exact completes_onBlk (exec_fill n) (fun d h => h.1) fun d ⟨_, h⟩ => fillCmd_mastered h
  · exact ignored_onBlk (exec_fill n) fun d h => fillCmd_stands h
  · exact completes_onBlk (exec_reenumDue n) (fun d h => h.1) fun d ⟨_, hc, hm, hp⟩ => reenumDue_due hc hm hp
  · exact ignored_onBlk (exec_reenumDue n) fun d h => reenumDue_stands h
  · exact completes_onBlk (exec_fillInEnum n) (fun d h => h.1) fun d ⟨_, hf, hm, hr, hw⟩ => fillGo_sends hf hm hr hw
  · exact ignored_onBlk (exec_fillInEnum n) fun d h => fillGo_stands h
  -- the pair's messages
  · refine ignored_onBlk (exec_perFramePeerMessage sy en) fun d h => ?_
    rcases h with hh | hr
    · exact heardThen_unheard hh
    · exact heardThen_stands (peerChains_not_primary hr)
  · exact completes_onBlk (exec_perFramePeerMessage sy en) (fun d h => h.1) fun d ⟨_, hh, hr, hc⟩ =>
      (heardThen_heard hh).trans (peerChains_primary hr hc)
  · exact completes_onBlk (exec_perFramePeerMessage sy en) (fun d h => h.1) fun d ⟨_, hh, hr, hc, he, hs⟩ =>
      (heardThen_heard hh).trans (peerChains_broken hr hc he hs)
  · exact completes_onBlk (exec_delayTableTransfer n dly) (fun d h => h.1) fun d ⟨_, hh, hr⟩ =>
      (heardThen_heard hh).trans (if_neg (not_not_intro hr))
  · refine ignored_onBlk (exec_delayTableTransfer n dly) fun d h => ?_
    rcases h with hh | hr
    · exact heardThen_unheard hh
    · exact heardThen_stands (delayTransfer_stands hr)

end Sys2Proof.Machine

namespace Sys2Proof.Machine

/-! ### What an opcode comes to where its conditions are met (O34) -/

section Opcodes

variable {p : List Byte} {q : AixReq} {m : List Host.Cell} {d : Dev}

theorem opConfigLoad_accepted (h : (configLoad (field p 0 4) (field p 4 4) (p.drop 8) m d).1 = stOk) :
    opConfigLoad p m d = (let e := configLoad (field p 0 4) (field p 4 4) (p.drop 8) m d
      opOk (leBytes 4 (fget F.CFG_STAGE_LEN_RECEIVED e.2.2)) e.2.1 e.2.2) := if_pos h

theorem opConfigRead_inside (h : field p 4 4 + field p 8 2 ≤ (readImage (field p 0 1) m d).length) :
    opConfigRead p m d = opOk (((readImage (field p 0 1) m d).drop (field p 4 4)).take (field p 8 2)) m d :=
  if_neg (Nat.not_lt.2 h)

/-- Both roles end, and the reply waits for the negotiation (R27). -/
theorem opPairRole_negotiates (hp : paired d = true) (hz : zone d = 1) (hu : peerUp d = true) : opPairRole p m d =
    (none, m, roleMessage true (roleTo 2 (pairPut { d.pair with prefers := field p 0 1 == 0, fromLone := false } d))) :=
  if_neg (by simp [hp, hz, hu])

theorem opArm_permitted (h : armOk d = true) :
    opArm m d = opOk (leBytes 4 (fget F.PROT_ARM_CRC_CRC (protArm d))) m (protArm d) := if_pos h

theorem opString_close (ha : field p 1 1 = 1) (hc : closeOk (field p 0 1) d = true) : opString p m d =
    opOk (leBytes 1 (seqState (field p 0 1) (strClose (field p 0 1) d)) ++ [0]) m (strClose (field p 0 1) d) := by
  simp only [opString, ha, hc, if_true]

theorem opString_open (ha : field p 1 1 = 2) : opString p m d =
    opOk (leBytes 1 (seqState (field p 0 1) (strOpen (field p 0 1) d)) ++ [0]) m (strOpen (field p 0 1) d) := by
  simp only [opString, ha]

theorem opString_clear (ha : field p 1 1 = 3) (hc : clrOk (field p 0 1) d = true) : opString p m d =
    opOk (leBytes 1 (seqState (field p 0 1) (strClr (field p 0 1) d)) ++ [0]) m (strClr (field p 0 1) d) := by
  simp only [opString, ha, hc, if_true]

theorem opZoneClear_permitted (h : zclrOk d = true) : opZoneClear m d = opOk (leBytes 1 (zone (zclr d))) m (zclr d) := if_pos h

/-- The device once action `act` is commanded to load channel `c`. -/
def channelActed (c act duty : Nat) (d : Dev) : Dev :=
  match act with
  | 0 => chCmdOn c false d
  | 1 => chCmdOn c true d
  | 2 => chPwmDuty c (min duty 0x7FF) d
  | _ => chCmdClr c d

theorem opChannel_load (hd : q.drawer = 0) (hc : field q.payload 0 1 < 32) (hb : isBound (field q.payload 0 1) d = false)
    (hw : cut 7 d = false) : opChannel q m d =
      (let e := channelActed (field q.payload 0 1) (field q.payload 1 1) (field q.payload 2 2) d
       opOk (leBytes 1 (chState (field q.payload 0 1) e) ++ [0]) m e) := by
  simp only [opChannel, hd, hb, hw, if_pos hc, bne_self_eq_false, Bool.false_and, Bool.or_self, Bool.false_eq_true, if_false]
    <;> rfl

theorem opChannel_lowSide (hd : q.drawer = 0) (hc : 32 ≤ field q.payload 0 1) (hb : isBound (field q.payload 0 1) d = false) :
    opChannel q m d = (let c := field q.payload 0 1 - 32
      let e := lsoApply c (fbitPut F.IOX_LSO_OUT_ON c (field q.payload 1 1 == 1) d)
      opOk (leBytes 1 (b2n (fbit F.IOX_LSO_STAT_STATE c e)) ++ [0]) m e) := by
  simp only [opChannel, hd, hb, if_neg (Nat.not_lt.2 hc), bne_self_eq_false, Bool.false_and, Bool.or_self, Bool.false_eq_true,
    if_false]

end Opcodes

/-! ### A request that the idle engine takes (O34) -/

section Requests

variable {c : Instr} {r : AixPacket} {op k : Nat} {hold : Bool} {fault : Option Nat} {x : AixSession}
  {H : List Host.Cell → Dev → Prop}
  {m' : List Host.Cell → Dev → List Host.Cell} {d' : List Host.Cell → Dev → Dev}

/-- A request that is not abortable: what its opcode comes to, on the device as the engine begins it, is taken up. -/
theorem completesBoth_engineRun (hc : ∀ s, exec c s = request r op hold fault s) (ha : opAb op = false)
    (ht : ∀ m d, H m d → EngineTakes (reqOf r op hold fault) k x d)
    (h : ∀ m d, H m d → (aixOut (opRun (inSession (reqOf r op hold fault) k x) m
      (engineBegun (reqOf r op hold fault) k x d)) = (m' m d, d' m d))) :
    CompletesBoth c H (fun m d => aixPump 1 (m' m d) (d' m d)) := completesBoth_onBoth hc fun m d hd => by
  rw [arrive_run _ k x m d (ht m d hd) ha, h m d hd]

/-- One whose opcode succeeds with a payload: the answer OK is ready with it. -/
theorem completesBoth_engineAnswers {p : List Host.Cell → Dev → List Byte} (hc : ∀ s, exec c s = request r op hold fault s)
    (ha : opAb op = false) (ht : ∀ m d, H m d → EngineTakes (reqOf r op hold fault) k x d)
    (h : ∀ m d, H m d → opRun (inSession (reqOf r op hold fault) k x) m (engineBegun (reqOf r op hold fault) k x d) =
      opOk (p m d) (m' m d) (d' m d)) :
    CompletesBoth c H (fun m d => aixPump 1 (m' m d) (aixReady stOk [p m d] (d' m d))) :=
  completesBoth_engineRun hc ha ht fun m d hd => congrArg aixOut (h m d hd)

/-- An abortable request other than UPDATE_ACTIVATE comes to the point before its commit. -/
theorem completesBoth_engineCommit {e : List Host.Cell → Dev → List Host.Cell × Dev}
    (hc : ∀ s, exec c s = request r op hold fault s) (ha : opAb op = true) (hn : op ≠ 0x0503)
    (ht : ∀ m d, H m d → EngineTakes (reqOf r op hold fault) k x d)
    (h : ∀ m d, H m d → abArrive (inSession (reqOf r op hold fault) k x) m (engineBegun (reqOf r op hold fault) k x d) =
      e m d) :
    CompletesBoth c H (fun m d => aixPump 1 (e m d).1 (e m d).2) := completesBoth_onBoth hc fun m d hd => by
  rw [arrive_abortable _ k x m d (ht m d hd) ha hn, h m d hd]

end Requests

/-- CONFIG_COMMIT, not held, that is decided with OK commits and takes effect. -/
theorem abArrive_configCommit {q : AixReq} {m : List Host.Cell} {d : Dev} {frags : List (List Byte)} (ho : q.opcode = 0x0102)
    (hh : q.hold = false) (hc : d.aix.cur = some q) (hr : d.aix.ready = none) (hk : (opCommit q.payload m d).1 = some (stOk, frags)) :
    abArrive q m d =
      abEffect q (opCommit q.payload m d).2.1 (aixDone stOk frags (opCommit q.payload m d).2.2) := by
  have hrun : abRun q m d = (some (stOk, frags), (opCommit q.payload m d).2) := by
    simp only [abRun, ho]
    rw [← hk]
  exact (abArrive_commits q m _ d _ stOk frags hh hc hr hrun).trans (if_pos rfl)

/-- Settles O34: each clause is its opcode run on the device as the engine begins it. -/
theorem engineConfigurationAndOutputsComplete : Obligations.EngineConfigurationAndOutputsComplete := by
  refine ⟨fun r hold k x => ?_, fun r hold k x => ?_, fun r hold k x => ?_, fun r hold k x => ?_, fun r hold k x => ?_,
    fun r hold k x => ?_, fun r hold k x => ?_, fun r hold k x => ?_, fun r hold k x => ?_, fun r hold k x => ?_,
    fun r hold k x => ?_, fun r hold k x => ?_, fun r fault k x frags => ?_, fun r fault k x => ?_⟩
  -- configuration
  · exact completesBoth_engineAnswers (exec_configLoad r hold) (by decide) (fun m d h => h.1) fun m d ⟨_, h⟩ =>
      opConfigLoad_accepted h
  · exact completesBoth_engineAnswers (exec_configRead r hold) (by decide) (fun m d h => h.1) fun m d ⟨_, h⟩ =>
      opConfigRead_inside h
  · exact completesBoth_engineRun (exec_pairRole r hold) (by decide) (fun m d h => h.1) fun m d ⟨_, hp, hz, hu⟩ =>
      congrArg aixOut (opPairRole_negotiates hp hz hu)
  -- the zone, its strings and the outputs
  · exact completesBoth_engineAnswers (exec_arm r hold) (by decide) (fun m d h => h.1) fun m d ⟨_, h⟩ =>
      opArm_permitted h
  · exact completesBoth_engineAnswers (exec_disarm r hold) (by decide) (fun m d h => h) fun m d _ => rfl
  · exact completesBoth_engineAnswers (exec_stringCmd r hold) (by decide) (fun m d h => h.1) fun m d ⟨_, ha, hc⟩ =>
      opString_close ha hc
  · exact completesBoth_engineAnswers (exec_stringCmd r hold) (by decide) (fun m d h => h.1) fun m d ⟨_, ha⟩ =>
      opString_open ha
  · exact completesBoth_engineAnswers (exec_stringCmd r hold) (by decide) (fun m d h => h.1) fun m d ⟨_, ha, hc⟩ =>
      opString_clear ha hc
  · exact completesBoth_engineAnswers (exec_zoneClear r hold) (by decide) (fun m d h => h.1) fun m d ⟨_, h⟩ =>
      opZoneClear_permitted h
  · exact completesBoth_engineAnswers (exec_channelCmd r hold) (by decide) (fun m d h => h.1) fun m d ⟨_, hd, hc, hb, hw⟩ =>
      opChannel_load hd hc hb hw
  · exact completesBoth_engineAnswers (exec_channelCmd r hold) (by decide) (fun m d h => h.1) fun m d ⟨_, hd, hc, hb⟩ =>
      opChannel_lowSide hd hc hb
  · exact completesBoth_engineAnswers (exec_outputStatus r hold) (by decide) (fun m d h => h) fun m d _ => rfl
  -- CONFIG_COMMIT, at once and held
  · exact completesBoth_engineCommit (exec_configCommit r false fault) (by decide) (by decide) (fun m d h => h.1) fun m d ⟨_, h⟩ =>
      abArrive_configCommit rfl rfl rfl rfl h
  · exact completesBoth_engineCommit (e := fun m d =>
        (m, aixPut { (engineBegun (reqOf r 0x0102 true fault) k x d).aix with held := true } (engineBegun _ k x d)))
      (exec_configCommit r true fault) (by decide) (by decide) (fun m d h => h) fun m d _ => if_pos rfl

end Sys2Proof.Machine

namespace Sys2Proof.Machine

/-! ### The passing of time (O2, O56) -/

/-- The angle clock's state `n` ticks on: in its cycle, or nearer to the end of its hold (R40, R54). -/
def angAfter (n : Nat) (d : Dev) : Ang :=
  if flag F.ANG_STATUS_HELD d then { d.ang with hold := d.ang.hold - n * fget F.ANG_INC_INC d }
  else { d.ang with acc := min (d.ang.acc + n * fget F.ANG_INC_INC d) (accLast d) }

section Time

variable {β : Type} (p : Dev → β) (hr : ∀ (f : Fld) (v : Nat) (d : Dev), p (fset f v d) = p d)
include hr

/-- A whole second touches registers alone. -/
theorem secondTick_keeps (d : Dev) : p (secondTick d) = p d := by
  have hs : p (finc F.PWR_OPSEC_SEC d) = p d := hr _ _ _
  unfold secondTick
  extract_lets d1 d2
  have h2 : p d2 = p d1 := by
    simp only [d2]
    split
    · exact hr _ _ _
    · rfl
  split_ifs
  · exact hs
  · exact (hr _ _ _).trans (h2.trans hs)
  · exact h2.trans hs

/-- Time passing touches the clocks, the angle, the trestles and registers. -/
theorem advance_keeps (ht : ∀ (d : Dev) (t : Tab Trestle), p { d with trestles := t } = p d) (n : Nat) (d : Dev) :
    p (advance n d) = p { d with clk := d.clk + n, fcyc := d.fcyc + n * fabricRate d, ang := angAfter n d } := by
  unfold advance
  extract_lets inc ang secs
  exact (each_keeps p _ (fun _ => secondTick_keeps p hr) _ _).trans (countCycles_keeps p ht _ _)

end Time

@[simp] theorem advance_ang (n : Nat) (d : Dev) : (advance n d).ang = angAfter n d :=
  advance_keeps (·.ang) (fun _ _ _ => rfl) (fun _ _ => rfl) n d

@[simp] theorem advance_clk (n : Nat) (d : Dev) : (advance n d).clk = d.clk + n :=
  advance_keeps (·.clk) (fun _ _ _ => rfl) (fun _ _ => rfl) n d

/-- Within a second, time passing leaves the registers. -/
theorem advance_regs (n : Nat) (d : Dev) (h : (d.clk + n) / 100000000 = d.clk / 100000000) : (advance n d).regs = d.regs := by
  unfold advance
  simp only [h, Nat.sub_self, List.range_zero, each_nil]
  exact countCycles_keeps (·.regs) (fun _ _ => rfl) _ _

/-- While the clocks run, a tick is one tick of time. -/
theorem tick_runs {d : Dev} (h : clocksRun d = true) : tick d = advance 1 d := if_pos h

/-- While they stand, it is nothing. -/
theorem tick_stands {d : Dev} (h : clocksRun d = false) : tick d = d := if_neg (by simp [h])

/-- What time passing does not touch, a tick does not touch. -/
theorem tick_keeps {β : Type} (p : Dev → β) (hr : ∀ (f : Fld) (v : Nat) (d : Dev), p (fset f v d) = p d)
    (ht : ∀ (d : Dev) (t : Tab Trestle), p { d with trestles := t } = p d)
    (hc : ∀ (d : Dev) (c y : Nat) (a : Ang), p { d with clk := c, fcyc := y, ang := a } = p d) (d : Dev) : p (tick d) = p d := by
  unfold tick
  split
  · exact (advance_keeps p hr ht 1 d).trans (hc _ _ _ _)
  · rfl

/-- With no command waiting a step is a tick. -/
theorem step_idle {s : State} (h : s.pending = []) : step s = .next { s with dev := tick s.dev } := by
  unfold step
  rw [h]

/-- Settles O2: with no hold and no whole second at its end, a tick moves the clock and the accumulator alone. -/
theorem idleStepIsOneTick : Obligations.IdleStepIsOneTick := by
  refine fun s hp => ⟨step_idle hp, fun hc hh hs => ?_, tick_stands⟩
  have hsec : (s.dev.clk + 1) / 100000000 = s.dev.clk / 100000000 := by omega
  rw [tick_runs hc]
  exact ⟨advance_clk 1 s.dev, by simp [angAfter, hh], advance_regs 1 s.dev hsec⟩

/-! ### The timestamp's parts (O56) -/

theorem cycleNow_eq (d : Dev) : cycleNow d = d.ang.acc / 2 ^ 48 % 2 ^ 32 := by
  simp only [cycleNow, tsNow, Nat.shiftRight_eq_div_pow]
  omega

theorem countNow_eq (d : Dev) : countNow d = d.ang.acc / 2 ^ 32 % 2 ^ 16 := by
  simp only [countNow, tsNow, Nat.shiftRight_eq_div_pow]
  omega

/-- The timestamp reads the accumulator alone. -/
theorem tsNow_of_acc {d e : Dev} (h : d.ang.acc = e.ang.acc) : tsNow d = tsNow e := by rw [tsNow, tsNow, h]

/-- While the accumulator rises inside its cycle, the cycle number stands and the count does not fall. -/
theorem cycle_count_of_acc {d e : Dev} (hl : d.ang.acc ≤ e.ang.acc) (hu : e.ang.acc ≤ accLast d) :
    cycleNow e = cycleNow d ∧ countNow d ≤ countNow e := by
  simp only [cycleNow_eq, countNow_eq, accLast] at *
  omega

/-- Time passing raises the accumulator up to the last value of its cycle. -/
theorem angAfter_acc_bounds (n : Nat) (d : Dev) : d.ang.acc ≤ (angAfter n d).acc ∧ (angAfter n d).acc ≤ accLast d := by
  have : d.ang.acc ≤ accLast d := by unfold accLast; omega
  unfold angAfter
  split
  · exact ⟨le_refl _, this⟩
  · exact ⟨le_min (Nat.le_add_right _ _) this, min_le_right _ _⟩

theorem tick_acc_bounds (d : Dev) : d.ang.acc ≤ (tick d).ang.acc ∧ (tick d).ang.acc ≤ accLast d := by
  by_cases h : clocksRun d = true
  · rw [tick_runs h, advance_ang]
    exact angAfter_acc_bounds 1 d
  · rw [tick_stands (by simpa using h)]
    exact ⟨le_refl _, by unfold accLast; omega⟩

/-- During a hold, or with the clocks standing, a tick leaves the accumulator. -/
theorem tick_acc_stands {d : Dev} (h : flag F.ANG_STATUS_HELD d = true ∨ clocksRun d = false) : (tick d).ang.acc = d.ang.acc := by
  by_cases hc : clocksRun d = true
  · have hh : flag F.ANG_STATUS_HELD d = true := h.resolve_right (by simp [hc])
    rw [tick_runs hc, advance_ang, angAfter, if_pos hh]
  · rw [tick_stands (by simpa using hc)]

/-- Settles O56: the step is a tick, which keeps the accumulator between where it was and the end of its cycle. -/
theorem angleNeverRunsBackward : Obligations.AngleNeverRunsBackward := by
  intro s t hp hs
  rw [step_idle hp] at hs
  cases hs
  obtain ⟨hl, hu⟩ := tick_acc_bounds s.dev
  obtain ⟨hcyc, hcnt⟩ := cycle_count_of_acc hl hu
  have keeps := tick_keeps (fun d => (d.out, d.brg, d.upd, d.est)) (fun _ _ _ => rfl) (fun _ _ => rfl) (fun _ _ _ _ => rfl) s.dev
  simp only [Prod.mk.injEq] at keeps
  exact ⟨hcyc, hcnt, fun h => tsNow_of_acc (tick_acc_stands h), rfl, keeps⟩

end Sys2Proof.Machine

namespace Sys2Proof.Machine

/-! ### The angle after a reset (O46) -/

@[simp] theorem devBare_ang (d : Dev) : (devBare d).ang = {} := rfl

/-- Registers and fields copied leave what stands beside the register file. -/
theorem keepRegs_keeps {β : Type} (p : Dev → β) (h : ∀ (a : Nat) (w : Word) (d : Dev), p (regPut a w d) = p d) (l : List Nat)
    (old d : Dev) : p (keepRegs l old d) = p d := each_keeps p _ (fun _ _ => h _ _ _) l d

theorem keepFields_keeps {β : Type} (p : Dev → β) (h : ∀ (a : Nat) (w : Word) (d : Dev), p (regPut a w d) = p d) (l : List Fld)
    (old d : Dev) : p (keepFields l old d) = p d := each_keeps p _ (fun _ _ => h _ _ _) l d

/-- A device reset puts the angle back to its reset state. -/
@[simp] theorem deviceReset_ang (cause : Nat) (d : Dev) : (deviceReset cause d).ang = {} := by
  show (keepFields hutchFields d (keepRegs (otpRegs ++ hutchRegs) d (devBare d))).ang = {}
  rw [keepFields_keeps (·.ang) (fun _ _ _ => rfl), keepRegs_keeps (·.ang) (fun _ _ _ => rfl), devBare_ang]

/-- So does a power-on. -/
@[simp] theorem powerOn_ang (x : Bool) (d : Dev) : (powerOn x d).ang = {} := by
  show (keepRegs otpRegs d (devBare d)).ang = {}
  rw [keepRegs_keeps (·.ang) (fun _ _ _ => rfl), devBare_ang]

/-- In the reset state of the angle the timestamp is 0. -/
theorem tsNow_of_ang_reset {d : Dev} (h : d.ang = {}) : tsNow d = 0 := by
  rw [tsNow, h]
  rfl

theorem angStatus_deviceReset (cause : Nat) (d : Dev) : regGet (deviceReset cause d) R.ANG_STATUS = regReset R.ANG_STATUS := by
  rw [regGet_deviceReset _ _ _ (by decide), if_neg (by decide)]

/-- The code of FREE stands in ANG_STATUS at reset. -/
theorem angSrc_of_reset {d : Dev} (h : regGet d R.ANG_STATUS = regReset R.ANG_STATUS) : fget F.ANG_STATUS_SRC d = 0 := by
  rw [fget, h]
  decide

/-- The nominal frequency after a device reset is the reset value of its register. -/
theorem nomFreq_deviceReset (cause : Nat) (d : Dev) :
    fget F.ANG_NOM_FREQ_NOM (deviceReset cause d) = (regReset R.ANG_NOM_FREQ).toNat := by
  rw [fget, regGet_deviceReset _ _ _ (by decide), if_neg (by decide)]
  decide

/-- A wake from S3 or S4 puts the accumulator at the start of the cycle that R65 gives. -/
theorem wakeReset_acc (m : SleepMeas) (d : Dev) :
    (wakeReset m d).ang.acc =
      wakeCycle d.pwr.cycle (elapsedPut m d).1.1 (elapsedPut m d).1.2 (regReset R.ANG_NOM_FREQ).toNat * 2 ^ 48 := by
  rw [← nomFreq_deviceReset (d.pwr.target + 3) (elapsedPut m d).2]
  unfold wakeReset
  dsimp only
  split_ifs <;> rfl

/-- Settles O46: a reset puts the angle and ANG_STATUS to their reset values; a wake then sets the accumulator to the start of a cycle. -/
theorem timestampAfterReset : Obligations.TimestampAfterReset := by
  refine ⟨fun cause d => ⟨tsNow_of_ang_reset (deviceReset_ang cause d), angSrc_of_reset (angStatus_deviceReset cause d)⟩,
    fun x d => ⟨tsNow_of_ang_reset (powerOn_ang x d), angSrc_of_reset ?_⟩, fun w d => ⟨angSrc_of_reset ?_, ?_, ?_⟩⟩
  · rw [regGet_powerOn _ _ _ (by decide), if_neg (by decide)]
  · rw [regGet_wakeReset _ _ _ (by decide), angStatus_deviceReset]
  · rw [countNow, tsNow, wakeReset_acc]
    omega
  · rw [cycleNow, tsNow, wakeReset_acc]
    simp only [wakeCycle]
    omega

/-! ### The reads of the timestamp (O50) -/

/-- A read of ANG_NOW_LO answers the low 32 bits and latches the rest for its trestle (R42). -/
theorem regRead_nowLo (t attr : Nat) (d : Dev) : regRead t attr R.ANG_NOW_LO d = (tsNow d % 2 ^ 32, nowLoRead t d) := by
  have hrow : (regRow R.ANG_NOW_LO).isNone = false := by decide
  simp [regRead, hrow]

/-- A read of ANG_NOW_HI answers the trestle's copy, or the present bits, and changes nothing. -/
theorem regRead_nowHi (t attr : Nat) (d : Dev) : regRead t attr R.ANG_NOW_HI d = (nowHiRead t d, d) := by
  have hrow : (regRow R.ANG_NOW_HI).isNone = false := by decide
  simp [regRead, hrow]

/-- The copy latched stands as the upper bits and 1, so that 0 is none. -/
theorem nowLoRead_nowHi (t : Nat) (d : Dev) :
    (nowLoRead t d).ang.nowHi = tabSet (fun _ => 0) d.ang.nowHi t (tsNow d / 2 ^ 32 + 1) := rfl

/-- The copy that a trestle has latched is what it reads. -/
theorem nowHiRead_nowLoRead_same (t : Nat) (d : Dev) : nowHiRead t (nowLoRead t d) = tsNow d / 2 ^ 32 := by
  rw [nowHiRead, nowLoRead_nowHi, tabGet_tabSet_same]

/-- A read by one trestle leaves what another reads. -/
theorem nowHiRead_nowLoRead_ne {t u : Nat} (h : u ≠ t) (d : Dev) : nowHiRead t (nowLoRead u d) = nowHiRead t d := by
  have hts : tsNow (nowLoRead u d) = tsNow d := rfl
  rw [nowHiRead, nowLoRead_nowHi, tabGet_tabSet_ne _ _ _ h, hts, nowHiRead]

/-- Without a copy the present bits are read. -/
theorem nowHiRead_unlatched {t : Nat} {d : Dev} (h : d.ang.nowHi = []) : nowHiRead t d = tsNow d / 2 ^ 32 := by
  rw [nowHiRead, h]
  rfl

/-- Settles O50: the copy of a trestle is set by its own reads of ANG_NOW_LO alone, and no reset leaves one. -/
theorem timestampReadLatchesItsUpperBits : Obligations.TimestampReadLatchesItsUpperBits := by
  refine ⟨fun t attr d => ⟨?_, fun attr' => ?_, fun u attr' attr'' a hu ha => ?_⟩, fun t attr cause x d => ⟨?_, ?_⟩, fun t s hc => ?_⟩
  · rw [regRead_nowLo]
  · rw [regRead_nowLo, regRead_nowHi, nowHiRead_nowLoRead_same]
  · rcases ha with rfl | rfl
    · rw [regRead_nowLo, regRead_nowHi, regRead_nowHi, nowHiRead_nowLoRead_ne hu]
    · rw [regRead_nowHi u]
  · rw [regRead_nowHi, nowHiRead_unlatched (by rw [deviceReset_ang])]
  · rw [regRead_nowHi, nowHiRead_unlatched (by rw [powerOn_ang])]
  · refine ⟨{ s with dev := nowLoRead t.val s.dev }, ?_, rfl, rfl, rfl, nowHiRead_nowLoRead_same _ _,
      fun k hk => nowHiRead_nowLoRead_ne hk.symm _⟩
    rw [exec_angNowLoRead, execAngNowLoRead, onAng_runs _ _ hc]

end Sys2Proof.Machine

namespace Sys2Proof.Machine

/-! ### Commands of the angle timebase (O9) -/

section Meanings

variable {c : Instr} {H : Dev → Prop} {f g : Dev → Dev}

/-- While the clocks stand, a meaning of the angle does nothing. -/
theorem ignored_stopped (hc : ∀ s, exec c s = onAng f s) : Ignored c (clocksRun · = false) :=
  ignored_onDev hc fun _ h => if_neg (by simp [h])

/-- While they run, it acts. -/
theorem completes_onAng (hc : ∀ s, exec c s = onAng f s) (hr : ∀ d, H d → clocksRun d = true) (h : ∀ d, H d → f d = g d) :
    Completes c H g :=
  completes_onDev hc fun d hd => (if_pos (hr d hd)).trans (h d hd)

/-- What leaves the device as it is leaves it so with the clocks standing too. -/
theorem ignored_onAng (hc : ∀ s, exec c s = onAng f s) (h : ∀ d, H d → f d = d) : Ignored c H :=
  ignored_onDev hc fun d hd => by rw [h d hd, ite_self]

end Meanings

/-- The clocks of the angle stand in S2, S3 and S4 (R43). -/
theorem clocksRun_deepSleep {d : Dev} (hs : d.pwr.sealed = true) (ht : 2 ≤ d.pwr.target) : clocksRun d = false := by
  simp [clocksRun, hs, ht]

/-- Settles O9: each of the commands is a meaning of the angle. -/
theorem angleStandsInDeepSleep : Obligations.AngleStandsInDeepSleep :=
  ⟨fun _ hs ht => ⟨clocksRun_deepSleep hs ht, if_neg (by simp [clocksRun_deepSleep hs ht])⟩,
    fun m p => ignored_stopped (exec_cycleBoundary m p), fun m => ignored_stopped (exec_bandClassify m),
    ignored_stopped exec_coastMaxExpiry, ignored_stopped exec_slewComplete, ignored_stopped exec_timestampHoldEnd,
    fun port ofs p => ignored_stopped (exec_ptpSync port ofs p), ignored_stopped exec_ptpSyncMissing,
    ignored_stopped exec_peerAngleMissing, fun ts u => ignored_stopped (exec_peerAngleMessage ts u),
    ignored_stopped exec_angleMessageSend, fun n => ignored_stopped (exec_slotFire n), fun on => ignored_stopped (exec_forceHold on),
    ignored_stopped exec_holdWarn, ignored_stopped exec_angleUnqualified⟩

/-! ### Sources, holds and host time (O22) -/

/-- A boundary with no hold, or with a forward step past it, runs the cycle's work. -/
theorem cycleBoundary_runs {m : LineMeas} {t : PtpTime} {d : Dev} (h : flag F.ANG_STATUS_HELD d = false ∨ d.ang.wrapped = true) :
    cycleBoundary m t d =
      (let (trim, d1) := cycleTrim m (cycleBegin m t d)
       let (align, d2) := cycleTrack m d1
       cycleLoops m (cycleSources trim align d2)) := by
  have : (flag F.ANG_STATUS_HELD d && !d.ang.wrapped) = false := by rcases h with h | h <;> simp [h]
  exact if_neg (by simp [this])

/-- A Sync interval of the port that is not selected is only shown. -/
theorem ptpSync_other {port : Nat} {ofs : Int} {t : PtpTime} {d : Dev}
    (hp : port ≠ fget F.ANG_CTRL_PTP_PORT (fset (F.ETH_PTP_OFS_OFS port) (ofSigned 32 (clamp32 ofs)) d)) :
    ptpSync port ofs t d = fset (F.ETH_PTP_OFS_OFS port) (ofSigned 32 (clamp32 ofs)) d := if_pos hp

section PtpSync

variable {port : Nat} {ofs : Int} {t : PtpTime} {d : Dev}
  (hp : port = fget F.ANG_CTRL_PTP_PORT (fset (F.ETH_PTP_OFS_OFS port) (ofSigned 32 (clamp32 ofs)) d))
include hp

/-- An offset above 10 µs disqualifies PTP (R57). -/
theorem ptpSync_far (ho : 10000 < ofs.natAbs) : ptpSync port ofs t d =
    (let d1 := fset (F.ETH_PTP_OFS_OFS port) (ofSigned 32 (clamp32 ofs)) d
     let diff := halfTurn ((ptpCount t d1 : Int) - (countNow d1 : Nat))
     angFollow 3 diff (srcQual 3 false (angPut { d1.ang with ptpGood := 0, diffPtp := diff } d1))) := by
  have hn : ¬ ofs.natAbs ≤ 10000 := not_le.2 ho
  simp only [ptpSync, ← hp, hn, ne_eq, not_true_eq_false, if_false, if_true]

/-- One within counts, and the sixteenth in a row qualifies it. -/
theorem ptpSync_near (ho : ofs.natAbs ≤ 10000) : ptpSync port ofs t d =
    (let d1 := fset (F.ETH_PTP_OFS_OFS port) (ofSigned 32 (clamp32 ofs)) d
     let good := min 16 (d1.ang.ptpGood + 1)
     let diff := halfTurn ((ptpCount t d1 : Int) - (countNow d1 : Nat))
     let d2 := angPut { d1.ang with ptpGood := good, diffPtp := diff } d1
     angFollow 3 diff (if 16 ≤ good ∧ flag (F.ETH_STATUS_PTP_SYNC port) d2 = true then srcQual 3 true d2 else d2)) := by
  have hg : ∀ n : Nat, min 16 (n + 1) ≠ 0 := by omega
  simp only [ptpSync, ← hp, ho, hg, ne_eq, not_true_eq_false, if_false, if_true]

end PtpSync

theorem holdWarn_stands {d : Dev} (h : angSrc d ≠ 4 ∨ fget F.ANG_HOLD_CYC_CYC d < fget F.ANG_HOLD_WARN d) : holdWarn d = d :=
  if_neg (by omega)

theorem unqualified_stands {d : Dev} (h : angSrc d ≠ 4 ∨ fget F.ANG_HOLD_CYC_CYC d < fget F.ANG_HOLD_MAX d ∨
    flag F.ANG_STATUS_QUALIFIED d = false) : unqualified d = d := by
  refine if_neg fun ⟨hs, hm, hq⟩ => ?_
  rw [hq] at h
  simp only [Bool.true_eq_false, or_false] at h
  omega

theorem ptpCommit_stands {d : Dev} (h : 1000000000 ≤ fget F.ANG_PTP_EPOCH_NS_NS d ∨ fget F.ANG_PTP_FREQ_FREQ d < 45000000 ∨
    66000000 < fget F.ANG_PTP_FREQ_FREQ d) : ptpCommit d = d := if_neg (by omega)

/-- Settles O22: each clause is the branch of its meaning that the hypothesis selects. -/
theorem angleSourcesComplete : Obligations.AngleSourcesComplete := by
  refine ⟨fun m t => ?_, fun m t => ?_, fun a => ?_, ?_, ?_, ?_, ?_, ?_, fun port ofs t => ?_, fun port ofs t => ?_,
    fun port ofs t => ?_, ?_, ?_, fun on => ?_, ?_, ?_, ?_, ?_, ?_, ?_⟩
  -- the cycle boundary and the bands
  · exact completes_onAng (exec_cycleBoundary m t) (fun d h => h.1) fun d h => cycleBoundary_runs h.2
  · exact ignored_onAng (exec_cycleBoundary m t) fun d ⟨hh, hw⟩ => if_pos (by simp [hh, hw])
  · exact completes_onAng (exec_bandClassify a) (fun d h => h) fun d _ => rfl
  · exact completes_onAng exec_coastMaxExpiry (fun d h => h.1) fun d h => if_neg (not_not_intro h.2)
  · exact ignored_onAng exec_coastMaxExpiry fun d h => if_pos h
  -- slews and holds
  · exact completes_onAng exec_slewComplete (fun d h => h) fun d _ => rfl
  · exact completes_onAng exec_timestampHoldEnd (fun d h => h.1) fun d h => if_neg (by simp [h.2])
  · exact ignored_onAng exec_timestampHoldEnd fun d h => if_pos (by simp [h])
  -- host time and the partner's angle
  · exact completes_onAng (exec_ptpSync port ofs t) (fun d h => h.1) fun d h => ptpSync_other h.2
  · exact completes_onAng (exec_ptpSync port ofs t) (fun d h => h.1) fun d ⟨_, ho, hp⟩ => ptpSync_far hp ho
  · exact completes_onAng (exec_ptpSync port ofs t) (fun d h => h.1) fun d ⟨_, ho, hp⟩ => ptpSync_near hp ho
  · exact completes_onAng exec_ptpSyncMissing (fun d h => h) fun d _ => rfl
  · exact completes_onAng exec_peerAngleMissing (fun d h => h) fun d _ => rfl
  -- holdover
  · exact completes_onAng (exec_forceHold on) (fun d h => h) fun d _ => rfl
  · exact completes_onAng exec_holdWarn (fun d h => h.1) fun d h => if_pos h.2
  · exact ignored_onAng exec_holdWarn fun d h => holdWarn_stands h
  · exact completes_onAng exec_angleUnqualified (fun d h => h.1) fun d h => if_pos h.2
  · exact ignored_onAng exec_angleUnqualified fun d h => unqualified_stands h
  -- the host-time parameters
  · exact completes_onAng exec_angPtpCommit (fun d h => h.1) fun d h => if_pos h.2
  · exact ignored_onAng exec_angPtpCommit fun d h => ptpCommit_stands h

/-! ### The partner's angle and the slots (O23) -/

/-- With a partner on the link, its message moves the difference, the good messages and the qualification of PEER (R57, R59). -/
theorem angleMessage_linked {ts : Nat} {usable : Bool} {d : Dev} (hm : d.pair.mode ≠ 0) (hu : peerUp d = true) :
    angleMessage ts usable d =
      (let half := fget F.PEER_RTT_RTT d * fget F.ANG_INC_INC d / (20 * 2 ^ 32)
       let e := toSigned 48 ((ts + half + 2 ^ 48 - tsNow d) % 2 ^ 48)
       let diff := halfTurn e
       let good := match d.ang.peerLast with
         | some l => if (halfTurn (diff - l)).natAbs ≤ 91 then d.ang.peerGood + 1 else 1
         | none => 1
       let d1 := relabelWatch e (angPut { d.ang with
         peerGood := if usable then min good 16 else 0, peerLast := some diff, diffPeer := diff } d)
       angFollow 2 diff (if !usable then srcQual 2 false d1 else if 16 ≤ d1.ang.peerGood then srcQual 2 true d1 else d1)) :=
  if_neg (by simp [hm, hu])

theorem slotReach_reaches {n : Nat} {d : Dev} (ha : slotArmed n d = true) (hy : slotCycle n (cycleNow d) d = true)
    (hc : countNow d ≤ fget (F.SLOT_CNT_CNT n) d) (hh : flag F.ANG_STATUS_HELD d = false) :
    slotReach n d = slotsAt (fget (F.SLOT_CNT_CNT n) d) (advanceTo (fget (F.SLOT_CNT_CNT n) d) d) :=
  if_pos (by simp [ha, hy, hc, hh])

theorem slotReach_stands {n : Nat} {d : Dev} (h : slotArmed n d = false ∨ slotCycle n (cycleNow d) d = false ∨
    fget (F.SLOT_CNT_CNT n) d < countNow d ∨ flag F.ANG_STATUS_HELD d = true) : slotReach n d = d := by
  refine if_neg fun hr => ?_
  simp only [Bool.and_eq_true, decide_eq_true_eq, Bool.not_eq_true'] at hr
  obtain ⟨⟨⟨ha, hy⟩, hc⟩, hh⟩ := hr
  rw [ha, hy, hh] at h
  simp only [Bool.true_eq_false, Bool.false_eq_true, false_or, or_false] at h
  omega

/-- Settles O23: each clause is the branch of its meaning that the hypothesis selects. -/
theorem angleMessagesAndSlotsComplete : Obligations.AngleMessagesAndSlotsComplete := by
  refine ⟨fun ts usable => ?_, fun ts usable => ?_, ?_, ?_, fun t => ?_, fun n v => ?_, fun n v => ?_, fun n v => ?_, fun n v => ?_,
    fun n => ?_, fun n => ?_⟩
  -- messages of the pair
  · exact completes_onAng (exec_peerAngleMessage ts usable) (fun d h => h.1) fun d ⟨_, hm, hu⟩ => angleMessage_linked hm hu
  · exact ignored_onAng (exec_peerAngleMessage ts usable) fun d h => if_pos h
  · exact completes_onAng exec_angleMessageSend (fun d h => h.1) fun d h => if_neg h.2
  · exact ignored_onAng exec_angleMessageSend fun d h => if_pos h
  -- the timestamp and the slot registers
  · exact completes_onAng (exec_angNowLoRead t) (fun d h => h) fun d _ => rfl
  · exact completes_onAng (exec_slotCtrlWrite n 0 v) (fun d h => h) fun d _ => rfl
  · exact completes_onAng (exec_slotCtrlWrite n 1 v) (fun d h => h) fun d _ => rfl
  · exact completes_onAng (exec_slotCtrlWrite n 2 v) (fun d h => h) fun d _ => rfl
  · exact completes_onAng (exec_slotCtrlWrite n 3 v) (fun d h => h) fun d _ => rfl
  -- the firing of slots
  · exact completes_onAng (exec_slotFire n) (fun d h => h.1) fun d ⟨_, ha, hy, hc, hh⟩ => slotReach_reaches ha hy hc hh
  · exact ignored_onAng (exec_slotFire n) fun d h => slotReach_stands h

end Sys2Proof.Machine

namespace Sys2Proof.Machine

/-! ### The close of a frame and the start of its work (O27) -/

theorem frameClose_barred {m : List Host.Cell} {d : Dev} (h : cut 3 d = true ∨ clocksRun d = false) : frameClose m d = (m, d) :=
  if_pos (by rcases h with h | h <;> simp [h])

section FrameClose

variable {d : Dev} (m : List Host.Cell) (hc : cut 3 d = false) (hr : clocksRun d = true)
include hc hr

/-- Time passes until the count reaches ACQ_END, and what it finds there is judged. -/
theorem frameClose_reaches : frameClose m d =
    (let d1 := advanceTo d.ang.win.acqEnd d
     let f := (cycleNow d1 + 2 ^ 32 - 1) % 2 ^ 32
     if countNow d1 < d1.ang.win.acqEnd ∨ d1.acq.closed = some f then (m, d1)
     else (m, satFrame m (excClose f (acqClose f d1)))) := if_neg (by simp [hc, hr])

/-- The count at ACQ_END, or brought there, closes the frame of the cycle before. -/
theorem frameClose_closes
    (hn : (advanceTo d.ang.win.acqEnd d).ang.win.acqEnd ≤ countNow (advanceTo d.ang.win.acqEnd d))
    (ho : (advanceTo d.ang.win.acqEnd d).acq.closed ≠ some ((cycleNow (advanceTo d.ang.win.acqEnd d) + 2 ^ 32 - 1) % 2 ^ 32)) :
    frameClose m d =
      (let d1 := advanceTo d.ang.win.acqEnd d
       let f := (cycleNow d1 + 2 ^ 32 - 1) % 2 ^ 32
       (m, satFrame m (excClose f (acqClose f d1)))) :=
  (frameClose_reaches m hc hr).trans (if_neg (not_or.2 ⟨not_lt.2 hn, ho⟩))

/-- A frame closed before is not closed again. -/
theorem frameClose_again
    (ho : (advanceTo d.ang.win.acqEnd d).acq.closed = some ((cycleNow (advanceTo d.ang.win.acqEnd d) + 2 ^ 32 - 1) % 2 ^ 32)) :
    frameClose m d = (m, advanceTo d.ang.win.acqEnd d) := (frameClose_reaches m hc hr).trans (if_pos (.inr ho))

end FrameClose

section WorkStart

variable {d : Dev} (m : List Host.Cell)

theorem workStart_busy (h : d.est.work ≠ none) : workStart m d = (m, d) :=
  if_pos (Option.isSome_iff_ne_none.2 h)

variable (hw : d.est.work = none) (hx : d.est.xfer = none)
include hw hx

/-- With no work under way and no transfer waiting, the delay is shown, and the frame is skipped or begun. -/
theorem workStart_judges : workStart m d =
    (let f := nextFrame d
     let d1 := delayShown d
     if estBarred d1 then estSkip f m (shortStep d1)
     else if flag F.ANG_SCHED_DECIM d1 && flag F.ANG_SCHED_SKIP_NEXT d1 then
       estSkip f m (shortStep (fput F.ANG_SCHED_SKIP_NEXT false d1))
     else if 65536 ≤ workCarried d then
       let d2 := if flag F.ANG_SCHED_DECIM d1 then d1
         else record 0x0211 (if d1.ang.lateRun = 0 then f else d1.ang.lateFirst) f 1
           { fput F.ANG_SCHED_DECIM true d1 with ang := { d1.ang with decimGood := 0 } }
       estSkip f m (shortStep (fput F.ANG_SCHED_SKIP_NEXT false d2))
     else (m, workBegin f d1)) := by
  have hn : ¬ d.est.work.isSome = true := by simp [hw]
  unfold workStart
  rw [if_neg hn]
  simp only [hx]
  rfl

/-- A bench that can process no frame skips it (R73). -/
theorem workStart_barred (hb : estBarred (delayShown d) = true) :
    workStart m d = estSkip (nextFrame d) m (shortStep (delayShown d)) := (workStart_judges m hw hx).trans (if_pos hb)

/-- With less than a cycle carried, and no frame to be left out, the work starts (R71). -/
theorem workStart_begins (hb : estBarred (delayShown d) = false)
    (hs : flag F.ANG_SCHED_DECIM (delayShown d) = false ∨ flag F.ANG_SCHED_SKIP_NEXT (delayShown d) = false)
    (hc : workCarried d < 65536) : workStart m d = (m, workBegin (nextFrame d) (delayShown d)) := by
  have hs' : ¬ (flag F.ANG_SCHED_DECIM (delayShown d) && flag F.ANG_SCHED_SKIP_NEXT (delayShown d)) = true := by
    rcases hs with hs | hs <;> simp [hs]
  exact (workStart_judges m hw hx).trans ((if_neg (ne_true_of_eq_false hb)).trans ((if_neg hs').trans (if_neg (not_le.2 hc))))

end WorkStart

/-! ### Cells on lanes (O27) -/

theorem cellUpdate_idle {l : Nat} {r : LaneResult} {d : Dev} (m : List Host.Cell) (h : d.est.work = none ∨ d.est.queue = []) :
    cellUpdate l r m d = (m, d) := by
  rcases h with h | h
  · rw [cellUpdate, h]
  · simp [cellUpdate, h]

/-- A lane whose turn it is not takes no work. -/
theorem cellUpdate_other {l : Nat} {r : LaneResult} {d : Dev} (m : List Host.Cell) (h : laneNext d ≠ some l) :
    cellUpdate l r m d = (m, d) := by
  unfold cellUpdate
  split
  · rw [if_pos h]
  · rfl

section CellUpdate

variable {l f : Nat} {e : EstEntry} {rest : List EstEntry} {d : Dev} (m : List Host.Cell) (hw : d.est.work = some f)
  (hq : d.est.queue = e :: rest) (hl : laneNext d = some l)
include hw hq hl

/-- Past the last cell of its position the queue goes on. -/
theorem cellUpdate_past (r : LaneResult) (hc : fget (F.ACQ_POS_NCELL e.chain e.pos) d ≤ d.est.cell) :
    cellUpdate l r m d = (m, cellNext d) := by
  simp [cellUpdate, hw, hq, hl, hc]

variable (hc : d.est.cell < fget (F.ACQ_POS_NCELL e.chain e.pos) d)
include hc

/-- A residue error with tries left: the next lane takes the cell (R176). -/
theorem cellUpdate_residue_again
    (ht : (useCycles l none d).est.tries < fget F.EST_CFG_RETRY (useCycles l none d)) :
    cellUpdate l .residue m d =
      (let d1 := useCycles l none d
       (m, record 0x0401 (cellIndex e.chain e.pos d.est.cell) l f (laneError l f { d1 with est := { d1.est with
         tries := d1.est.tries + 1, failLane := some l } }))) := by
  have ht' : ¬ fget F.EST_CFG_RETRY (useCycles l none d) < (useCycles l none d).est.tries + 1 := by omega
  simp [cellUpdate, hw, hq, hl, not_le.2 hc, ht']

/-- Without: the cell is not updated. -/
theorem cellUpdate_residue_fails
    (ht : fget F.EST_CFG_RETRY (useCycles l none d) ≤ (useCycles l none d).est.tries) :
    cellUpdate l .residue m d =
      (let d1 := useCycles l none d
       cellIdle (cellIndex e.chain e.pos d.est.cell) f m (record 0x0402 (cellIndex e.chain e.pos d.est.cell) (d1.est.tries + 1) f
         (fsat F.EST_ERR_A_RECOMP_FAIL 1 (laneError l f d1)))) := by
  have ht' : fget F.EST_CFG_RETRY (useCycles l none d) < (useCycles l none d).est.tries + 1 := by omega
  simp [cellUpdate, hw, hq, hl, not_le.2 hc, ht']

/-- A parity error of the microcode: the frame is skipped until it is reloaded (R177). -/
theorem cellUpdate_ucodePar (a : Nat) : cellUpdate l (.ucodePar a) m d =
    (let d1 := record 0x0409 a 0 f (fsat F.EST_ERR_B_UCODE_PAR 1 d)
     estSkip f m (estRunning (fput F.EST_STATUS_UCODE_RELOAD true { d1 with est := { d1.est with ucodeFrames := 0 } }))) := by
  simp [cellUpdate, hw, hq, hl, not_le.2 hc]

/-- One of the entry in the FIFO drops the entry. -/
theorem cellUpdate_fifoPar : cellUpdate l .fifoPar m d =
    (m, let d1 := record 0x0408 e.chain e.pos f (fsat F.EST_ERR_B_FIFO_PAR 1 d)
        estDrop rest (undone (fun n p => n == e.chain && p == e.pos) d1)) := by
  simp [cellUpdate, hw, hq, hl, not_le.2 hc]

/-- One of a chemistry set holds the cells that use it. -/
theorem cellUpdate_paramPar (o : Nat) : cellUpdate l (.paramPar o) m d =
    cellIdle (cellIndex e.chain e.pos d.est.cell) f m (useCycles l none (setParity (entrySet e d) o f d)) := by
  simp [cellUpdate, hw, hq, hl, not_le.2 hc]

/-- A cell with a record and a sound chemistry set is run and written back. -/
theorem cellUpdate_commits (ha : cellAbsent (cellRec e.burst (cellIndex e.chain e.pos d.est.cell % 32)) = false)
    (hb : fbit F.EST_CHEM_BAD (entrySet e d) d = false) :
    cellUpdate l .ok m d = cellCommit l e (cellIndex e.chain e.pos d.est.cell) false m d := by
  simp [cellUpdate, hw, hq, hl, not_le.2 hc, ha, hb]

/-- One without is not updated. -/
theorem cellUpdate_absent (h : cellAbsent (cellRec e.burst (cellIndex e.chain e.pos d.est.cell % 32)) = true ∨
    fbit F.EST_CHEM_BAD (entrySet e d) d = true) :
    cellUpdate l .ok m d = cellIdle (cellIndex e.chain e.pos d.est.cell) f m (useCycles l none d) := by
  simp [cellUpdate, hw, hq, hl, not_le.2 hc, h]

/-- A parity error in the cell's block is recorded, and the cell reinitialised by its run. -/
theorem cellUpdate_statePar (k : Nat) (ha : cellAbsent (cellRec e.burst (cellIndex e.chain e.pos d.est.cell % 32)) = false)
    (hb : fbit F.EST_CHEM_BAD (entrySet e d) (blockParity (cellIndex e.chain e.pos d.est.cell) k f d) = false) :
    cellUpdate l (.statePar k) m d = cellCommit l e (cellIndex e.chain e.pos d.est.cell) true m
      (blockParity (cellIndex e.chain e.pos d.est.cell) k f d) := by
  simp [cellUpdate, hw, hq, hl, not_le.2 hc, ha, hb]

end CellUpdate

/-! ### The end of the work, the publication and the controls (O27) -/

theorem workEnd_done {f : Nat} {d : Dev} (m : List Host.Cell) (hw : d.est.work = some f) (hd : workDone f d = true) :
    workEnd m d =
      (let d1 := lanesWait d
       (idleSweep f (fun i => maskBit d1.est.done i) d1 m, workClose f d1)) := by
  simp [workEnd, hw, hd]

theorem workEnd_stands {f : Nat} {d : Dev} (m : List Host.Cell)
    (h : d.est.work = none ∨ (d.est.work = some f ∧ workDone f d = false)) : workEnd m d = (m, d) := by
  rcases h with hw | ⟨hw, hd⟩
  · simp [workEnd, hw]
  · simp [workEnd, hw, hd]

theorem publishCommit_due {f : Nat} {d : Dev} (m : List Host.Cell) (h : d.est.pub = some f) :
    publishCommit m d = ownDone (pubOwn f m d) (memPlace (bankAt (pubBank d) d) (pubImage f m d) m)
      (badCovered (bankAt (pubBank d) d) (pubImage f m d).length (alignSend f m (digestOut f (pubDigests f m) (pubShow f m d)))) := by
  rw [publishCommit, h]

theorem publishCommit_none {d : Dev} (m : List Host.Cell) (h : d.est.pub = none) : publishCommit m d = (m, d) := by
  rw [publishCommit, h]

/-- A request for a cell that does not exist is void (R189). -/
theorem cellInit_void {c : Nat} {atFrame : Bool} (d : Dev) (h : 24576 ≤ c) : cellInit c false atFrame d = d :=
  if_pos (by simp [h])

/-- Between frames a request takes the place of the one before. -/
theorem cellInit_idle {c : Nat} {all atFrame : Bool} {d : Dev} (hc : all = true ∨ c < 24576) (hw : d.est.work = none) :
    cellInit c all atFrame d =
      (let due := if atFrame then some (fget F.EST_INIT_FRAME_FRAME d) else none
       { d with est := { d.est with req := some { all, cell := c, due } } }) := by
  have hv : (!all && decide (24576 ≤ c)) = false := by
    rcases hc with hc | hc
    · simp [hc]
    · simp [not_le.2 hc]
  simp [cellInit, hv, hw]

theorem laneRestored_passes {l : Nat} {d : Dev} (h : maskBit d.est.testing l = true) : laneRestored l true d =
    (let d1 := fbitPut F.EST_LANE_ST_FAIL l false { d with est := { d.est with testing := maskPut d.est.testing l false } }
     record 0x0404 l 0 (frameNow d1) (fput F.EST_STATUS_DOWN false (fbitPut F.EST_LANE_FENCED l false d1))) :=
  if_neg (by simp [h])

theorem laneRestored_fails {l : Nat} {d : Dev} (h : maskBit d.est.testing l = true) : laneRestored l false d =
    fbitPut F.EST_LANE_ST_FAIL l true { d with est := { d.est with testing := maskPut d.est.testing l false } } :=
  if_neg (by simp [h])

theorem laneRestored_untested {l : Nat} {ok : Bool} {d : Dev} (h : maskBit d.est.testing l = false) : laneRestored l ok d = d :=
  if_pos (by simp [h])

theorem ucodeReloaded_due {v : Nat} {d : Dev} (h : flag F.EST_STATUS_UCODE_RELOAD d = true) : ucodeReloaded v d =
    (let d1 := fset F.EST_UCODE_VERSION v (estRunning (fput F.EST_STATUS_UCODE_RELOAD false d))
     record 0x040A d1.est.ucodeFrames v (frameNow d1) { d1 with est := { d1.est with ucodeFrames := 0 } }) :=
  if_neg (by simp [h])

theorem ucodeReloaded_stands {v : Nat} {d : Dev} (h : flag F.EST_STATUS_UCODE_RELOAD d = false) : ucodeReloaded v d = d :=
  if_pos (by simp [h])

/-- The chemistry set of the slot applied is loaded again (R177). -/
theorem paramReloaded_due {k : Nat} {e : Nat × List Byte × Nat} {m : List Host.Cell} {d : Dev}
    (hb : fbit F.EST_CHEM_BAD k d = true)
    (he : (chemSets (slotImage m (fget F.CFG_STATUS_SLOT d))).find? (fun x => x.1 == k) = some e) :
    paramReloaded k m d =
      (let d1 := record 0x0407 k (tabGet (fun _ => 0) d.est.badFrames k) (frameNow d) (fbitPut F.EST_CHEM_BAD k false d)
       (memPlace (chemAt k) e.2.1 (memErase (chemAt k) 0x20000 m),
         { d1 with est := { d1.est with badFrames := tabSet (fun _ => 0) d1.est.badFrames k 0 } })) := by
  simp [paramReloaded, hb, he]

theorem paramReloaded_stands {k : Nat} {d : Dev} (m : List Host.Cell) (h : fbit F.EST_CHEM_BAD k d = false) :
    paramReloaded k m d = (m, d) := if_pos (by simp [h])

/-- Settles O27: each clause is the rule of its command above. -/
theorem benchCommandsComplete : Obligations.BenchCommandsComplete := by
  refine ⟨?_, ?_, ?_, ?_, ?_, ?_, fun l f e rest => ?_, fun l r f e rest => ?_, fun l r => ?_, fun l r => ?_, ?_, fun f => ?_,
    fun f => ?_, fun f => ?_, ?_, fun c all => ?_, fun c all atFrame => ?_, ?_, ?_, ?_, fun mask => ?_, fun l => ?_, fun l => ?_,
    fun l ok => ?_, fun v => ?_, fun v => ?_, fun k e => ?_, fun k => ?_⟩
  -- the close of a frame and the start of its work
  · exact completesBoth_onBoth exec_frameClose fun m d ⟨hc, hr, hn, ho⟩ => frameClose_closes m hc hr hn ho
  · exact completesBoth_onBoth exec_frameClose fun m d ⟨hc, hr, ho⟩ => frameClose_again m hc hr ho
  · exact ignored_onBoth exec_frameClose fun m d h => frameClose_barred h
  · exact completesBoth_onBoth exec_estimateWorkStart fun m d ⟨hw, hx, hb⟩ => workStart_barred m hw hx hb
  · exact completes_onBoth exec_estimateWorkStart fun m d ⟨hw, hx, hb, hs, hc⟩ => workStart_begins m hw hx hb hs hc
  · exact ignored_onBoth exec_estimateWorkStart fun m d h => workStart_busy m h
  -- the next cell by the lane whose turn it is
  · refine ⟨?_, ?_, ?_, ?_, ?_, fun a => ?_, fun o => ?_, fun k => ?_⟩
    · exact completesBoth_onBlkBoth (exec_cellUpdate l _) (fun m d h => h.1.1) fun m d ⟨⟨_, hw, hq, hl, hc⟩, ha, hb⟩ =>
        cellUpdate_commits m hw hq hl hc ha hb
    · exact completesBoth_onBlkBoth (exec_cellUpdate l _) (fun m d h => h.1.1) fun m d ⟨⟨_, hw, hq, hl, hc⟩, ha⟩ =>
        cellUpdate_absent m hw hq hl hc ha
    · exact completesBoth_onBlkBoth (exec_cellUpdate l _) (fun m d h => h.1.1) fun m d ⟨⟨_, hw, hq, hl, hc⟩, ht⟩ =>
        cellUpdate_residue_again m hw hq hl hc ht
    · exact completes_onBlkBoth (exec_cellUpdate l _) (fun d h => h.1) fun m d ⟨_, hw, hq, hl, hc⟩ =>
        cellUpdate_fifoPar m hw hq hl hc
    · exact completesBoth_onBlkBoth (exec_cellUpdate l _) (fun m d h => h.1.1) fun m d ⟨⟨_, hw, hq, hl, hc⟩, ht⟩ =>
        cellUpdate_residue_fails m hw hq hl hc ht
    · exact completesBoth_onBlkBoth (exec_cellUpdate l _) (fun m d h => h.1) fun m d ⟨_, hw, hq, hl, hc⟩ =>
        cellUpdate_ucodePar m hw hq hl hc a
    · exact completesBoth_onBlkBoth (exec_cellUpdate l _) (fun m d h => h.1) fun m d ⟨_, hw, hq, hl, hc⟩ =>
        cellUpdate_paramPar m hw hq hl hc o
    · exact completesBoth_onBlkBoth (exec_cellUpdate l _) (fun m d h => h.1.1) fun m d ⟨⟨_, hw, hq, hl, hc⟩, ha, hb⟩ =>
        cellUpdate_statePar m hw hq hl hc k ha hb
  · exact completes_onBlkBoth (exec_cellUpdate l r) (fun d h => h.1) fun m d ⟨_, hw, hq, hl, hc⟩ =>
      cellUpdate_past m hw hq hl r hc
  · exact ignored_onBlkBoth (exec_cellUpdate l r) fun m d h => cellUpdate_other m h
  · exact ignored_onBlkBoth (exec_cellUpdate l r) fun m d h => cellUpdate_idle m h
  -- the end of the work and the publication
  · exact completes_onBlk exec_estimateCutoff (fun d h => h) fun d _ => rfl
  · exact completesBoth_onBlkBoth exec_estimateWorkEnd (fun m d h => h.1) fun m d ⟨_, hw, hd⟩ => workEnd_done m hw hd
  · exact ignored_onBlkBoth exec_estimateWorkEnd fun m d h => workEnd_stands m h
  · exact completesBoth_onBlkBoth exec_publishCommit (fun m d h => h.1) fun m d h => publishCommit_due m h.2
  · exact ignored_onBlkBoth exec_publishCommit fun m d h => publishCommit_none m h
  -- requests, EN, the counters, the lanes and the reloads
  · exact ignored_onBlk (exec_estCellInit c false all) fun d h => cellInit_void d h
  · exact completes_onBlk (exec_estCellInit c all atFrame) (fun d h => h.1) fun d ⟨_, hc, hw⟩ => cellInit_idle hc hw
  · exact completes_onBlk (exec_estCtrlEn true) (fun d h => h) fun d _ => rfl
  · exact completes_onBlk (exec_estCtrlEn false) (fun d h => h) fun d _ => rfl
  · exact completes_onBlk exec_estClrCnt (fun d h => h) fun d _ => rfl
  · exact completes_onBlk (exec_laneRestore mask) (fun d h => h) fun d _ => rfl
  · exact completes_onBlk (exec_laneRestored l true) (fun d h => h.1) fun d h => laneRestored_passes h.2
  · exact completes_onBlk (exec_laneRestored l false) (fun d h => h.1) fun d h => laneRestored_fails h.2
  · exact ignored_onBlk (exec_laneRestored l ok) fun d h => laneRestored_untested h
  · exact completes_onBlk (exec_ucodeReloaded v) (fun d h => h.1) fun d h => ucodeReloaded_due h.2
  · exact ignored_onBlk (exec_ucodeReloaded v) fun d h => ucodeReloaded_stands h
  · exact completesBoth_onBlkBoth (exec_paramReloaded k) (fun m d h => h.1) fun m d ⟨_, hb, he⟩ => paramReloaded_due hb he
  · exact ignored_onBlkBoth (exec_paramReloaded k) fun m d h => paramReloaded_stands m h

end Sys2Proof.Machine

namespace Sys2Proof.Machine

/-! ### Bursts of a chain (O24) -/

/-- What a receiver discards is no part of a position. -/
@[simp] theorem posOf_discardPut (n k p : Nat) (port : Port) (b : Bool) (d : Dev) :
    posOf k p (discardPut n port b d) = posOf k p d := by
  cases port <;> rfl

section Bursts

variable {n : Nat} {port : Port} {raw bs : List Byte} {parity : Bool} {d : Dev}

theorem dataBurst_bad (h : burstBody raw = none) : dataBurst n port raw parity d = crcFail n port (discardPut n port false d) := by
  simp only [dataBurst, h]

theorem dataBurst_good (h : burstBody raw = some bs) :
    dataBurst n port raw parity d = burstCommit n port bs parity (discardPut n port false d) := by
  simp only [dataBurst, h]

/-- A chain that is off or waits for link takes no burst (R115). -/
theorem burstCommit_noLink (h : chState3 n d ≤ 1) : burstCommit n port bs parity d = d := if_pos h

variable (hs : 2 ≤ chState3 n d) (hv : field bs 1 1 % 16 = fget (F.KZC_CH_STAT_VER n) d) (hp : field bs 2 1 < 48)
  (he : excluded n (field bs 2 1) d = false) (ha : (posOf n (field bs 2 1) d).awaits = false)
  (hj : (posOf n (field bs 2 1) d).rejoins = false)
include hs hv hp he ha hj

/-- One read from the receiver buffer with a parity error is counted, recorded and lost (R405). -/
theorem burstCommit_parity : burstCommit n port bs true d =
    record 0x0A10 n (field bs 2 1) (cycleNow d) (fsat F.BRG_CNT_PAR_RXBUF 1 d) := by
  have hs' : ¬ chState3 n d ≤ 1 := by omega
  simp only [burstCommit, if_neg hs', if_neg (not_not_intro hv), if_neg (not_le.2 hp), he, ha, hj, Bool.or_self,
    Bool.false_eq_true, if_false, if_true]

/-- The first of its position, of the frame that is collected, is accepted (R107). -/
theorem burstCommit_accepts (hr : (burstStatus bs).testBit 6 = false) (hf : d.kzc.collect = some (burstFrame bs))
    (hc : (posOf n (field bs 2 1) d).crc = none) : burstCommit n port bs false d =
      (let d1 := gotPut n port (field bs 2 1) d
       burstAccept n port (field bs 2 1) bs
         (if (chainOf n d1).retxOut = some (field bs 2 1) then chainPut n { chainOf n d1 with retxOut := none } d1 else d1)) := by
  have hs' : ¬ chState3 n d ≤ 1 := by omega
  simp only [burstCommit, if_neg hs', if_neg (not_not_intro hv), if_neg (not_le.2 hp), if_neg (not_not_intro hf), he, ha, hj, hr, hc,
    Bool.or_self, Bool.false_eq_true, if_false]

end Bursts

/-! ### Retransmissions and alerts (O24) -/

theorem retxSend_due {n p f : Nat} {d : Dev} (h : retxNext n d = some (p, f)) : retxSend n d =
    (let x := chainOf n d
     let d1 := chainPut n { x with retxSent := x.retxSent + 1, retxOut := some p, retxTried := maskPut x.retxTried p true } d
     send (.retx n (if fromBEnd n p d1 then .b else .a) p f) (fsat (F.KZC_CH_ERR_LATE_RETX n) 1 d1)) := by
  simp only [retxSend, h]

theorem retxSend_stands {n : Nat} {d : Dev} (h : retxNext n d = none) : retxSend n d = d := by simp only [retxSend, h]

section Alerts

variable {n p c a : Nat} {port : Port} {d : Dev}

theorem alert_stands (h : chState3 n d = 0 ∨ fget (F.KZC_CH_STAT_VER n) d ≠ 2) : alert n port p c a d = d := if_pos h

variable (hs : chState3 n d ≠ 0) (hv : fget (F.KZC_CH_STAT_VER n) d = 2)
include hs hv

/-- With none before it, an alert is kept and acts (R112). -/
theorem alert_first (hr : d.kzc.recent = []) : alert n port p c a d =
    (let d1 := { d with kzc := { d.kzc with recent := [{ chain := n, port, p, c, a, clk := d.clk }] } }
     let d2 := if c = 0x07 then chainBreak n (if a = 1 then some (p % 64) else none) (if a = 0 then some (p % 64) else none) d1
       else d1
     protAlert n (p % 64) c a (p / 64) (alertPush n port p c a d2)) := by
  have ht : ¬ (chState3 n d = 0 ∨ fget (F.KZC_CH_STAT_VER n) d ≠ 2) := by simp [hs, hv]
  simp only [alert, if_neg ht, hr, List.any_nil, List.filter_nil, Bool.false_eq_true, if_false]

/-- One seen at the other port within the window is only counted (R112). -/
theorem alert_again (hr : d.kzc.recent.any (fun e => e.chain == n && e.port != port && e.p == p && e.c == c && e.a == a &&
    decide (d.clk - e.clk ≤ fget F.KZC_ALERT_CFG_DEDUP d * tickUs)) = true) :
    alert n port p c a d = fsat (F.KZC_CH_ALERT_DEDUP n) 1 d := by
  have ht : ¬ (chState3 n d = 0 ∨ fget (F.KZC_CH_STAT_VER n) d ≠ 2) := by simp [hs, hv]
  exact (if_neg ht).trans (if_pos hr)

end Alerts

theorem alertRead_empty {d : Dev} (t : Nat) (h : d.kzc.fifo = []) :
    alertRead t d = send (.readData t R.KZC_ALERT_FIFO 0) d := by
  simp only [alertRead, h]

theorem alertRead_pops {e : AlertEntry} {rest : List AlertEntry} {d : Dev} (t : Nat) (h : d.kzc.fifo = e :: rest) :
    alertRead t d = send (.readData t R.KZC_ALERT_FIFO e.word) (alertLevel { d with kzc := { d.kzc with
      fifo := rest, latch := tabSet (fun _ => 0) d.kzc.latch t (e.ts + 1) } }) := by
  simp only [alertRead, h]

/-- A port of a chain that is not enabled ignores its receiver (R91). -/
theorem ignored_chainOff {c : Instr} {n : Nat} {f : Dev → Dev} (hc : ∀ s, exec c s = onBlk 4 (onPort n f) s) :
    Ignored c (fbit F.KZC_CTRL_CH_EN n · = false) :=
  ignored_onBlk hc fun _ h => if_neg (ne_true_of_eq_false h)

/-- Settles O24: each clause is the rule of its event above. -/
theorem chainReceiversComplete : Obligations.ChainReceiversComplete := by
  refine ⟨fun n r => ?_, fun n p => ?_, fun n p t => ?_, fun n port raw bs => ?_, fun n port raw parity => ?_,
    fun n port raw bs parity => ?_, fun n port raw bs => ?_, fun n => ?_, fun n => ?_, fun n p f => ?_, fun n port p c a => ?_,
    fun n port p c a => ?_, fun n port p c a => ?_, fun n p k t raw parity x c a => ?_, fun t => ?_, fun t e rest => ?_, fun n => ?_⟩
  -- locks and truncated frames
  · exact completes_onPort (exec_receiverLock n r) (fun d h => h) fun d _ => rfl
  · exact completes_onPort (exec_receiverLockLoss n p) (fun d h => h) fun d _ => rfl
  · exact completes_onPort (exec_frameTruncated n p t) (fun d h => h) fun d _ => rfl
  -- bursts
  · intro H f
    have hacc : ∀ d, H d → dataBurst n port raw false d = f d := fun d ⟨_, hb, hs, hv, hp, he, ha, hj, hr, hf, hc⟩ =>
      (dataBurst_good hb).trans (burstCommit_accepts hs hv hp he (by simpa using ha) (by simpa using hj) hr hf (by simpa using hc))
    exact ⟨completes_onPort (exec_dataBurst n port raw false) (fun d h => h.1) hacc,
      completes_onPort (exec_dataRetx n port raw) (fun d h => h.1) hacc⟩
  · exact ⟨completes_onPort (exec_dataBurst n port raw parity) (fun d h => h.1) fun d h => dataBurst_bad h.2,
      completes_onPort (exec_dataRetx n port raw) (fun d h => h.1) fun d h => dataBurst_bad h.2⟩
  · exact ⟨completes_onPort (exec_dataBurst n port raw parity) (fun d h => h.1) fun d ⟨_, hb, hs⟩ =>
        (dataBurst_good hb).trans (burstCommit_noLink hs),
      completes_onPort (exec_dataRetx n port raw) (fun d h => h.1) fun d ⟨_, hb, hs⟩ =>
        (dataBurst_good hb).trans (burstCommit_noLink hs)⟩
  · exact completes_onPort (exec_dataBurst n port raw true) (fun d h => h.1) fun d ⟨_, hb, hs, hv, hp, he, ha, hj⟩ =>
      (dataBurst_good hb).trans (burstCommit_parity hs hv hp he (by simpa using ha) (by simpa using hj))
  -- retransmissions
  · exact completes_onBlk (exec_retxTimeout n) (fun d h => h) fun d _ => rfl
  · exact ignored_onBlk (exec_retxSend n) fun d h => retxSend_stands h
  · exact completes_onBlk (exec_retxSend n) (fun d h => h.1) fun d h => retxSend_due h.2
  -- alerts
  · exact completes_onPort (exec_alert n port p c a) (fun d h => h.1) fun d ⟨_, hs, hv, hr⟩ => alert_first hs hv hr
  · exact completes_onPort (exec_alert n port p c a) (fun d h => h.1) fun d ⟨_, hs, hv, hr⟩ => alert_again hs hv hr
  · exact ignored_onPort (exec_alert n port p c a) fun d h => alert_stands h
  -- a receiver of a chain that is not enabled
  · exact ⟨ignored_chainOff (exec_receiverLock n _), ignored_chainOff (exec_receiverLockLoss n p),
      ignored_chainOff (exec_frameTruncated n p t), ignored_chainOff (exec_dataBurst n p raw parity),
      ignored_chainOff (exec_dataRetx n p raw), ignored_chainOff (exec_alert n p x c a)⟩
  -- the alert FIFO and the counters
  · exact completes_onBlk (exec_kzcAlertFifoRead t) (fun d h => h.1) fun d h => alertRead_empty t h.2
  · exact completes_onBlk (exec_kzcAlertFifoRead t) (fun d h => h.1) fun d h => alertRead_pops t h.2
  · exact completes_onBlk (exec_chClrCnt n) (fun d h => h) fun d _ => rfl

end Sys2Proof.Machine

namespace Sys2Proof.Machine

/-! ### The Kazilo bridge: a transaction starts (O26) -/

section TransactionStart

variable {n : Nat} {r : SvcRun} {x : KzAcc} {rest : List KzAcc} {d : Dev}

/-- Outside the service window a transaction waits (R392). -/
theorem kzStart_closed (h : svcWindow n d = false) : kzStart n d = d := if_pos (by simp [h])

theorem kzStart_idle (hs : (chainOf n d).svc = none) (hq : kzQueue n d = []) : kzStart n d = d := by
  simp only [kzStart, hs, hq, ite_self]

variable (hw : svcWindow n d = true)
include hw

/-- A frame that waits to be sent again leaves with its own SEQ (R106). -/
theorem kzStart_again (hs : (chainOf n d).svc = some r) (ha : r.again = true) (hb : r.busy = false) : kzStart n d =
    svcFrame n { r with again := false } (chainPut n { chainOf n d with svc := some { r with again := false } } d) := by
  simp only [kzStart, hw, hs, ha, hb, Bool.not_true, Bool.not_false, Bool.and_self, Bool.false_eq_true, if_false, if_true]

variable (hs : (chainOf n d).svc = none) (hq : kzQueue n d = x :: rest)
include hs hq

/-- The next piece of the first access leaves with a new SEQ (R392). -/
theorem kzStart_next (hm : mastersPos n (kzPos (kzPieceAddr x)) d = true) : kzStart n d =
    (let c := chainOf n d
     let a := kzPieceAddr x
     let r : SvcRun := { write := x.write, pos := kzPos a, addr := kzWord a, data := (x.data >>> (16 * x.piece)) % 65536,
                         seq := (c.svcSeq + 1) % 256, tries := 0 }
     svcFrame n r (chainPut n { c with svc := some r, svcSeq := (c.svcSeq + 1) % 256 }
       (kzQueuePut n ({ x with started := true } :: rest) d))) := by
  simp only [kzStart, hw, hs, hq, hm, Bool.not_true, Bool.false_eq_true, if_false]

/-- An access of a position that the device does not master fails with cause 4 (R391). -/
theorem kzStart_unmastered (hm : mastersPos n (kzPos (kzPieceAddr x)) d = false) : kzStart n d = kzFail n 4 0 x d := by
  simp only [kzStart, hw, hs, hq, hm, Bool.not_true, Bool.not_false, Bool.false_eq_true, if_false, if_true]

end TransactionStart

/-! ### The Kazilo bridge: a transaction is answered (O26) -/

/-- A response belongs to the transaction under way, whose last frame is out (R106). -/
def SvcRun.Awaits (r : SvcRun) (pos seq : Nat) : Prop := r.pos = pos ∧ r.seq = seq ∧ r.busy = false ∧ r.again = false

theorem regResp_idle {n pos seq result data : Nat} {d : Dev} (hs : (chainOf n d).svc = none) :
    regResp n pos seq result data d = d := by
  simp only [regResp, hs]

section Responses

variable {n pos seq : Nat} {r : SvcRun} {x : KzAcc} {rest : List KzAcc} {d : Dev} (data : Nat)
  (hs : (chainOf n d).svc = some r) (hq : kzQueue n d = x :: rest)
include hs hq

theorem regResp_other (result : Nat) (h : ¬ r.Awaits pos seq) : regResp n pos seq result data d = d := by
  have hr : r.pos ≠ pos ∨ r.seq ≠ seq ∨ r.busy = true ∨ r.again = true := by
    simp only [SvcRun.Awaits, not_and_or, Bool.not_eq_false] at h
    exact h
  simp only [regResp, hs, hq, if_pos hr]

variable (hm : r.Awaits pos seq)
include hm

/-- A response that belongs to the transaction is judged by its RESULT. -/
theorem regResp_awaited (result : Nat) : regResp n pos seq result data d =
    if result = 0 then kzPiece n data x d
    else if result = 4 then if r.tries = 0 then d else kzPiece n data x d
    else if result = 3 then
      if fget F.KZC_SVC_RETRY d ≤ x.busies then kzFail n 3 3 x d
      else chainPut n { chainOf n d with svc := some { r with busy := true } }
        (kzQueuePut n ({ x with busies := x.busies + 1 } :: rest) d)
    else kzFail n 3 result x d := by
  obtain ⟨hp, hi, hb, ha⟩ := hm
  have hr : ¬ (r.pos ≠ pos ∨ r.seq ≠ seq ∨ r.busy = true ∨ r.again = true) := by simp [hp, hi, hb, ha]
  simp only [regResp, hs, hq, if_neg hr]
  split
  case h_1 => rfl
  case h_2 => rfl
  case h_3 => rfl
  case h_4 h0 h4 h3 => rw [if_neg h0, if_neg h4, if_neg h3]

end Responses

/-! ### The Kazilo bridge: a transaction times out or is retried, and data is discarded (O26) -/

section Repeats

variable {n : Nat} {r : SvcRun} {x : KzAcc} {rest : List KzAcc} {d : Dev}

/-- A timeout repeats the frame while tries are left, else the access fails (R106). -/
theorem svcTimeout_waiting (hs : (chainOf n d).svc = some r) (hq : kzQueue n d = x :: rest) (hb : r.busy = false) :
    svcTimeout n d =
      if r.tries < fget F.KZC_SVC_RETRY d then
        kzStart n (chainPut n { chainOf n d with svc := some { r with tries := r.tries + 1, again := true } } d)
      else kzFail n 2 0 x (record 0x030A n r.pos r.addr (fsat (F.KZC_CH_ERR_MISC_SVC_TMO n) 1 d)) := by
  simp only [svcTimeout, hs, hq, hb, Bool.false_eq_true, if_false]

theorem svcTimeout_idle (hs : (chainOf n d).svc = none) : svcTimeout n d = d := by simp only [svcTimeout, hs]

/-- After a busy answer the piece starts again, as a new transaction (R393). -/
theorem busyRetry_busy (hs : (chainOf n d).svc = some r) (hb : r.busy = true) :
    busyRetry n d = kzStart n (chainPut n { chainOf n d with svc := none } d) := by
  simp only [busyRetry, hs, hb, if_true]

theorem busyRetry_idle (hs : (chainOf n d).svc = none) : busyRetry n d = d := by simp only [busyRetry, hs]

end Repeats

/-- Data that no presentation has collected is recorded and discarded (R394). -/
theorem retryExpired_held {i : Nat} {h : HeldRead} {d : Dev} (hh : d.brg.held[i]? = some h) : retryExpired i d =
    recordC 0x0A03 h.addr h.attr { d with brg := { d.brg with held := d.brg.held.eraseIdx i } } := by
  simp only [retryExpired, hh]

theorem retryExpired_none {i : Nat} {d : Dev} (hh : d.brg.held[i]? = none) : retryExpired i d = d := by
  simp only [retryExpired, hh]

/-- An event of a whole block, after which the engine takes up again what waited for it. -/
theorem settles_onEvent {c : Instr} {H : Dev → Prop} {f g : Dev → Dev} {i : Nat} (hc : ∀ s, exec c s = onEvent i f s)
    (hw : ∀ d, H d → whole i d) (h : ∀ d, H d → f d = g d) : Settles c H (fun m d => (m, g d)) :=
  completesBoth_onBlkBoth hc (fun _ => hw) fun m d hd => congrArg (fun e => settle (m, e)) (h d hd)

/-- Settles O26: each clause is the rule of its event above. -/
theorem kaziloBridgeCompletes : Obligations.KaziloBridgeCompletes := by
  refine ⟨fun n x rest => ?_, fun n x rest => ?_, fun n r => ?_, fun n => ?_, fun n pos seq result data r x rest => ?_,
    fun n r x rest => ⟨?_, ?_⟩, fun n r => ?_, fun n pos seq result data => ⟨?_, ?_, ?_⟩, fun i h => ?_, fun i => ?_⟩
  -- the start of a transaction
  · exact settles_onEvent (exec_kzbTransactionStart n) (fun d h => h.1) fun d ⟨_, hw, hs, hq, hm⟩ => kzStart_next hw hs hq hm
  · exact settles_onEvent (exec_kzbTransactionStart n) (fun d h => h.1) fun d ⟨_, hw, hs, hq, hm⟩ => kzStart_unmastered hw hs hq hm
  · exact settles_onEvent (exec_kzbTransactionStart n) (fun d h => h.1) fun d ⟨_, hw, hs, ha, hb⟩ => kzStart_again hw hs ha hb
  · refine settles_onEvent (g := id) (exec_kzbTransactionStart n) (fun d h => h.1) fun d ⟨_, h⟩ => ?_
    rcases h with hw | ⟨hs, hq⟩
    · exact kzStart_closed hw
    · exact kzStart_idle hs hq
  -- its answer
  · have hx := exec_regResp n pos seq result data
    refine ⟨fun ⟨hm, hr⟩ => settles_onEvent hx (fun d h => h.1) fun d ⟨_, hs, hq⟩ => ?_,
      fun ⟨hm, hr⟩ => settles_onEvent hx (fun d h => h.1.1) fun d ⟨⟨_, hs, hq⟩, hb⟩ => ?_,
      fun ⟨hm, hr⟩ => settles_onEvent hx (fun d h => h.1.1) fun d ⟨⟨_, hs, hq⟩, hb⟩ => ?_,
      fun ⟨hm, h0, h3, h4⟩ => settles_onEvent hx (fun d h => h.1) fun d ⟨_, hs, hq⟩ => ?_,
      fun h => settles_onEvent (g := id) hx (fun d h => h.1) fun d ⟨_, hs, hq⟩ => ?_⟩
    · rw [regResp_awaited _ hs hq hm]
      rcases hr with rfl | ⟨rfl, ht⟩
      · rfl
      · exact if_neg ht
    · rw [regResp_awaited _ hs hq hm, hr]
      exact if_neg (not_le.2 hb)
    · rw [regResp_awaited _ hs hq hm, hr]
      exact if_pos hb
    · rw [regResp_awaited _ hs hq hm]
      have ne {k : Byte} (hk : result ≠ k) : result.toNat ≠ k.toNat := fun e => hk (BitVec.eq_of_toNat_eq e)
      exact (if_neg (ne h0)).trans ((if_neg (ne h4)).trans (if_neg (ne h3)))
    · by_cases hm : r.Awaits pos.toNat seq.toNat
      · obtain ⟨rfl, ht⟩ := h.resolve_left (not_not_intro hm)
        rw [regResp_awaited _ hs hq hm]
        exact if_pos ht
      · exact regResp_other _ hs hq _ hm
  -- its timeout and its repeat
  · exact settles_onEvent (exec_svcTimeout n) (fun d h => h.1.1) fun d ⟨⟨_, hs, hq, hb⟩, ht⟩ =>
      (svcTimeout_waiting hs hq hb).trans (if_pos ht)
  · exact settles_onEvent (exec_svcTimeout n) (fun d h => h.1.1) fun d ⟨⟨_, hs, hq, hb⟩, ht⟩ =>
      (svcTimeout_waiting hs hq hb).trans (if_neg (not_lt.2 ht))
  · exact settles_onEvent (exec_kzbBusyRetry n) (fun d h => h.1) fun d ⟨_, hs, hb⟩ => busyRetry_busy hs hb
  -- no transaction
  · exact settles_onEvent (g := id) (exec_regResp n pos seq result data) (fun d h => h.1) fun d h => regResp_idle h.2
  · exact settles_onEvent (g := id) (exec_svcTimeout n) (fun d h => h.1) fun d h => svcTimeout_idle h.2
  · exact settles_onEvent (g := id) (exec_kzbBusyRetry n) (fun d h => h.1) fun d h => busyRetry_idle h.2
  -- data that no one collected
  · exact completes_onBlk (exec_retryExpired i) (fun d h => h.1) fun d hd => retryExpired_held hd.2
  · exact ignored_onBlk (exec_retryExpired i) fun d h => retryExpired_none h

end Sys2Proof.Machine

namespace Sys2Proof.Machine

/-! ### Outputs after a reset (O45) -/

/-- With PROT in its reset state and every register that a reset sets alike at its reset value, the outputs are off: the fields
that show them have the reset value 0. -/
theorem outputsOff_of_reset {d : Dev}
    (hr : ∀ a, resetSets a = false → a ∉ otpRegs ++ hutchRegs → regGet d a = regReset a) (hp : d.prot = {}) : outputsOff d := by
  have field (f : Fld) (hs : resetSets f.reg = false) (ho : f.reg ∉ otpRegs ++ hutchRegs)
      (hz : bitsOf (regReset f.reg).toNat f.lo f.width = 0) : fget f d = 0 := by rw [fget, hr _ hs ho, hz]
  refine ⟨fun ch hch => ?_, fun k _ => ?_, fun c => ?_, field F.PROT_STATUS_ZSTATE (by decide) (by decide) (by decide)⟩
  · have hstat : ∀ ch < 32, resetSets (R.LSW_CH_STAT ch) = false ∧ R.LSW_CH_STAT ch ∉ otpRegs ++ hutchRegs ∧
        regReset (R.LSW_CH_STAT ch) = 0 := by decide
    obtain ⟨hs, ho, hz⟩ := hstat ch hch
    have zero (lo w : Nat) : bitsOf (regReset (R.LSW_CH_STAT ch)).toNat lo w = 0 := by rw [hz]; simp [bitsOf]
    exact ⟨field (F.LSW_CH_STAT_STATE ch) hs ho (zero _ _), by rw [flag, field (F.LSW_CH_STAT_OUT ch) hs ho (zero _ _)]; rfl⟩
  · rw [fbit, field F.IOX_LSO_STAT_STATE (by decide) (by decide) (by decide), Nat.zero_testBit]
  · rw [coilOn, hp]
    exact Nat.zero_testBit c

/-- What is held about the supply is no output. -/
theorem outputsOff_withPwr {d : Dev} (p : Pwr) (h : outputsOff d) : outputsOff { d with pwr := p } := h

theorem deviceReset_prot (cause : Nat) (d : Dev) : (deviceReset cause d).prot = {} := by
  show (keepFields hutchFields d (keepRegs (otpRegs ++ hutchRegs) d (devBare d))).prot = {}
  rw [keepFields_keeps (·.prot) (fun _ _ _ => rfl), keepRegs_keeps (·.prot) (fun _ _ _ => rfl)]
  rfl

theorem powerOn_prot (x : Bool) (d : Dev) : (powerOn x d).prot = {} := by
  show (keepRegs otpRegs d (devBare d)).prot = {}
  rw [keepRegs_keeps (·.prot) (fun _ _ _ => rfl)]
  rfl

theorem outputsOff_deviceReset (cause : Nat) (d : Dev) : outputsOff (deviceReset cause d) :=
  outputsOff_of_reset (fun a hs ho => by rw [regGet_deviceReset _ _ _ hs, if_neg ho]) (deviceReset_prot cause d)

theorem outputsOff_powerOn (x : Bool) (d : Dev) : outputsOff (powerOn x d) := by
  refine outputsOff_of_reset (fun a hs ho => ?_) (powerOn_prot x d)
  have hpwr : R.PWR_STATUS ≠ a := by
    rintro rfl
    exact absurd hs (by decide)
  rw [regGet_powerOn _ _ _ hpwr, if_neg fun hm => ho (List.mem_append_left _ hm)]

/-- With VAUX up, a reset that VAUX outranks takes place. -/
theorem resetUnlessDown_up {cause : Nat} {d : Dev} (h : d.pwr.down = false) : resetUnlessDown cause d = deviceReset cause d :=
  if_neg (by simp [h])

/-- A brown-out outside S3 and S4 holds the device in a device reset. -/
theorem outputsOff_brownOut {d : Dev} (h : asleep d = false) : outputsOff (brownOut d) := by
  rw [brownOut, if_neg (by simp [h])]
  exact outputsOff_withPwr _ (outputsOff_deviceReset 0 _)

/-- A rise of VAUX outside S3 and S4 is a power-on. -/
theorem vauxRise_awake {x : Bool} {m : List Host.Cell} {d : Dev} (h : asleep d = false) :
    vauxRise x m d = (memLose m, powerOn x d) := if_neg (by simp [h])

theorem outputsOff_hutchLoss (d : Dev) : outputsOff (hutchLoss d) :=
  outputsOff_withPwr _ (outputsOff_powerOn false d)

/-- Settles O45: each cause ends in a device reset or in a power-on. -/
theorem resetTurnsOutputsOff : Obligations.ResetTurnsOutputsOff := by
  refine ⟨outputsOff_deviceReset, outputsOff_powerOn, fun s => ⟨fun hd => ⟨_, exec_rstNReset s, ?_⟩,
    fun hd => ⟨_, exec_sysReset 0x5D s, ?_⟩, fun ⟨hd, hg⟩ => ⟨_, exec_groundReturnReset s, ?_⟩,
    fun ha => ⟨_, exec_brownOut s, outputsOff_brownOut ha⟩, fun x ha => ⟨_, exec_powerOnReset x s, ?_⟩,
    _, exec_hutchRetentionLoss s, outputsOff_hutchLoss s.dev⟩⟩
  · rw [resetUnlessDown_up hd]
    exact outputsOff_deviceReset 1 _
  · dsimp only
    rw [if_pos rfl, resetUnlessDown_up hd]
    exact outputsOff_deviceReset 4 _
  · dsimp only
    rw [if_pos hg, resetUnlessDown_up hd]
    exact outputsOff_deviceReset 2 _
  · rw [vauxRise_awake ha]
    exact outputsOff_powerOn x _

end Sys2Proof.Machine

namespace Sys2Proof.Machine

/-! ### Bits of a mask (O28, O49) -/

/-- A put changes its own bit of a mask alone. -/
theorem maskPut_testBit (m i j : Nat) (b : Bool) : (maskPut m i b).testBit j = if j = i then b else m.testBit j := by
  rw [maskPut, bitsPut_testBit]
  by_cases h : j = i
  · subst h
    cases b <;> simp
  · rw [if_neg (by omega), if_neg h]

/-! ### Switch inputs, SAFE_N and the zone (O28) -/

section Inputs

variable {i : Nat} {level v : Bool} {d : Dev}

/-- What an input shows once it has held `level`: the level after INV, which a partner monitor ignores (R225, R226). -/
theorem swShown_held (i : Nat) (level : Bool) (d : Dev) :
    swShown i { d with prot := { d.prot with swRaw := maskPut d.prot.swRaw i level } } =
      if fget (F.IOX_SW_CFG_ROLE i) d = 1 then level else level != flag (F.IOX_SW_CFG_INV i) d := by
  show (maskBit (maskPut d.prot.swRaw i level) i != (fget (F.IOX_SW_CFG_ROLE i) d != 1 && flag (F.IOX_SW_CFG_INV i) d)) = _
  rw [maskBit, maskPut_testBit, if_pos rfl]
  by_cases hr : fget (F.IOX_SW_CFG_ROLE i) d = 1 <;> simp [hr]

theorem switchEdge_same
    (h : swLevel i d = if fget (F.IOX_SW_CFG_ROLE i) d = 1 then level else level != flag (F.IOX_SW_CFG_INV i) d) :
    switchEdge i level d = { d with prot := { d.prot with swRaw := maskPut d.prot.swRaw i level } } :=
  if_pos (h.trans (swShown_held i level d).symm)

theorem switchEdge_new
    (hv : (if fget (F.IOX_SW_CFG_ROLE i) d = 1 then level else level != flag (F.IOX_SW_CFG_INV i) d) = v)
    (h : swLevel i d ≠ v) : switchEdge i level d =
      let d1 := { d with prot := { d.prot with swRaw := maskPut d.prot.swRaw i level } }
      nsmEval (inputActs i (mask48BitPut F.IOX_SW_CHG_LO_CHG F.IOX_SW_CHG_HI_CHG i true
        (mask48BitPut F.IOX_SW_LO_LEVEL F.IOX_SW_HI_LEVEL i v d1))) := by
  have hs := (swShown_held i level d).trans hv
  refine (if_neg fun e => h (e.trans hs)).trans ?_
  rw [swForm, hs]

end Inputs

section ZoneCommands

variable {d : Dev}

theorem zoneSafe_enters (hr : d.prot.runs = true) (hz : zone d ≠ 5) : zoneSafe d =
    let d2 := each d.prot.queue queueDrop (hsPut none d)
    zoneTo 5 (each (below 48 (fun n => 1 ≤ seqState n d2 && seqState n d2 ≤ 5)) (fun n => tripCore n (srcWord 5 0 0 0)) d2) :=
  if_neg (by simp [hr, hz])

theorem zoneSafe_stands (h : d.prot.runs = false ∨ zone d = 5) : zoneSafe d = d := if_pos (by simpa using h)

/-- The conditions of ARM, one by one (R203). -/
theorem armOk_iff : armOk d = true ↔ zone d = 1 ∧ d.prot.runs = true ∧ flag F.PROT_STATUS_SAFE_N d = true ∧
    d.prot.zoneLatch = false ∧ devFault d = false ∧ flag F.PROT_STATUS_KICK_LATE d = false ∧ pairMayArm d = true := by
  simp [armOk, and_assoc]

theorem protArm_permitted (h : armOk d = true) : protArm d =
    let d1 := zoneTo 2 (fset F.PROT_ARM_CRC_CRC (fget F.CFG_CRC_CRC d) d)
    each (below 48 (fun n => flag (F.PROT_STR_A_AUTO_CLOSE n) d1)) strClose d1 := if_neg (by simp [h])

theorem protArm_stands (h : ¬ armOk d = true) : protArm d = d := if_pos (by simpa using h)

theorem protDisarm_armed (h : zone d = 2) : protDisarm d =
    let d1 := zoneTo 3 (each d.prot.queue queueDrop d)
    zoneSettle (each (stringsOn d1) strOpen d1) := if_neg (not_not_intro h)

theorem protDisarm_stands (h : zone d ≠ 2) : protDisarm d = d := if_pos h

theorem zclr_permitted (h : zclrOk d = true) : zclr d =
    let d1 := recordC 0x0504 0xFF 0 { d with prot := { d.prot with zoneLatch := false } }
    if zone d1 = 4 then zoneTo 1 d1 else d1 := if_neg (by simp [h])

theorem zclr_refused (h : zclrOk d = false) : zclr d = recordC 0x0504 0xFF 1 d := if_pos (by simp [h])

theorem reconf_held (h : zone d = 6) : reconf d =
    if fget F.PROT_RECONF_CRC_CRC d = fget F.PROT_ARM_CRC_CRC d then
      zoneSettle (zoneTo d.prot.holdPrev (recordC 0x050E 0 (msSince d.prot.holdAt d) d))
    else holdTrip 2 d := if_neg (not_not_intro h)

theorem reconf_stands (h : zone d ≠ 6) : reconf d = d := if_pos h

theorem kickMissed_armed (h : zone d = 2 ∨ zone d = 3) : kickMissed d = engineHold 1 d := by
  rcases h with h | h <;> simp only [kickMissed, h]

theorem kickMissed_held (h : zone d = 6) : kickMissed d = d := by simp only [kickMissed, h]

theorem kickMissed_other (h2 : zone d ≠ 2) (h3 : zone d ≠ 3) (h6 : zone d ≠ 6) :
    kickMissed d = fput F.PROT_STATUS_KICK_LATE true d := by
  unfold kickMissed
  split
  · exact absurd ‹_› h2
  · exact absurd ‹_› h3
  · exact absurd ‹_› h6
  · rfl

end ZoneCommands

section LowSide

variable {k : Nat} {d : Dev}

theorem lsoFault_on (h : fbit F.IOX_LSO_STAT_STATE k d = true) : lsoFault k d =
    let d1 := { d with prot := { d.prot with lsoShut := maskPut d.prot.lsoShut k true } }
    let d2 := recordC 0x0520 k 0 (fbitPut F.IOX_LSO_STAT_FAULT k true (fbitPut F.IOX_LSO_STAT_STATE k false d1))
    if coilOn (32 + k) d then boundOff (32 + k) d2 else d2 := if_neg (by simp [h])

theorem lsoFault_off (h : fbit F.IOX_LSO_STAT_STATE k d = false) : lsoFault k d = d := if_pos (by simp [h])

theorem lsoOpenLoad_off (h : fbit F.IOX_LSO_STAT_STATE k d = false) :
    lsoOpenLoad k d = recordC 0x0520 k 1 (fbitPut F.IOX_LSO_STAT_FAULT k true d) := if_neg (by simp [h])

theorem lsoOpenLoad_on (h : fbit F.IOX_LSO_STAT_STATE k d = true) : lsoOpenLoad k d = d := if_pos h

end LowSide

/-- Settles O28: each clause is the rule of its event above. -/
theorem inputsAndZoneComplete : Obligations.InputsAndZoneComplete := by
  refine ⟨fun i level v => ?_, fun i level => ?_, fun k v => ?_, ?_, ?_, ?_, ?_, ?_, ?_, ?_, ?_, ?_, ?_, ?_, ?_, ?_, ?_,
    fun key => ?_, ?_, ?_, ?_, ?_, ?_, fun k => ?_, fun k => ?_, fun k => ?_, fun k => ?_⟩
  -- switch and analogue inputs
  · exact completes_onBlk (exec_switchInputEdge i level) (fun _ h => h.1) fun _ ⟨_, hv, hn⟩ => switchEdge_new hv hn
  · exact completes_onBlk (exec_switchInputEdge i level) (fun _ h => h.1) fun _ ⟨_, h⟩ => switchEdge_same h
  · exact completes_onBlk (exec_analogSample k v) (fun _ h => h) fun _ _ => rfl
  -- SAFE_N
  · exact completes_onDev exec_safeNFall fun _ ⟨hr, hz⟩ => zoneSafe_enters hr hz
  · exact completes_onDev exec_safeNFall fun _ h => zoneSafe_stands h
  · exact completes_onDev exec_safeExit fun _ h => if_pos h
  · exact completes_onDev exec_safeExit fun _ h => if_neg h
  -- ARM, DISARM, ZCLR and RECONF
  · exact completes_onDev exec_protCmdArm fun _ h => protArm_permitted (armOk_iff.2 h)
  · refine ignored_onDev exec_protCmdArm fun _ h => protArm_stands fun ha => ?_
    obtain ⟨hz, hr, hn, hl, hf, hk, hp⟩ := armOk_iff.1 ha
    simp [hz, hr, hn, hl, hf, hk, hp] at h
  · exact completes_onDev exec_protCmdDisarm fun _ => protDisarm_armed
  · exact ignored_onDev exec_protCmdDisarm fun _ => protDisarm_stands
  · exact completes_onDev exec_zclr fun _ => zclr_permitted
  · exact completes_onDev exec_zclr fun _ => zclr_refused
  · exact completes_onDev exec_protCmdReconf fun _ ⟨hz, hc⟩ => (reconf_held hz).trans (if_pos hc)
  · exact completes_onDev exec_protCmdReconf fun _ ⟨hz, hc⟩ => (reconf_held hz).trans (if_neg hc)
  · exact ignored_onDev exec_protCmdReconf fun _ => reconf_stands
  -- the kick and ENGINE_HOLD
  · exact completes_onDev (exec_protKick 0xA5) fun _ _ => if_pos rfl
  · exact ignored_onDev (exec_protKick key) fun _ h => if_neg fun e => h (BitVec.eq_of_toNat_eq e)
  · exact completes_onDev exec_kickMissed fun _ => kickMissed_armed
  · exact ignored_onDev exec_kickMissed fun _ => kickMissed_held
  · exact completes_onDev exec_kickMissed fun _ ⟨h2, h3, h6⟩ => kickMissed_other h2 h3 h6
  · exact completes_onDev exec_engineHoldExpiry fun _ h => if_pos h
  · exact ignored_onDev exec_engineHoldExpiry fun _ h => if_neg h
  -- low-side outputs
  · exact completes_onBlk (exec_lsoFault k) (fun _ h => h.1) fun _ ⟨_, h⟩ => lsoFault_on h
  · exact ignored_onBlk (exec_lsoFault k) fun _ => lsoFault_off
  · exact completes_onBlk (exec_lsoOpenLoad k) (fun _ h => h.1) fun _ ⟨_, h⟩ => lsoOpenLoad_off h
  · exact ignored_onBlk (exec_lsoOpenLoad k) fun _ => lsoOpenLoad_on

end Sys2Proof.Machine

namespace Sys2Proof.Machine

/-! ### Commands of a string and its contactors (O29) -/

section StringCommands

variable {n : Nat} {r : Role} {d : Dev}

theorem strClose_permitted (h : closeOk n d = true) : strClose n d = closeEnter n d := if_pos h

theorem strClose_stands (h : closeOk n d = false) : strClose n d = d := if_neg (by simp [h])

theorem strOpen_closed (h : seqState n d = 4) : strOpen n d = seqTo n 5 d := if_pos h

/-- A string in NEG, PRECHARGE or POS is not CLOSED, so OPEN ends its close. -/
theorem strOpen_closing (h : closing n d = true) : strOpen n d = zoneSettle (recordC 0x0506 n 0 (closeEnds n d)) := by
  have h4 : seqState n d ≠ 4 := by
    intro e
    simp [closing, e] at h
  rw [strOpen, if_neg h4, if_pos h]

theorem strOpen_other (h4 : seqState n d ≠ 4) (hc : closing n d = false) : strOpen n d = closeRevoked n (queueDrop n d) := by
  rw [strOpen, if_neg h4, if_neg (by simp [hc])]

theorem strClr_permitted (h : clrOk n d = true) : strClr n d =
    let d1 := clearBound n (recordC 0x0504 n 0 (tripLatchPut n false d))
    if seqState n d1 = 6 ∨ (seqState n d1 = 7 ∧ fbAllOpen n d1 = true) then seqTo n 0 d1 else d1 := if_neg (by simp [h])

theorem strClr_refused (h : clrOk n d = false) : strClr n d = recordC 0x0504 n 1 d := if_pos (by simp [h])

theorem fbFault_differs (h : fbClosed n r d ≠ coilOn (roleCh n r d) d) : fbFault n r d =
    zoneSettle (recordC 0x0508 n (roleCode r + if coilOn (roleCh n r d) d then 0 else 256)
      (seqTo n 7 (coilsOff n (hsDrop n d)))) := if_neg h

theorem fbFault_follows (h : fbClosed n r d = coilOn (roleCh n r d) d) : fbFault n r d = d := if_pos h

end StringCommands

/-- Settles O29: each clause is the rule of its command above. -/
theorem stringCommandsComplete : Obligations.StringCommandsComplete :=
  ⟨fun n => completes_onDev (exec_protStrCmdClose n) fun _ => strClose_permitted,
    fun n => ignored_onDev (exec_protStrCmdClose n) fun _ => strClose_stands,
    fun n => completes_onDev (exec_protStrCmdOpen n) fun _ => strOpen_closed,
    fun n => completes_onDev (exec_protStrCmdOpen n) fun _ => strOpen_closing,
    fun n => completes_onDev (exec_protStrCmdOpen n) fun _ ⟨h4, hc⟩ => strOpen_other h4 hc,
    fun n => completes_onDev (exec_protStrCmdClr n) fun _ => strClr_permitted,
    fun n => completes_onDev (exec_protStrCmdClr n) fun _ => strClr_refused,
    fun n r => completes_onDev (exec_contactorFbFault n r) fun _ => fbFault_differs,
    fun n r => ignored_onDev (exec_contactorFbFault n r) fun _ => fbFault_follows⟩

end Sys2Proof.Machine

namespace Sys2Proof.Machine

/-! ### The interrupt registers of protection (O49) -/

/-- A register of one field, of a value that it takes: the write reaches that field alone. -/
theorem regAfter_single {a w : Nat} {f : FieldRow} (hf : regFields a = [f]) (hv : valueTaken a w = true) (secure : Bool) (d : Dev) :
    regAfter a secure w d = bitsPut (regGet d a).toNat f.lo f.width
      (fieldWrite a f secure (bitsOf w f.lo f.width) (bitsOf (regGet d a).toNat f.lo f.width) d) := by
  simp [regAfter, hf, hv]

/-- Write-1-to-clear: of the bits below `n`, those that are 1 in `v` are 0 after it; the others stay (R9). -/
theorem w1c_testBit (v old n j : Nat) :
    ((List.range n).foldl (fun m i => if v.testBit i then maskPut m i false else m) old).testBit j =
      (old.testBit j && !(decide (j < n) && v.testBit j)) := by
  induction n with
  | zero => simp
  | succ n ih =>
    rw [List.range_succ, List.foldl_concat]
    by_cases hj : j = n
    · subst hj
      by_cases hv : v.testBit j
      · simp [hv, maskPut_testBit]
      · simp [hv, ih]
    · have hlt : j < n + 1 ↔ j < n := by omega
      by_cases hv : v.testBit n
      · simp [hv, maskPut_testBit, hj, ih, hlt]
      · simp [hv, ih, hlt]

theorem regAfter_protIntStat_testBit (secure : Bool) (w : Nat) (d : Dev) (i : Nat) :
    (regAfter R.PROT_INT_STAT secure w d).testBit i =
      ((regGet d R.PROT_INT_STAT).toNat.testBit i && !(decide (i < 16) && w.testBit i)) := by
  rw [regAfter_single (f := ⟨"EVT", 0, 16, .w1c, 0, none⟩) (by decide) rfl, bitsPut_testBit]
  simp only [fieldWrite]
  rw [w1c_testBit, bitsOf_testBit, bitsOf_testBit]
  by_cases hi : i < 16 <;> simp [hi]

theorem regAfter_protIntEn_testBit (secure : Bool) (w : Nat) (d : Dev) (i : Nat) :
    (regAfter R.PROT_INT_EN secure w d).testBit i =
      if i < 16 then w.testBit i else (regGet d R.PROT_INT_EN).toNat.testBit i := by
  rw [regAfter_single (f := ⟨"EVT", 0, 16, .rw, 0, none⟩) (by decide) rfl, bitsPut_testBit]
  simp only [fieldWrite, fieldTakes, if_true, bitsOf_testBit]
  by_cases hi : i < 16 <;> simp [hi]

/-- Settles O49: R222 names one W1C and one RW field of 16 bits. -/
theorem protectionInterruptRegisters : Obligations.ProtectionInterruptRegisters := by
  refine ⟨⟨by decide, by decide⟩, fun secure w d i hi => ⟨?_, ?_⟩, fun secure w d i hi => ⟨?_, ?_⟩, fun i p hi => ?_,
    fun p => ⟨rfl, rfl⟩⟩
  · simp [regAfter_protIntStat_testBit, hi]
  · simp [regAfter_protIntEn_testBit, hi]
  · simp [regAfter_protIntStat_testBit, not_lt.2 hi]
  · simp [regAfter_protIntEn_testBit, not_lt.2 hi]
  · interval_cases i <;> rfl

end Sys2Proof.Machine

namespace Sys2Proof.Machine

/-! ### The load switches (O30) -/

section ChannelCommands

variable {ch : Nat} {d : Dev}

/-- The lock keeps a bound channel's command and duty to PROT (R229). -/
theorem chCmdOn_foreign (on : Bool) (h : chForeign ch d = true) : chCmdOn ch on d = d := if_pos h

/-- The command of a channel that is not PROT's alone is stored, and then followed by the channel's state. -/
theorem chCmdOn_stored (on : Bool) (h : chForeign ch d = false) : chCmdOn ch on d =
    let d1 := fput (F.LSW_CH_CMD_ON ch) on d
    if chState ch d1 = 6 then
      if !on then chanPut ch { chan ch d1 with shedZero := true } d1
      else if (chan ch d1).shedZero then chApply ch (chTurnOff ch 0 d1) else d1
    else chApply ch d1 := if_neg (by simp [h])

theorem chPwmDuty_foreign (duty : Nat) (h : chForeign ch d = true) : chPwmDuty ch duty d = d := if_pos h

theorem chPwmDuty_stored (duty : Nat) (h : chForeign ch d = false) :
    chPwmDuty ch duty d = fset (F.LSW_CH_PWM_DUTY ch) duty d := if_neg (by simp [h])

theorem chCmdClr_bound (h : isBound ch d = true) : chCmdClr ch d = d := if_pos h

theorem chCmdClr_refused (hb : isBound ch d = false) (h : chHot ch d = true ∨ (chan ch d).lastProt = some d.clk) :
    chCmdClr ch d = recordC 0x0605 ch 1 d := (if_neg (by simp [hb])).trans (if_pos (by simpa using h))

theorem chCmdClr_permitted (hb : isBound ch d = false) (hh : chHot ch d = false) (hp : (chan ch d).lastProt ≠ some d.clk) :
    chCmdClr ch d = recordC 0x0605 ch 0 (if chState ch d == 3 || chState ch d == 4 then chUnlatch ch d
      else fset (F.LSW_CH_STAT_RESTARTS ch) 0 d) := (if_neg (by simp [hb])).trans (if_neg (by simp [hh, hp]))

end ChannelCommands

section ChannelPhases

variable {ch : Nat} {d : Dev}

/-- Periods are those of a channel that is on in PWM or LAMP (R235, R237). -/
theorem pwmStart_stands (vf : Nat)
    (h : chIsOn ch d = false ∨ (fget (F.LSW_CH_CFG_MODE ch) d ≠ 1 ∧ fget (F.LSW_CH_CFG_MODE ch) d ≠ 2)) :
    pwmStart ch vf d = d := if_pos (by simpa using h)

theorem pwmStart_on (vf : Nat) (ho : chIsOn ch d = true)
    (hm : fget (F.LSW_CH_CFG_MODE ch) d = 1 ∨ fget (F.LSW_CH_CFG_MODE ch) d = 2) : pwmStart ch vf d =
    let d1 := advance (phaseWait ch d) d
    let d2 := chanPut ch { chan ch d1 with startAt := some d1.clk } d1
    pwmBegin ch (fget (F.LSW_CH_CFG_MODE ch) d) (dutyRaw ch vf d2).1 (dutyRaw ch vf d2).2 :=
  if_neg (by rcases hm with hm | hm <;> simp [ho, hm])

theorem inrushEnd_stands (low : Bool) (h : chIsOn ch d = false ∨ (chan ch d).inrush = false) : inrushEnd ch low d = d :=
  if_pos (by simpa using h)

theorem inrushEnd_under_way (low : Bool) (ho : chIsOn ch d = true) (hi : (chan ch d).inrush = true) : inrushEnd ch low d =
    let d1 := chanPut ch { chan ch d with inrush := false } d
    if flag (F.LSW_CH_STAT_LIMIT ch) d1 || (fget (F.LSW_CH_CFG_MODE ch) d1 == 3 && low) then chShortOff ch d1
    else chSettle ch d1 := if_neg (by simp [ho, hi])

end ChannelPhases

section ChannelProtection

variable {ch : Nat} {d : Dev}

theorem chOvertemp_off (byDt : Bool) (tj dt : Nat) (h : chIsOn ch d = false) : chOvertemp ch byDt tj dt d = d :=
  if_pos (by simp [h])

theorem chOvertemp_on (byDt : Bool) (tj dt : Nat) (h : chIsOn ch d = true) : chOvertemp ch byDt tj dt d =
    let d1 := fset (F.LSW_CH_TEMP_DT ch) dt (fset (F.LSW_CH_TEMP_TJ ch) tj d)
    let d2 := fput (if byDt then F.LSW_CH_FLT_DT ch else F.LSW_CH_FLT_OT ch) true d1
    let d3 := if chCoupled ch d then fput (F.LSW_CH_FLT_COUPLED ch) true d2 else d2
    chProtect ch 1 0x0602 (fun _ => tj + b2n byDt * 2 ^ 16 + b2n (chCoupled ch d) * 2 ^ 17)
      (chanPut ch { chan ch d3 with hot := true } d3) := if_neg (by simp [h])

theorem openLoad_off (h : chIsOn ch d = false) : openLoad ch d = d := if_neg (by simp [h])

theorem openLoad_shown (ho : chIsOn ch d = true) (hi : (chan ch d).inrush = false)
    (hl : max 1 (fget (F.LSW_CH_DIAG_OL_MS ch) d) ≤ (chan ch d).lowMs) :
    openLoad ch d = chDiag (F.LSW_CH_FLT_OL_ON ch) ch 0 d := if_pos (by simpa [ho, hi] using hl)

theorem offTest_stands (hiOff hiOn : Bool) (h : chState ch d ≠ 0 ∨ flag (F.LSW_CH_CFG_OLOFF_EN ch) d = false) :
    offTest ch hiOff hiOn d = d := if_pos (by rcases h with h | h <;> simp [h])

theorem offTest_made (hiOff hiOn : Bool) (hs : chState ch d = 0) (he : flag (F.LSW_CH_CFG_OLOFF_EN ch) d = true)
    (ho : flag F.LSW_SUPPLY_OV d = false) (hu : flag F.LSW_SUPPLY_UV d = false) : offTest ch hiOff hiOn d =
    if hiOff then chDiag (F.LSW_CH_FLT_SHORT_VAUX ch) ch 2 d
    else if hiOn then chDiag (F.LSW_CH_FLT_OL_OFF ch) ch 1 d else d := if_neg (by simp [hs, he, ho, hu])

end ChannelProtection

section ModuleSupply

variable {ch v : Nat} {e : Excursion} {d : Dev}

/-- Above the budget the chosen channel is shed (R250). -/
theorem lossBudget_above (hb : fget F.LSW_BUDGET_BUDGET d < fget F.LSW_PLOSS_AVG d) (hc : shedChoice d = some ch) :
    lossBudget d =
      let d1 := fput (F.LSW_CH_FLT_SHED ch) true (chTurnOff ch 6 d)
      let d2 := chanPut ch { chan ch d1 with shedZero := false } d1
      let d3 := { d2 with lsw := { d2.lsw with shed := maskPut d2.lsw.shed ch true } }
      recordC 0x060A (fget F.LSW_PLOSS_AVG d) d3.lsw.shed d3 := by
  refine (if_neg (by simp [hb])).trans ?_
  rw [hc]

/-- Within the budget, with no channel shed and no lack of one told, nothing is shed. -/
theorem lossBudget_within (hb : fget F.LSW_PLOSS_AVG d ≤ fget F.LSW_BUDGET_BUDGET d) (hs : d.lsw.shed = 0)
    (ht : d.lsw.emptyTold = false) : lossBudget d = d := if_pos (by simp [hb, hs, ht])

theorem uvStart_first (h : d.lsw.uv = none) : uvStart v d =
    let d1 := fput F.LSW_SUPPLY_UV true { d with lsw := { d.lsw with uv := some ⟨d.clk, v⟩ } }
    supplyOff (recordC 0x0608 v (onMask d1) d1) := if_neg (by simp [h])

theorem uvStart_again (h : d.lsw.uv ≠ none) : uvStart v d = d := if_pos (Option.isSome_iff_ne_none.2 h)

theorem ovStart_first (h : d.lsw.ov = none) : ovStart v d =
    let d1 := fput F.LSW_SUPPLY_OV true { d with lsw := { d.lsw with ov := some ⟨d.clk, v⟩ } }
    supplyOff (recordC 0x0606 v (onMask d1) d1) := if_neg (by simp [h])

theorem ovStart_again (h : d.lsw.ov ≠ none) : ovStart v d = d := if_pos (Option.isSome_iff_ne_none.2 h)

theorem uvEnd_under_way (h : d.lsw.uv = some e) : uvEnd d =
    let d1 := fput F.LSW_SUPPLY_UV false { d with lsw := { d.lsw with uv := none } }
    supplyBack (recordC 0x0609 (msSince e.clk d1) e.extreme d1) := by rw [uvEnd, h]

theorem uvEnd_stands (h : d.lsw.uv = none) : uvEnd d = d := by rw [uvEnd, h]

theorem ovEnd_under_way (h : d.lsw.ov = some e) : ovEnd d =
    let d1 := fput F.LSW_SUPPLY_OV false { d with lsw := { d.lsw with ov := none } }
    supplyBack (recordC 0x0607 (msSince e.clk d1) e.extreme d1) := by rw [ovEnd, h]

theorem ovEnd_stands (h : d.lsw.ov = none) : ovEnd d = d := by rw [ovEnd, h]

end ModuleSupply

/-- Settles O30: each clause is the rule of its command above. -/
theorem loadSwitchesComplete : Obligations.LoadSwitchesComplete := by
  refine ⟨fun ch on => ?_, fun ch => ?_, fun ch => ?_, fun ch on duty => ⟨?_, ?_, ?_⟩, fun ch duty => ?_, fun ch => ?_, fun ch => ?_,
    fun ch vf => ?_, fun ch vf => ?_, fun ch => ?_, fun ch => ?_, fun ch low => ?_, fun ch low => ?_, fun ch => ?_, fun ch => ?_,
    fun ch byDt tj dt => ?_, fun ch => ?_, fun ch => ?_, fun ch => ?_, fun ch byDt tj dt => ⟨?_, ?_, ?_, ?_, ?_, ?_⟩,
    fun ch hiOff hiOn => ?_, fun ch hiOff hiOn => ?_, fun vaux ms => ?_, fun ch => ?_, ?_, fun v => ?_, fun v => ?_, fun e => ?_,
    fun e => ?_, fun v => ⟨?_, ?_, ?_, ?_⟩, ?_⟩
  -- the command, the duty and CLR
  · exact completes_onBlk (exec_chCmdOn ch on) (fun _ h => h.1) fun _ ⟨_, hf, hs⟩ => (chCmdOn_stored on hf).trans (if_neg hs)
  · exact completes_onBlk (exec_chCmdOn ch false) (fun _ h => h.1) fun _ ⟨_, hf, hs⟩ => (chCmdOn_stored false hf).trans (if_pos hs)
  · exact completes_onBlk (exec_chCmdOn ch true) (fun _ h => h.1) fun _ ⟨_, hf, hs⟩ => (chCmdOn_stored true hf).trans (if_pos hs)
  · exact ignored_onBlk (exec_chCmdOn ch on) fun _ => chCmdOn_foreign on
  · exact ignored_onBlk (exec_chPwmDuty ch duty) fun _ => chPwmDuty_foreign _
  · exact ignored_onBlk (exec_chCmdClr ch) fun _ => chCmdClr_bound
  · exact completes_onBlk (exec_chPwmDuty ch duty) (fun _ h => h.1) fun _ ⟨_, h⟩ => chPwmDuty_stored _ h
  · exact completes_onBlk (exec_chCmdClr ch) (fun _ h => h.1) fun _ ⟨_, hb, h⟩ => chCmdClr_refused hb h
  · exact completes_onBlk (exec_chCmdClr ch) (fun _ h => h.1) fun _ ⟨_, hb, hh, hp⟩ => chCmdClr_permitted hb hh hp
  -- period, pull-in, ramp and inrush window
  · exact ignored_onBlk (exec_pwmPeriodStart ch vf) fun _ => pwmStart_stands vf
  · exact completes_onBlk (exec_pwmPeriodStart ch vf) (fun _ h => h.1) fun _ ⟨_, ho, hm⟩ => pwmStart_on vf ho hm
  · exact completes_onBlk (exec_pullInEnd ch) (fun _ h => h) fun _ _ => rfl
  · exact completes_onBlk (exec_slewRampEnd ch) (fun _ h => h) fun _ _ => rfl
  · exact completes_onBlk (exec_inrushWindowEnd ch low) (fun _ h => h.1) fun _ ⟨_, ho, hi⟩ => inrushEnd_under_way low ho hi
  · exact ignored_onBlk (exec_inrushWindowEnd ch low) fun _ => inrushEnd_stands low
  -- protection, and the channels that are off
  · exact completes_onBlk (exec_currentLimit ch) (fun _ h => h.1) fun _ ⟨_, ho⟩ => if_pos ho
  · exact completes_onBlk (exec_chShort ch) (fun _ h => h.1) fun _ ⟨_, ho, hi⟩ => if_pos (by simp [ho, hi])
  · exact completes_onBlk (exec_chOvertemp ch byDt tj dt) (fun _ h => h.1) fun _ ⟨_, ho⟩ => chOvertemp_on byDt _ _ ho
  · exact completes_onBlk (exec_channelRetry ch) (fun _ h => h.1) fun _ ⟨_, hs, hh, hw⟩ => if_pos (by simp [hs, hh, hw])
  · exact completes_onBlk (exec_restartCountClear ch) (fun _ h => h.1) fun _ ⟨_, ho⟩ => if_pos ho
  · exact completes_onBlk (exec_chOpenLoad ch) (fun _ h => h.1) fun _ ⟨_, ho, hi, hl⟩ => openLoad_shown ho hi hl
  · exact ignored_onBlk (exec_currentLimit ch) fun _ h => if_neg (by simp [h])
  · exact ignored_onBlk (exec_chShort ch) fun _ h => if_neg (by simp [h])
  · exact ignored_onBlk (exec_chOvertemp ch byDt tj dt) fun _ => chOvertemp_off byDt _ _
  · exact ignored_onBlk (exec_restartCountClear ch) fun _ h => if_neg (by simp [h])
  · exact ignored_onBlk (exec_chOpenLoad ch) fun _ => openLoad_off
  · exact ignored_onBlk (exec_channelRetry ch) fun _ h => if_neg (by simp [h])
  -- the off-state test
  · exact completes_onBlk (exec_offStateTest ch hiOff hiOn) (fun _ h => h.1) fun _ ⟨_, hs, he, ho, hu⟩ =>
      offTest_made hiOff hiOn hs he ho hu
  · exact ignored_onBlk (exec_offStateTest ch hiOff hiOn) fun _ => offTest_stands hiOff hiOn
  -- the module's losses and its supply
  · exact completes_onBlk (exec_lossEstimate vaux ms) (fun _ h => h) fun _ _ => rfl
  · exact completes_onBlk exec_lossBudget (fun _ h => h.1) fun _ ⟨_, hb, hc⟩ => lossBudget_above hb hc
  · exact ignored_onBlk exec_lossBudget fun _ ⟨hb, hs, ht⟩ => lossBudget_within hb hs ht
  · exact completes_onBlk (exec_supplyUvStart v) (fun _ h => h.1) fun _ ⟨_, h⟩ => uvStart_first h
  · exact completes_onBlk (exec_supplyOvStart v) (fun _ h => h.1) fun _ ⟨_, h⟩ => ovStart_first h
  · exact completes_onBlk exec_supplyUvEnd (fun _ h => h.1) fun _ ⟨_, h⟩ => uvEnd_under_way h
  · exact completes_onBlk exec_supplyOvEnd (fun _ h => h.1) fun _ ⟨_, h⟩ => ovEnd_under_way h
  · exact ignored_onBlk (exec_supplyUvStart v) fun _ => uvStart_again
  · exact ignored_onBlk (exec_supplyOvStart v) fun _ => ovStart_again
  · exact ignored_onBlk exec_supplyUvEnd fun _ => uvEnd_stands
  · exact ignored_onBlk exec_supplyOvEnd fun _ => ovEnd_stands
  · exact completes_onBlk exec_groundLoss (fun _ h => h) fun _ _ => rfl

end Sys2Proof.Machine

namespace Sys2Proof.Machine

/-! ### The resets, the power levels, sleep and the cut controls (O38) -/

section Resets

variable {d : Dev} {m : List Host.Cell}

/-- With VAUX down nothing but its rise releases the device (R512). -/
theorem resetUnlessDown_down {cause : Nat} (h : d.pwr.down = true) : resetUnlessDown cause d = d := if_pos h

/-- In S3 and S4 a rise of VAUX alone lets the device sleep on. -/
theorem vauxRise_sleeps_on {x : Bool} (ha : asleep d = true) (hl : d.pwr.lowWake = none) :
    vauxRise x m d = (m, pwrPut { d.pwr with low := false } d) := by
  rw [vauxRise, if_pos ha, hl]

/-- A wake that was decided below 16 V starts the boot as VAUX rises. -/
theorem vauxRise_wakes {x : Bool} {w : SleepMeas} (ha : asleep d = true) (hl : d.pwr.lowWake = some w) :
    vauxRise x m d = (memLose m, wakeReset w (pwrPut { d.pwr with low := false } d)) := by
  rw [vauxRise, if_pos ha, hl]

end Resets

/-- The device as BOOT begins and as the boot loader ends: booted, in the slot that PAIR_SLOT gives (R22). -/
def bootBegun (slotB : Bool) (d : Dev) : Dev :=
  { d with pwr := { d.pwr with booted := true }, pair := { d.pair with slotB } }

/-- What a boot makes of the boot loader's answer: the bank chosen, the memories and the device that it leaves, and its notes. The
engine starts, or without a bank ROM recovery (R366, R367). -/
def bootEnds (slotB : Bool) (x : Option Nat × List Host.Cell × Dev × List BootNote) : List Host.Cell × Dev :=
  let (b, m, d, ns) := x
  let told := ns ++ bankSpent b m ns
  match b with
  | none => (m, romRecovery told m (bootBegun slotB d))
  | some k => engineStart m (notesTold told (bankUse k told m (bootBegun slotB d)))

section Boot

variable {rs : List TestResult} {slotB : Bool} {m : List Host.Cell} {d : Dev}

theorem boot_stands (h : d.pwr.down = true ∨ d.pwr.booted = true ∨ d.pwr.target ≠ 0) : boot rs slotB m d = (m, d) :=
  if_pos (by simpa [or_assoc] using h)

variable (hd : d.pwr.down = false) (hb : d.pwr.booted = false) (ht : d.pwr.target = 0)
include hd hb ht

theorem boot_test_failed (h : (trestlesTest rs (bootBegun slotB d)).1 = false) :
    boot rs slotB m d = (m, (trestlesTest rs (bootBegun slotB d)).2) := by
  refine (if_neg (by simp [hd, hb, ht])).trans ?_
  rw [← bootBegun]
  dsimp only
  generalize trestlesTest rs (bootBegun slotB d) = x at h ⊢
  obtain ⟨_, d'⟩ := x
  cases h
  rfl

/-- The boot loader's answer is a variable in this proof: to compare the branches nothing of its eight tries has to be unfolded. -/
theorem boot_test_passed (h : (trestlesTest rs (bootBegun slotB d)).1 = true) :
    boot rs slotB m d = bootEnds slotB (bankBoot 8 m (cabLoad (trestlesTest rs (bootBegun slotB d)).2) []) := by
  refine (if_neg (by simp [hd, hb, ht])).trans ?_
  rw [← bootBegun]
  dsimp only
  generalize trestlesTest rs (bootBegun slotB d) = x at h ⊢
  obtain ⟨_, d'⟩ := x
  cases h
  dsimp only
  generalize bankBoot 8 m (cabLoad d') [] = y
  rfl

end Boot

section Levels

variable {d : Dev}

theorem plWrite_busy (lv : Nat) (h : flag F.PWR_PL_BUSY d = true) : plWrite lv d = pwrPut { d.pwr with plNext := some lv } d :=
  if_pos h

theorem plWrite_idle (lv : Nat) (h : flag F.PWR_PL_BUSY d = false) : plWrite lv d =
    let d1 := fset F.PWR_PL_TARGET lv d
    fput F.PWR_PL_BUSY (decide (lv % 4 ≠ fget F.PWR_PL_CUR d1)) d1 := if_neg (Bool.eq_false_iff.1 h)

theorem plChange_idle (h : flag F.PWR_PL_BUSY d = false) : plChange d = d := if_pos (by simp [h])

/-- A change with no write and no sleep held behind it ends with its record. -/
theorem plChange_ends (hb : flag F.PWR_PL_BUSY d = true) (hl : d.pwr.plNext = none) (hs : d.pwr.sleepNext = none) :
    plChange d = recordC 0x0C01 (fget F.PWR_PL_CUR d) (fget F.PWR_PL_TARGET d)
      (fput F.PWR_PL_BUSY false (fset F.PWR_PL_CUR (fget F.PWR_PL_TARGET d) d)) := by
  refine (if_neg (by simp [hb])).trans ?_
  simp only [recordC_pwr, fput, fset_pwr, hl, hs]

end Levels

section Sleep

variable {d : Dev} {m : List Host.Cell} {w : SleepMeas}

theorem addressMatch_on (data : Bool) (h : matcherOn d = true) : addressMatch data d =
    let d1 := wakeSource 48 (fput F.TWP_STATUS_MATCH true d)
    if data then fsat F.TWP_CNT_NACK_CNT 1 d1 else d1 := if_pos h

theorem addressMatch_off (data : Bool) (h : matcherOn d = false) : addressMatch data d = d := if_neg (Bool.eq_false_iff.1 h)

theorem wakeDecision_none (h : d.pwr.target = 0 ∨ d.pwr.srcs = 0) : wakeDecision w m d = (m, d) := if_pos h

theorem wakeDecision_abandons (ht : d.pwr.target ≠ 0) (hs : d.pwr.srcs ≠ 0) (hl : d.pwr.sealed = false) :
    wakeDecision w m d = (m, sleepAbandon d) := by
  rw [wakeDecision, if_neg (not_or.2 ⟨ht, hs⟩), if_pos (by simp [hl])]

theorem wakeDecision_resumes (ht : d.pwr.target ≠ 0) (hs : d.pwr.srcs ≠ 0) (hl : d.pwr.sealed = true) (h2 : d.pwr.target ≤ 2) :
    wakeDecision w m d = (if (wakeResume w d).pair.role = 4 then unalignedSweep (wakeResume w d) m else m, wakeResume w d) := by
  rw [wakeDecision, if_neg (not_or.2 ⟨ht, hs⟩), if_neg (by simp [hl]), if_pos h2]

/-- From S3 and S4 the device resets, and with VAUX below 16 V the first decision waits for it (R512). -/
theorem wakeDecision_deep (hs : d.pwr.srcs ≠ 0) (hl : d.pwr.sealed = true) (h3 : 3 ≤ d.pwr.target) : wakeDecision w m d =
    if d.pwr.low then (m, pwrPut { d.pwr with lowWake := d.pwr.lowWake <|> some w } d) else (memLose m, wakeReset w d) := by
  rw [wakeDecision, if_neg (not_or.2 ⟨by omega, hs⟩), if_neg (by simp [hl]), if_neg (by omega)]

theorem hutchClock_stopped (h : flag F.PWR_STATUS_HCLK d = false) : hutchClock d = d := if_pos (by simp [h])

/-- The crystal stops: recorded at once by a device that runs, and at return by one past the seal (R458). -/
theorem hutchClock_stops (h : flag F.PWR_STATUS_HCLK d = true) : hutchClock d =
    let d1 := fput F.PWR_STATUS_XTAL_STOP true (fput F.PWR_STATUS_HCLK false d)
    if d.pwr.sealed then pwrPut { d1.pwr with clocks := d1.pwr.clocks ++ [0] } d1
    else recordC 0x0C05 0 (fget F.PWR_CAL_ENTRY_F d1) d1 := if_neg (by simp [h])

end Sleep

/-- A write of a cut control in CONFIG_HOLD or DISARMED, or one that cuts no block that must stay whole in the other zone states,
takes effect bit by bit (R461, R462). -/
theorem cutWrite_permitted (kind t attr w : Nat) {d : Dev} (h : zone d = 0 ∨ zone d = 1 ∨ below 29 (fun i => maskBit w i &&
      !maskBit (fget (cutField kind) d) i && cutKept.contains i && maskBit (cutMask kind) i) = []) : cutWrite kind t attr w d =
    each (below 29 (fun i => maskBit (cutMask kind) i && maskBit w i != maskBit (fget (cutField kind) d) i)) (fun i d =>
      if fbit F.WLD_SECBLK_SEC i d && !attrWorld attr then recordC 0x0804 i (kind + attrTenant attr * 256 + t * 4096) d
      else
        let d := fbitPut (cutField kind) i (maskBit w i) d
        if kind = 0 then d else blockReset i d) d := by
  refine if_neg ?_
  rcases h with h | h | h
  · simp [h]
  · simp [h]
  · rw [h]
    simp

/-- Settles O38: each clause is the rule of its command above. -/
theorem resetsAndPowerComplete : Obligations.ResetsAndPowerComplete := by
  refine ⟨fun x => ?_, fun x => ?_, fun x w => ?_, fun s _ => exec_hutchRetentionLoss s, ?_, ?_, ?_, ?_, ?_, fun key => ?_, ?_, ?_,
    fun rs slotB => ?_, fun rs slotB => ⟨?_, ?_⟩, ?_, fun lv => ?_, fun lv => ?_, ?_, ?_, fun st => ?_, fun st => ?_, fun f => ?_,
    fun f => ?_, fun j => ?_, fun j => ?_, fun data => ?_, fun data => ?_, fun w => ⟨?_, ?_, ?_, ?_, ?_⟩, ?_, ?_, ?_,
    fun t attr w => ⟨?_, ?_, ?_⟩⟩
  -- power-on and the device resets
  · exact completesBoth_onBoth (exec_powerOnReset x) fun _ _ => vauxRise_awake
  · exact completes_onBoth (exec_powerOnReset x) fun _ _ ⟨ha, hl⟩ => vauxRise_sleeps_on ha hl
  · exact completesBoth_onBoth (exec_powerOnReset x) fun _ _ ⟨ha, hl⟩ => vauxRise_wakes ha hl
  · exact completes_onDev exec_rstNReset fun _ => resetUnlessDown_up
  · exact completes_onDev exec_groundReturnReset fun _ ⟨hg, hd⟩ => (if_pos hg).trans (resetUnlessDown_up hd)
  · exact completes_onDev (exec_sysReset 0x5D) fun _ hd => (if_pos rfl).trans (resetUnlessDown_up hd)
  · exact ignored_onDev exec_rstNReset fun _ => resetUnlessDown_down
  · refine ignored_onDev exec_groundReturnReset fun d h => ?_
    rcases h with hg | hd
    · exact if_neg (Bool.eq_false_iff.1 hg)
    · rw [resetUnlessDown_down hd, ite_self]
  · refine ignored_onDev (exec_sysReset key) fun d h => ?_
    rcases h with hk | hd
    · exact if_neg hk
    · rw [resetUnlessDown_down hd, ite_self]
  · exact completes_onDev exec_brownOut fun _ h => if_neg (Bool.eq_false_iff.1 h)
  · exact completes_onDev exec_brownOut fun _ h => if_pos h
  -- BOOT
  · exact settles_onSettled (exec_boot rs slotB) fun _ _ => boot_stands
  · exact settles_onSettled (exec_boot rs slotB) fun _ _ ⟨⟨hd, hb, ht⟩, hf⟩ => boot_test_failed hd hb ht hf
  · refine settles_onSettled (exec_boot rs slotB) fun m d ⟨⟨hd, hb, ht⟩, hp⟩ => ?_
    rw [boot_test_passed hd hb ht hp, bootBegun]
    generalize bankBoot 8 m _ [] = x
    rfl
  -- the acknowledgement of the wake, and the levels
  · exact completes_onDev exec_sysWakeAck fun _ _ => rfl
  · exact completes_onDev (exec_pwrPlWrite lv) fun _ => plWrite_busy _
  · exact completes_onDev (exec_pwrPlWrite lv) fun _ => plWrite_idle _
  · exact settles_onSettled exec_plChange fun m _ ⟨hb, hl, hs⟩ => congrArg (Prod.mk m) (plChange_ends hb hl hs)
  · exact settles_onSettled exec_plChange fun m _ h => congrArg (Prod.mk m) (plChange_idle h)
  -- entry into sleep
  · exact completes_onDev (exec_pwrSleepGo st) fun _ h => if_pos h
  · exact ignored_onDev (exec_pwrSleepGo st) fun _ h => if_neg (by omega)
  · exact completes_onDev (exec_sleepSeal f) fun _ ⟨ht, hs, he⟩ =>
      (if_neg (by simp [ht, hs])).trans (if_neg (Bool.eq_false_iff.1 he))
  · exact ignored_onDev (exec_sleepSeal f) fun _ h => if_pos h
  -- wake sources and the decision
  · exact completes_onDev (exec_switchWake j) fun _ h => if_pos h
  · exact ignored_onDev (exec_switchWake j) fun _ h => if_neg (Bool.eq_false_iff.1 h)
  · exact completes_onDev (exec_twpAddressMatch data) fun _ => addressMatch_on data
  · exact ignored_onDev (exec_twpAddressMatch data) fun _ => addressMatch_off data
  · exact settles_onSettled (exec_wakeDecision w) fun _ _ => wakeDecision_none
  · exact settles_onSettled (exec_wakeDecision w) fun _ _ ⟨ht, hs, hl⟩ => wakeDecision_abandons ht hs hl
  · exact settles_onSettled (exec_wakeDecision w) fun _ _ ⟨ht, hs, hl, h2⟩ => wakeDecision_resumes ht hs hl h2
  · exact settles_onSettled (exec_wakeDecision w) fun _ _ ⟨hs, hl, h3, hv⟩ =>
      (wakeDecision_deep hs hl h3).trans (if_neg (Bool.eq_false_iff.1 hv))
  · exact settles_onSettled (exec_wakeDecision w) fun _ _ ⟨hs, hl, h3, hv⟩ => (wakeDecision_deep hs hl h3).trans (if_pos hv)
  -- the hutch's clock
  · exact completes_onDev exec_hutchClock fun _ ⟨hx, hl⟩ => (hutchClock_stops hx).trans (if_neg (Bool.eq_false_iff.1 hl))
  · exact completes_onDev exec_hutchClock fun _ ⟨hx, hl⟩ => (hutchClock_stops hx).trans (if_pos hl)
  · exact ignored_onDev exec_hutchClock fun _ => hutchClock_stopped
  -- the cut controls
  · exact completes_onDev (exec_pwrCgWrite t attr w) fun _ => cutWrite_permitted 0 t.val attr.toNat w.toNat
  · exact completes_onDev (exec_pwrRstWrite t attr w) fun _ => cutWrite_permitted 1 t.val attr.toNat w.toNat
  · exact completes_onDev (exec_pwrPswWrite t attr w) fun _ => cutWrite_permitted 2 t.val attr.toNat w.toNat

end Sys2Proof.Machine

namespace Sys2Proof.Machine

/-! ### A drained store of a memory (O12) -/

@[simp] theorem leBytes_length (n v : Nat) : (leBytes n v).length = n := by
  induction n generalizing v with
  | zero => rfl
  | succ n ih => rw [leBytes, List.length_cons, ih]

section RegionControllers

/-! A decision reads the registers of the worlds and of the region controllers alone, which stand from WLD_CTRL on. -/

variable {d e : Dev} (h : ∀ a : Nat, R.WLD_CTRL ≤ a → regGet d a = regGet e a)
include h

theorem fget_of_worldRegs (r lo w : Nat) (hr : R.WLD_CTRL ≤ r) : fget ⟨r, lo, w⟩ d = fget ⟨r, lo, w⟩ e := by
  rw [fget, fget, h r hr]

theorem regionGrants_of_worldRegs (c n ty attr : Nat) : regionGrants c n ty attr d = regionGrants c n ty attr e := by
  unfold regionGrants
  extract_lets perm
  have hperm : ∀ f ∈ perm, f.reg = R.RC_CFG c n := by
    unfold perm
    split <;> simp
  cases hq : perm[ty]? with
  | none => rfl
  | some f =>
    have hreg := hperm f (List.mem_of_getElem? hq)
    simp (disch := grind) only [tenantBlocked, flag, fbit, fget_of_worldRegs h]

theorem granted_of_worldRegs (c a size ty attr : Nat) : granted c a size ty attr d = granted c a size ty attr e := by
  have hr : regionOf c a size d = regionOf c a size e := by
    simp (disch := grind) only [regionOf, regionHolds, flag, fget_of_worldRegs h]
  have ho : ownerOf a d = ownerOf a e := by simp (disch := grind) only [ownerOf, fget_of_worldRegs h]
  have hs : blockSecure a d = blockSecure a e := by simp (disch := grind) only [blockSecure, fbit, fget_of_worldRegs h]
  simp (disch := grind) only [granted, hr, regionGrants_of_worldRegs h, ho, hs, flag, fget_of_worldRegs h]

end RegionControllers

/-- What stands for a trestle beyond its registers reaches the register TL_STAT alone. -/
theorem regGet_tlPut_ne {t a : Nat} (x : Trestle) (d : Dev) (h : R.TL_STAT t ≠ a) : regGet (tlPut t x d) a = regGet d a :=
  regGet_fset_ne (f := F.TL_STAT_SB_USED t) _ _ h

theorem granted_tlPut {t : Nat} (x : Trestle) (d : Dev) (ht : t < 5) (c a size ty attr : Nat) :
    granted c a size ty attr (tlPut t x d) = granted c a size ty attr d := by
  refine granted_of_worldRegs (fun r hr => regGet_tlPut_ne x d ?_) c a size ty attr
  simp only [R.TL_STAT, R.WLD_CTRL] at hr ⊢
  omega

/-- A write that reaches a memory is no commit write: AIX_CMT stands in a peripheral slot. -/
theorem cmtWanted_memory {a size c : Nat} (data attr : Nat) (d : Dev) (h : accessTarget a size = some c) (hc : c ≠ 3) :
    cmtWanted a size data attr d = false := by
  refine cmtWanted_other _ _ _ _ _ fun ha => hc ?_
  have ht := targetOf_of_accessTarget _ _ _ h
  subst ha
  exact (Option.some.inj ht).symm

/-- STORE_DRAIN of a granted store to a memory that takes it: its bytes are written, and it leaves the buffer. -/
theorem storeDrain_memory {t c : Nat} {e : SbEntry} {rest : List SbEntry} (m : List Host.Cell) {d : Dev} (ht : t < 5)
    (hs : (tlOf t d).store = e :: rest) (hk : e.committed = true) (hc : c = 1 ∨ c = 2 ∨ c = 7 ∨ c = 8)
    (ha : accessTarget e.addr e.size = some c) (he : c = 2 → flag F.EST_CTRL_EN d = false)
    (hg : granted c e.addr e.size 1 e.attr d = true) (hb : badMeets e.addr e.size d = none) :
    storeDrain t .good false m d =
      (memWrite e.addr (leBytes e.size e.data) m, tlPut t { tlOf t d with store := rest } d) := by
  have he' : c = 2 → flag F.EST_CTRL_EN (tlPut t { tlOf t d with store := rest } d) = false := fun h2 => by
    have hr : R.TL_STAT t ≠ R.EST_CTRL := by simp only [R.TL_STAT, R.EST_CTRL]; omega
    rw [flag, fget, regGet_tlPut_ne _ _ hr]
    exact he h2
  rw [storeDrain_committed t .good e rest m d hs hk, postedWrite, busWrite_memory _ t e.attr e.addr e.size e.data c m _ ha hc he'
    ((granted_tlPut _ d ht _ _ _ _ _).trans hg) hb]

/-- Settles O12: the bytes written are those of the entry, `size` of them from its address on. -/
theorem drainedStoreReachesMemory : Obligations.DrainedStoreReachesMemory := by
  intro t e rest c s hs hk hc ha he hg hb
  have hw : cmtWanted e.addr e.size e.data e.attr s.dev = false := cmtWanted_memory _ _ _ ha (by omega)
  refine ⟨{ s with mem := memWrite e.addr (leBytes e.size e.data) s.mem
                   dev := tlPut t.val { tlOf t.val s.dev with store := rest } s.dev },
    ?_, rfl, fun a h => ?_, by rw [tlOf_tlPut_same], rfl, rfl, rfl, rfl⟩
  · rw [exec_storeDrain, execStoreDrain, onBoth]
    dsimp only
    rw [drainCmt_not_wanted _ _ e rest _ hs hw, storeDrain_memory _ t.isLt hs hk hc ha he hg hb]
    rfl
  · exact memByte_memWrite_outside _ _ (by rwa [leBytes_length])

end Sys2Proof.Machine

namespace Sys2Proof.Machine

/-! ### Trestle faults (O47) -/

theorem devFault_iff (d : Dev) : devFault d = true ↔ trestleFaulty d := by
  simp [devFault, trestleFaulty, tlState]

/-- Bit 15 of CPX_STATUS is no stored bit: it reads the condition itself (R281). -/
theorem regNow_cpxStatus_testBit_15 (d : Dev) : (regNow R.CPX_STATUS d).testBit 15 = devFault d := by
  have hv : regNow R.CPX_STATUS d = bitsPut (regGet d R.CPX_STATUS).toNat 15 1 (b2n (devFault d)) := rfl
  rw [hv, bitsPut_testBit]
  cases devFault d <;> rfl

/-- Settles O47: the register, the role message and ARM all judge by `devFault`. -/
theorem trestleFaultReported : Obligations.TrestleFaultReported := by
  refine ⟨fun d => ?_, fun d => ?_, ignored_onDev exec_protCmdArm fun d hf => protArm_stands fun ha => ?_⟩
  · rw [regNow_cpxStatus_testBit_15, devFault_iff]
  · rw [selfBarred, Bool.or_eq_true, devFault_iff, beq_iff_eq]
  · obtain ⟨-, -, -, -, hnone, -⟩ := armOk_iff.1 ha
    exact Bool.eq_false_iff.1 hnone ((devFault_iff d).2 hf)

end Sys2Proof.Machine

namespace Sys2Proof.Machine

/-! ### Execution, interrupts, mismatches and rollback (O13) -/

@[simp] theorem tlOf_tlStatePut (t u st : Nat) (d : Dev) : tlOf u (tlStatePut t st d) = tlOf u d := rfl

section Execution

variable {t : Nat} {m : List Host.Cell} {d : Dev}

/-- An instruction without an epoch rule of its own, a CSR access or a store retires with its register writes and the next pc. -/
theorem runInstr_plain (next : DWord) (x f : Option (Fin 32 × DWord)) (hf : f = none ∨ fsOff (tlOf t d).arch = false) :
    runInstr t { next, x, f } m d = retired t false (tlPut t { tlOf t d with
      arch := { regWrites { next, x, f } (tlOf t d).arch with pc := next } } d) := by
  have hm : modeTrap { next, x, f } (tlOf t d).arch = none := by
    rcases hf with rfl | hf
    · rfl
    · simp [modeTrap, hf]
  simp only [runInstr, hm]
  rfl

/-- A fetch that is granted and meets no bad word goes on to the instruction, its line in the caches. -/
theorem execInstr_plain {pa : Nat} (next : DWord) (x f : Option (Fin 32 × DWord)) (hi : tlIdle t d = false)
    (hl : (tlOf t d).load = none) (hp : fetchPa t m d = .ok pa) (hb : badMeets pa 2 d = none) :
    execInstr t { next, x, f } .good m d = runInstr t { next, x, f } m (fetchFill t pa d) := by
  have hk : checkNow (fetchCheck .good) pa 2 d = .good := checkNow_clean _ _ _ _ hb
  have hr : ∀ c : Nat, readFails c .good = false := fun _ => rfl
  have ha : isAtomic { next, x, f } = false := rfl
  unfold execInstr
  simp only [reduceCtorEq, if_false, Option.isSome_none, hi, hl, false_and, or_false]
  rw [hp]
  dsimp only
  rw [hk, hr, ha]
  rfl

theorem interruptTaken_taken {cause : Nat} (hi : tlIdle t d = false) (hl : (tlOf t d).load = none)
    (hp : cause = 3 ∨ cause = 7 ∨ irqPends t cause d = true) (ht : irqTaken t cause (tlOf t d).arch = true) :
    interruptTaken t cause d = trap t true cause 0 (tlPut t { tlOf t d with
      irq := if cause = 16 ∨ cause = 17 ∨ cause = 18 then maskPut (tlOf t d).irq cause false else (tlOf t d).irq } d) := by
  have hp' : (cause == 3 || cause == 7 || irqPends t cause d) = true := by simpa [or_assoc] using hp
  simp only [interruptTaken, hl, hi, hp', ht]
  exact if_neg (by simp)

/-- With no witness record the mismatch is attributed to nothing: the trestle faults (R273). -/
theorem mismatch_unwitnessed {group bit : Nat} (halves : Bool) (hs : tlState t d = 3) (hw : (tlOf t d).wit = [])
    (hg : bit < groupBits group) : mismatch t group bit halves d =
      tlFault t (if halves then 5 else 0) group bit
        (fset (F.TL_MISM_CYC_CYC t) (d.fcyc % 2 ^ 32) (fput (F.TL_MISM_ATTRIB t) false
          (fset (F.TL_MISM_BIT t) bit (fset (F.TL_MISM_GROUP t) group d)))) := by
  rw [mismatch, if_neg (by omega)]
  simp only [hw, List.find?_nil, Option.isSome_none]
  cases halves with
  | false => rw [if_neg (by decide), if_neg (by decide)]
  | true => rw [if_pos rfl, if_pos rfl]

/-- No halt waits: the boundary leaves the trestle as it is. -/
theorem haltCheck_none (hs : (tlOf t d).stepDue = false) (hh : (tlOf t d).haltDue = false) : haltCheck t d = d :=
  if_neg (by simp [hs, hh])

/-- ROLLBACK_RESTART restores the checkpoint, mcycle apart (R272). -/
theorem rollbackRestart_restores (hs : tlState t d = 4) (hd : (tlOf t d).stepDue = false) (hh : (tlOf t d).haltDue = false) :
    rollbackRestart t false d =
      tlStatePut t 3 (tlPut t { tlOf t d with
        arch := { (tlOf t d).shadow with csr := (tabSet (fun _ => (0 : DWord)) (tlOf t d).shadow.csr 0xB00
          (tabGet (fun _ => (0 : DWord)) (tlOf t d).arch.csr 0xB00)) } } d) := by
  rw [rollbackRestart, if_neg (not_not.2 hs), if_neg (by decide)]
  refine haltCheck_none ?_ ?_
  · rw [tlOf_tlStatePut, tlOf_tlPut_same, hd]
  · rw [tlOf_tlStatePut, tlOf_tlPut_same, hh]

theorem rollbackRestart_parity (hs : tlState t d = 4) : rollbackRestart t true d = tlFault t 3 0 0 d := by
  rw [rollbackRestart, if_neg (not_not.2 hs), if_pos rfl]

theorem rollbackRestart_stands (p : Bool) (hs : tlState t d ≠ 4) : rollbackRestart t p d = d := if_pos hs

end Execution

/-- Settles O13: each clause is the rule of its event above. -/
theorem trestleExecutionCompletes : Obligations.TrestleExecutionCompletes := by
  refine ⟨fun t x f next pa s h => ?_, fun t cause => ?_, fun t group bit halves => ?_, fun t => ?_, fun t => ?_, fun t p => ?_⟩
  · obtain ⟨hi, hl, hp, hb, hf⟩ := h
    have hf' : f = none ∨ fsOff (tlOf t.val (fetchFill t.val pa s.dev)).arch = false := by rwa [tlOf_fetchFill]
    rw [exec_executeInstruction, execExecuteInstruction, execInstr_plain next x f hi hl hp hb, runInstr_plain next x f hf']
  · exact completes_onDev (exec_interruptTaken t cause) fun d ⟨hi, hl, hp, ht⟩ => by
      have hn : cause.toNat = 3 ∨ cause.toNat = 7 ∨ irqPends t.val cause.toNat d = true :=
        hp.imp (congrArg BitVec.toNat) (Or.imp_left (congrArg BitVec.toNat))
      exact interruptTaken_taken hi hl hn ht
  · exact completes_onDev (exec_comparatorMismatch t group bit halves) fun _ ⟨hs, hw, hg⟩ => mismatch_unwitnessed halves hs hw hg
  · exact completes_onDev (exec_rollbackRestart t false) fun _ ⟨hs, hd, hh⟩ => rollbackRestart_restores hs hd hh
  · exact completes_onDev (exec_rollbackRestart t true) fun _ => rollbackRestart_parity
  · exact ignored_onDev (exec_rollbackRestart t p) fun _ => rollbackRestart_stands p

end Sys2Proof.Machine

namespace Sys2Proof.Machine

/-! ### Direct inputs and the control of a trestle (O14) -/

section Control

variable {t : Nat} {m : List Host.Cell} {d : Dev}

/-- A routed input whose synchronisers agree leaves no witness record; where DIN_IE enables it, a change raises interrupt 16 (R266). -/
theorem dinChange_routed {k : Nat} (level : Bool) (h : fget (F.TL_DIN_SRC t (k / 4) (k % 4)) d < 48) : dinChange t k level false d =
    let d1 := tlPut t { tlOf t d with din := maskPut (tlOf t d).din k level } d
    if maskBit (tlOf t d).din k ≠ level ∧ fbit (F.TL_DIN_IE_IE t) k d1 = true then localIrq t 16 d1 else d1 := by
  rw [dinChange, if_neg (not_le.2 h)]
  simp only [Bool.false_eq_true, if_false, Bool.and_eq_true, bne_iff_ne]

theorem withMonitor_congr {f g : Dev → Dev} (h : f d = g d) : withMonitor f m d = withMonitor g m d := by
  rw [withMonitor, withMonitor, h]

theorem ctrlRestart_ready (h0 : t ≠ 0) (hs : tlState t d = 1) : ctrlRestart t d = tlRelease t d := by
  simp only [ctrlRestart, if_neg h0, hs]

theorem ctrlRestart_stopped (h0 : t ≠ 0) (hs : tlState t d = 5 ∨ tlState t d = 6) : ctrlRestart t d = tlRestart t d := by
  rcases hs with hs | hs <;> simp only [ctrlRestart, if_neg h0, hs]

/-- RESTART of a READY trestle: the monitor copies its image where it has a boot descriptor (R368). -/
theorem withMonitor_restart_ready (ht : t < 5) (h0 : t ≠ 0) (hs : tlState t d = 1) :
    withMonitor (ctrlRestart t) m d = monitorCopy t m (tlRelease t d) :=
  (withMonitor_congr (ctrlRestart_ready h0 hs)).trans (withMonitor_tlRelease t ht m d hs)

theorem monitorCopy_tlRelease_none (ht : t < 5) (hb : bootOf t d = none) :
    monitorCopy t m (tlRelease t d) = (m, tlRelease t d) := by
  rw [monitorCopy, bootOf_tlRelease t t d ht, hb]

theorem monitorCopy_tlRelease_some {b : BootDesc} (ht : t < 5) (hb : bootOf t d = some b) : monitorCopy t m (tlRelease t d) =
    (memPlace b.dest (memRead m (flashBase + b.ofs) b.len) m, badCovered b.dest b.len (tlRelease t d)) := by
  rw [monitorCopy, bootOf_tlRelease t t d ht, hb]

/-- RESTART of a STOPPED or FAULTED trestle enters the test and releases nothing. -/
theorem withMonitor_restart_stopped (h0 : t ≠ 0) (hs : tlState t d = 5 ∨ tlState t d = 6) :
    withMonitor (ctrlRestart t) m d = (m, tlRestart t d) := by
  rw [withMonitor, ctrlRestart_stopped h0 hs]
  refine monitorCopies_none _ _ _ fun u hu h3 => ?_
  rw [tlState_tlRestart t u d hu] at h3
  split at h3
  · exact absurd h3 (by decide)
  · exact .inl h3

theorem withMonitor_restart_tl0 : withMonitor (ctrlRestart 0) m d = (m, d) :=
  monitorCopies_none _ _ _ fun _ _ h3 => .inl h3

theorem ctrlStop_runs (h0 : t ≠ 0) (hs : tlState t d = 3) :
    ctrlStop t d = notices t (recordC 0x0707 t 0 (tlStatePut t 5 (tlHalt t true d))) := if_neg (by simp [h0, hs])

theorem ctrlTest_permitted (h0 : t ≠ 0) (hs : tlState t d = 1 ∨ tlState t d = 5 ∨ tlState t d = 6) :
    ctrlTest t d = tlStatePut t 2 (tlPut t { tlOf t d with after := tlState t d + 10 } d) := if_pos ⟨h0, hs⟩

end Control

/-! ### The comparator test that passes (O14) -/

section TestPassed

variable {t : Nat} {m : List Host.Cell} {d : Dev}

/-- The device once a test of trestle `t` has passed: TEST_OK, and the 4,096 cycles that it takes (R283). -/
def testPassed (t : Nat) (d : Dev) : Dev :=
  fset (F.TL_TEST_TEST_CYC t) 4096 (fput (F.TL_STAT_TEST_OK t) true (regPut (R.TL_TEST t) 0 d))

/-- The test's result leaves the states of the trestles. -/
theorem tlState_testPassed (t u : Nat) (d : Dev) : tlState u (testPassed t d) = tlState u d := by
  have hne : R.TL_TEST t ≠ R.TL_STAT u := by simp only [R.TL_TEST, R.TL_STAT]; omega
  have hput : tlState u (regPut (R.TL_TEST t) 0 d) = tlState u d := by rw [tlState, fget, regGet_regPut_ne _ _ hne, tlState, fget]
  rw [tlState, testPassed, fget_fset_ne _ _ hne, fput, ← hput]
  by_cases e : R.TL_STAT t = R.TL_STAT u
  · exact fget_fset_apart _ _ e (by show 7 + 1 ≤ 32; decide) (.inl (by show 0 + 3 ≤ 7; decide))
  · exact fget_fset_ne _ _ e

/-- The first test of TL1 to TL4 leads to READY. -/
theorem testDone_pass_first (h0 : t ≠ 0) (hs : tlState t d = 2) (ha : (tlOf t d).after = 0) :
    testDone t .pass d = tlStatePut t 1 (testPassed t d) := by
  have ha' : (tlOf t (testPassed t d)).after = 0 := ha
  unfold testPassed at ha' ⊢
  rw [testDone, if_neg (not_not.2 hs)]
  simp only [ha', if_neg h0]

/-- While TL0 runs, the first test of another trestle releases none, and the management engine has nothing to resume. -/
theorem testEnds_pass_first (h0 : t ≠ 0) (hs : tlState t d = 2) (ha : (tlOf t d).after = 0) (hr : tl0Runs d = true) :
    testEnds t .pass m d = (m, tlStatePut t 1 (testPassed t d)) := by
  have hm : withMonitor (testDone t .pass) m d = (m, tlStatePut t 1 (testPassed t d)) := by
    rw [withMonitor, testDone_pass_first h0 hs ha]
    refine monitorCopies_none _ _ _ fun u hu h3 => ?_
    rw [tlState_tlStatePut t u 1 _ (by decide) hu, tlState_testPassed] at h3
    split at h3
    · exact absurd h3 (by decide)
    · exact .inl h3
  simp only [testEnds, hm, hr, Bool.not_true, Bool.false_and, Bool.false_eq_true, if_false]

end TestPassed

/-- TL0_STOPPED_RESET acts while CPX_CTRL.TL0_RESET is 1 and TL0 is STOPPED (R280). -/
theorem tl0StoppedReset_iff (d : Dev) : (tlState 0 d == 5 && flag F.CPX_CTRL_TL0_RESET d) = true ↔
    tlState 0 d = 5 ∧ flag F.CPX_CTRL_TL0_RESET d = true := by simp

/-- Settles O14: each clause is the rule of its command above. -/
theorem trestleControlCompletes : Obligations.TrestleControlCompletes := by
  have hval : ∀ {t : Fin 5}, t ≠ 0 → t.val ≠ 0 := fun h e => h (Fin.ext e)
  refine ⟨?_, fun t k level => ?_, fun t => ?_, fun t b => ?_, fun t => ?_, fun t => ?_, fun t => ?_, fun t => ?_, ?_, ?_, ?_,
    fun t => ?_, ?_, ?_⟩
  · exact completes_onDev exec_divergenceInterval fun _ _ => rfl
  · exact completes_onDev (exec_dinChange t k level false) fun _ => dinChange_routed level
  -- RESTART, STOP, TEST and CLR_CNT
  · exact completes_onBoth (exec_tlCtrlRestart t) fun _ _ ⟨h0, hs, hb⟩ =>
      (withMonitor_restart_ready t.isLt (hval h0) hs).trans (monitorCopy_tlRelease_none t.isLt hb)
  · exact completesBoth_onBoth (exec_tlCtrlRestart t) fun _ _ ⟨h0, hs, hb⟩ =>
      (withMonitor_restart_ready t.isLt (hval h0) hs).trans (monitorCopy_tlRelease_some t.isLt hb)
  · exact completes_onBoth (exec_tlCtrlRestart t) fun _ _ ⟨h0, hs⟩ => withMonitor_restart_stopped (hval h0) hs
  · exact completes_onDev (exec_tlCtrlStop t) fun _ ⟨h0, hs⟩ => ctrlStop_runs (hval h0) hs
  · exact completes_onDev (exec_tlCtrlTest t) fun _ ⟨h0, hs⟩ => ctrlTest_permitted (hval h0) hs
  · exact completes_onDev (exec_tlCtrlClrCnt t) fun _ _ => rfl
  -- TL0 ignores them
  · exact ignored_onBoth (exec_tlCtrlRestart 0) fun _ _ _ => withMonitor_restart_tl0
  · exact ignored_onDev (exec_tlCtrlStop 0) fun _ _ => if_pos (.inl rfl)
  · exact ignored_onDev (exec_tlCtrlTest 0) fun _ _ => if_neg fun h => h.1 rfl
  -- the comparator test and the reset of a STOPPED TL0
  · exact settles_onSettled (exec_comparatorTestDone t .pass) fun _ _ ⟨h0, hs, ha, hr⟩ =>
      testEnds_pass_first (hval h0) hs ha hr
  · exact completes_onDev exec_tl0StoppedReset fun d ⟨hs, hf, hd⟩ =>
      (if_pos ((tl0StoppedReset_iff d).2 ⟨hs, hf⟩)).trans (resetUnlessDown_up hd)
  · refine ignored_onDev exec_tl0StoppedReset fun d h => if_neg fun e => ?_
    obtain ⟨hs, hf⟩ := (tl0StoppedReset_iff d).1 e
    simp [hs, hf] at h

end Sys2Proof.Machine

namespace Sys2Proof.Machine

/-! ### Enables, programming, halts and resumes of the debug block (O19) -/

section DebugControl

variable {t : Nat} {d : Dev}

theorem dbgProg_keyed {raise : Nat} (hb : flag F.DBG_STAT_BUSY d = false) : dbgProg raise 0xA7 d =
    fput F.DBG_STAT_BUSY true { d with worlds := { d.worlds with raising := raise } } := if_neg (by simp [hb])

theorem dbgProg_void {raise key : Nat} (h : key ≠ 0xA7 ∨ flag F.DBG_STAT_BUSY d = true) : dbgProg raise key d = d := if_pos h.symm

/-- A programming ends BUSY; one that succeeds raises its bits (R324). -/
theorem otpProgrammed_busy (ok : Bool) (hb : flag F.DBG_STAT_BUSY d = true) : otpProgrammed ok d =
    let d1 := fput F.DBG_STAT_PROG_FAIL (!ok) (fput F.DBG_STAT_BUSY false { d with worlds := { d.worlds with raising := 0 } })
    recordC 0x080C d.worlds.raising (b2n (!ok))
      (if ok then dbgRefresh (fset F.DBG_OTP_OTP (fget F.DBG_OTP_OTP d1 ||| d.worlds.raising) d1) else d1) := if_neg (by simp [hb])

/-- With the enable of its world and no load under way, the hart halts at this boundary (R315). -/
theorem haltRequest_enabled (hs : tlState t d = 3) (hh : (tlOf t d).halted = false) (he : dbgMay true (tlOf t d).arch.w d = true)
    (hl : (tlOf t d).load = none) : haltRequest t d = haltCheck t (tlPut t { tlOf t d with stepDue := true } d) := by
  simp [haltRequest, hs, hh, he, hl]

/-- Under N_INV alone a request in secure world waits for normal world (R315). -/
theorem haltRequest_waits (hs : tlState t d = 3) (hh : (tlOf t d).halted = false) (he : dbgMay true (tlOf t d).arch.w d = false)
    (hw : (tlOf t d).arch.w = true) (hn : dbgEff 2 d = true) :
    haltRequest t d = fput F.DBG_STAT_HALT_PEND true (tlPut t { tlOf t d with haltDue := true } d) := by
  rw [hw] at he
  simp [haltRequest, hs, hh, he, hw, hn]

theorem dbgResume_halted (one : Bool) (hh : (tlOf t d).halted = true) : dbgResume t one d =
    tlPut t { tlOf t d with halted := false, stepDue := one, shadow := (tlOf t d).arch } d := if_pos hh

/-- EXTEST, CLAMP and HIGHZ begin a scan under S_INV in a zone that is not armed (R316). -/
theorem tapInstr_begins {x : TapInstr} (hx : x = .extest ∨ x = .clamp ∨ x = .highz) (he : dbgEff 0 d = true)
    (hz : zone d = 0 ∨ zone d = 1) : tapInstr x d = fput F.DBG_STAT_SCAN_ACT true d := by
  have hc : (dbgEff 0 d && (zone d == 0 || zone d == 1)) = true := by simpa [he] using hz
  rcases hx with rfl | rfl | rfl <;> exact if_pos hc

theorem tapInstr_ends {x : TapInstr} (hx : x = .bypass ∨ x = .idcode ∨ x = .sample) :
    tapInstr x d = fput F.DBG_STAT_SCAN_ACT false d := by
  rcases hx with rfl | rfl | rfl <;> rfl

end DebugControl

/-! ### Abstract commands and the system bus of the debug block (O19) -/

section DebugAccess

variable {t : Nat} {m : List Host.Cell} {d : Dev}

/-! At a halted hart under the invasive enable of its world, memory is reached through the hart, and a register by itself. -/

section Halted

variable (hh : (tlOf t d).halted = true) (he : dbgMay true (tlOf t d).arch.w d = true)
include hh he

theorem abstractCommand_memory (va : DWord) (size : Nat) (v : Option DWord) :
    abstractCommand t (.mem va size) v m d = debugMem t va.toNat size v m d := by simp [abstractCommand, hh, he]

theorem abstractCommand_reads {r : DebugReg} (hr : ∀ va size, r ≠ .mem va size) :
    abstractCommand t r none m d = (m, send (.debugData t (some (dbgGet t r d))) d) := by
  cases r with
  | mem va size => exact absurd rfl (hr va size)
  | _ => simp [abstractCommand, hh, he]

theorem abstractCommand_writes {r : DebugReg} (v : DWord) (hr : ∀ va size, r ≠ .mem va size) :
    abstractCommand t r (some v) m d = (m, dbgSet t r v d) := by
  cases r with
  | mem va size => exact absurd rfl (hr va size)
  | _ => simp [abstractCommand, hh, he]

end Halted

/-- Outside the I/O regions (R270). -/
theorem isIo_of_memory {a size c : Nat} (h : accessTarget a size = some c) (hc : c = 1 ∨ c = 2 ∨ c = 7 ∨ c = 8) : isIo a = false := by
  rw [isIo, targetOf_of_accessTarget _ _ _ h]
  rcases hc with rfl | rfl | rfl | rfl <;> rfl

/-- Without an enable of either world that matches the access, it is refused. -/
theorem systemBus_refused {write : Bool} (a size data : Nat) (chk : MemCheck) (hs : dbgMay write true d = false)
    (hn : dbgMay write false d = false) :
    systemBus write a size data chk m d = (m, send (.debugData 0 none) (dbgRefuse 2 0 false d)) := if_pos (by simp [hs, hn])

/-- A write of a memory that its region controller grants is carried out. -/
theorem systemBus_writes_memory {a size c : Nat} (data : Nat) (he : dbgMay true true d = true ∨ dbgMay true false d = true)
    (ha : accessTarget a size = some c) (hc : c = 1 ∨ c = 2 ∨ c = 7 ∨ c = 8) (hk : c = 2 → flag F.EST_CTRL_EN d = false)
    (hg : granted c a size 1 (attrOf (dbgMay true true d) 0 3 false false) d = true) (hb : badMeets a size d = none) :
    systemBus true a size data .good m d = (memWrite a (leBytes size data) m, send (.debugData 0 (some 0)) d) := by
  have hn : ¬ ((!dbgMay true true d && !dbgMay true false d) = true) := by
    rcases he with he | he <;> simp [he]
  rw [systemBus, if_neg hn]
  simp only [isIo_of_memory ha hc, if_true, busWrite_memory _ _ _ _ _ _ c m d ha hc hk hg hb]
  rfl

/-- A request that waits for no commit finds no commit write. -/
theorem cmtWanted_not_held (a size data attr : Nat) (h : d.aix.held = false) : cmtWanted a size data attr d = false := by
  simp [cmtWanted, h]

end DebugAccess

/-- Settles O19: each clause is the rule of its command above. -/
theorem debugCommandsComplete : Obligations.DebugCommandsComplete := by
  refine ⟨fun rt => ?_, fun raise => ?_, fun raise key => ?_, fun ok => ?_, fun t => ?_, fun t => ?_, fun t one => ?_, fun t r => ?_,
    fun t r v => ?_, fun t va size v => ?_, fun a size data c => ?_, fun write a size data chk => ?_, fun x => ?_, fun x => ?_⟩
  -- the enables and their one-time memory
  · exact completes_onBlk (exec_dbgRtWrite rt) (fun _ h => h) fun _ _ => rfl
  · exact completes_onBlk (exec_dbgProg raise 0xA7) (fun _ h => h.1) fun _ ⟨_, hb⟩ => dbgProg_keyed hb
  · exact ignored_onBlk (exec_dbgProg raise key) fun _ h => dbgProg_void (h.imp_left fun hk e => hk (BitVec.eq_of_toNat_eq e))
  · exact completes_onBlk (exec_otpProgrammed ok) (fun _ h => h.1) fun _ ⟨_, hb⟩ => otpProgrammed_busy ok hb
  -- halt and resume
  · exact completes_onBlk (exec_haltRequest t) (fun _ h => h.1) fun _ ⟨_, hs, hh, he, hl⟩ => haltRequest_enabled hs hh he hl
  · exact completes_onBlk (exec_haltRequest t) (fun _ h => h.1) fun _ ⟨_, hs, hh, he, hw, hn⟩ => haltRequest_waits hs hh he hw hn
  · exact completes_onBlk (exec_resumeRequest t one) (fun _ h => h.1) fun _ ⟨_, hh⟩ => dbgResume_halted one hh
  -- abstract commands
  · exact completes_onBlkBoth (exec_abstractCommand t r none) (fun _ h => h.1) fun _ _ ⟨_, hr, hh, he⟩ => abstractCommand_reads hh he hr
  · exact completes_onBlkBoth (exec_abstractCommand t r (some v)) (fun _ h => h.1) fun _ _ ⟨_, hr, hh, he⟩ =>
      abstractCommand_writes hh he v hr
  · exact completesBoth_onBlkBoth (exec_abstractCommand t (.mem va size) v) (fun _ _ h => h.1) fun _ _ ⟨_, hh, he⟩ =>
      abstractCommand_memory hh he va size v
  -- the system bus
  · refine completesBoth_onBlkBoth (exec_systemBusAccess true a size data .good) (fun _ _ h => h.1)
      fun m d ⟨_, he, ha, hc, hk, hg, hb⟩ => ?_
    dsimp only
    rw [cmtWanted_memory _ _ _ ha (by omega), systemBus_writes_memory _ he ha hc hk hg hb]
    rfl
  · refine completes_onBlkBoth (exec_systemBusAccess write a size data chk) (fun _ h => h.1) fun m d ⟨_, hs, hn, hh⟩ => ?_
    dsimp only
    rw [cmtWanted_not_held _ _ _ _ hh, Bool.and_false, systemBus_refused _ _ _ _ hs hn]
    rfl
  -- the boundary scan
  · exact completes_onBlk (exec_boundaryScanInstruction x) (fun _ h => h.1) fun _ ⟨_, hx⟩ => tapInstr_ends hx
  · exact completes_onBlk (exec_boundaryScanInstruction x) (fun _ h => h.1) fun _ ⟨_, hx, he, hz⟩ => tapInstr_begins hx he hz

end Sys2Proof.Machine

namespace Sys2Proof.Machine

/-! ### What the cabinet answers (O17, O18) -/

section Cabinet

variable {t op w n : Nat} {d e : Dev}

/-- An operation that succeeds leaves what it does. -/
theorem cabCmd_ok (h : cabDo op (cabTaken t op w d) = .ok e) : cabCmd t op w false d = e := by
  unfold cabTaken at h
  simp only [cabCmd, Bool.false_eq_true, if_false, h]

/-- An operation that fails shows its error and is recorded as refused (R318, R322). -/
theorem cabCmd_error (h : cabDo op (cabTaken t op w d) = .error n) : cabCmd t op w false d =
    recordC 0x080B op (fget F.CAB_CMD_SLOT (cabTaken t op w d) + n * 16 + t * 256)
      (fset F.CAB_STAT_ERR n (cabTaken t op w d)) := by
  unfold cabTaken at h ⊢
  simp only [cabCmd, Bool.false_eq_true, if_false, h]

/-- A write that meets a running operation sets error 1 alone (R319). -/
theorem cabCmd_busy : cabCmd t op w true d = fset F.CAB_STAT_ERR 1 d := if_pos rfl

/-! What each operation answers (R318): the slot is that of CAB_CMD.SLOT. -/

theorem cabDo_read_shows {bs : List Byte} (hb : (cabOf (fget F.CAB_CMD_SLOT d) d).bytes = some bs)
    (he : (cabOf (fget F.CAB_CMD_SLOT d) d).exp = true) : cabDo 1 d = .ok (cabShow bs d) := by
  simp [cabDo, hb, he]

theorem cabDo_read_not_exported {bs : List Byte} (hb : (cabOf (fget F.CAB_CMD_SLOT d) d).bytes = some bs)
    (he : (cabOf (fget F.CAB_CMD_SLOT d) d).exp = false) : cabDo 1 d = .error 2 := by
  simp [cabDo, hb, he]

theorem cabDo_read_empty (hb : (cabOf (fget F.CAB_CMD_SLOT d) d).bytes = none) : cabDo 1 d = .error 4 := by
  simp [cabDo, hb]

theorem cabDo_write_fills (hk : (cabOf (fget F.CAB_CMD_SLOT d) d).lk = false) (h1 : 1 ≤ fget F.CAB_CMD_LEN d)
    (h64 : fget F.CAB_CMD_LEN d ≤ 64) : cabDo 2 d = .ok (cabPut (fget F.CAB_CMD_SLOT d)
      { bytes := some (cabData (fget F.CAB_CMD_LEN d) d), exp := flag F.CAB_CMD_EXP d } d) := by
  have hl : ¬(fget F.CAB_CMD_LEN d = 0 ∨ 64 < fget F.CAB_CMD_LEN d) := by omega
  simp only [cabDo, hk, Bool.false_eq_true, if_false, if_neg hl]

theorem cabDo_write_length (hk : (cabOf (fget F.CAB_CMD_SLOT d) d).lk = false)
    (hl : fget F.CAB_CMD_LEN d = 0 ∨ 64 < fget F.CAB_CMD_LEN d) : cabDo 2 d = .error 5 := by
  simp only [cabDo, hk, Bool.false_eq_true, if_false, if_pos hl]

theorem cabDo_write_locked (hk : (cabOf (fget F.CAB_CMD_SLOT d) d).lk = true) : cabDo 2 d = .error 3 := by
  simp [cabDo, hk]

theorem cabDo_lock_filled (hb : (cabOf (fget F.CAB_CMD_SLOT d) d).bytes ≠ none) : cabDo 3 d =
    .ok (cabPut (fget F.CAB_CMD_SLOT d) { cabOf (fget F.CAB_CMD_SLOT d) d with lk := true } d) := by
  simp [cabDo, hb]

theorem cabDo_lock_empty (hb : (cabOf (fget F.CAB_CMD_SLOT d) d).bytes = none) : cabDo 3 d = .error 4 := by
  simp [cabDo, hb]

theorem cabDo_clear_empties (hk : (cabOf (fget F.CAB_CMD_SLOT d) d).lk = false) :
    cabDo 4 d = .ok (cabPut (fget F.CAB_CMD_SLOT d) {} d) := by
  simp [cabDo, hk]

theorem cabDo_clear_locked (hk : (cabOf (fget F.CAB_CMD_SLOT d) d).lk = true) : cabDo 4 d = .error 3 := by
  simp [cabDo, hk]

theorem cabDo_derive_empty (hb : (cabOf (fget F.CAB_CMD_SLOT d) d).bytes = none) : cabDo 5 d = .error 4 := by
  simp [cabDo, hb]

theorem cabDo_derive_locked (hb : (cabOf (fget F.CAB_CMD_SLOT d) d).bytes ≠ none)
    (hk : (cabOf (fget F.CAB_CMD_DST d) d).lk = true) : cabDo 5 d = .error 3 := by
  obtain ⟨key, hb⟩ := Option.ne_none_iff_exists'.1 hb
  simp [cabDo, hb, hk]

theorem cabDo_derive_length (hb : (cabOf (fget F.CAB_CMD_SLOT d) d).bytes ≠ none)
    (hk : (cabOf (fget F.CAB_CMD_DST d) d).lk = false) (hl : fget F.CAB_CMD_LEN d = 0 ∨ 64 < fget F.CAB_CMD_LEN d) :
    cabDo 5 d = .error 5 := by
  obtain ⟨key, hb⟩ := Option.ne_none_iff_exists'.1 hb
  simp only [cabDo, hb, hk, Bool.false_eq_true, if_false, if_pos hl]

theorem cabDo_derive_writes {key : List Byte} (hb : (cabOf (fget F.CAB_CMD_SLOT d) d).bytes = some key)
    (hk : (cabOf (fget F.CAB_CMD_DST d) d).lk = false) (h1 : 1 ≤ fget F.CAB_CMD_LEN d) (h64 : fget F.CAB_CMD_LEN d ≤ 64) :
    cabDo 5 d = .ok (cabPut (fget F.CAB_CMD_DST d) { bytes := some (hmac384 key (cabData (fget F.CAB_CMD_LEN d) d)) } d) := by
  have hl : ¬(fget F.CAB_CMD_LEN d = 0 ∨ 64 < fget F.CAB_CMD_LEN d) := by omega
  simp only [cabDo, hb, hk, Bool.false_eq_true, if_false, if_neg hl]

theorem cabDo_undefined (h : 6 ≤ op) : cabDo op d = .error 6 := by
  obtain ⟨k, rfl⟩ := Nat.exists_eq_add_of_le' h
  rfl

end Cabinet

/-- Settles O17: each clause by what its operation answers. -/
theorem cabinetOperationsComplete : Obligations.CabinetOperationsComplete := by
  refine ⟨fun t w bs => ?_, fun t w bs => ?_, fun t w => ?_, fun t w => ?_, fun t w => ?_, fun t w => ?_, fun t w => ?_,
    fun t w => ?_, fun t w => ?_, fun t w key => ?_, fun t w => ?_, fun t w e => ?_, fun t op w => ?_,
    fun t op w => ⟨?_, ?_, ?_, ?_, ?_, ?_⟩⟩
  -- READ
  · exact completes_onDev (exec_cabRead t w false) fun _ ⟨hb, he⟩ => cabCmd_ok (cabDo_read_shows hb he)
  · exact completes_onDev (exec_cabRead t w false) fun _ ⟨hb, he⟩ => cabCmd_error (cabDo_read_not_exported hb he)
  · exact completes_onDev (exec_cabRead t w false) fun _ hb => cabCmd_error (cabDo_read_empty hb)
  -- WRITE
  · exact completes_onDev (exec_cabWrite t w false) fun _ ⟨hk, h1, h64⟩ => cabCmd_ok (cabDo_write_fills hk h1 h64)
  · exact completes_onDev (exec_cabWrite t w false) fun _ ⟨hk, hl⟩ => cabCmd_error (cabDo_write_length hk hl)
  · exact completes_onDev (exec_cabWrite t w false) fun _ hk => cabCmd_error (cabDo_write_locked hk)
  -- LOCK, CLEAR and DERIVE
  · exact completes_onDev (exec_cabLock t w false) fun _ hb => cabCmd_ok (cabDo_lock_filled hb)
  · exact completes_onDev (exec_cabClear t w false) fun _ hk => cabCmd_ok (cabDo_clear_empties hk)
  · exact completes_onDev (exec_cabClear t w false) fun _ hk => cabCmd_error (cabDo_clear_locked hk)
  · exact completes_onDev (exec_cabDerive t w false) fun _ ⟨hb, hk, h1, h64⟩ => cabCmd_ok (cabDo_derive_writes hb hk h1 h64)
  · exact completes_onDev (exec_cabLock t w false) fun _ hb => cabCmd_error (cabDo_lock_empty hb)
  · refine completes_onDev (exec_cabDerive t w false) fun _ h => cabCmd_error ?_
    rcases h with ⟨hb, rfl⟩ | ⟨hb, hk, rfl⟩ | ⟨hb, hk, hl, rfl⟩
    · exact cabDo_derive_empty hb
    · exact cabDo_derive_locked hb hk
    · exact cabDo_derive_length hb hk hl
  -- operations 6 to 15
  · exact completes_onDev (exec_cabUndefinedOp t op w false) fun _ _ => cabCmd_error (cabDo_undefined (Nat.le_add_left _ _))
  -- a write that meets a running operation
  · exact completes_onDev (exec_cabRead t w true) fun _ _ => cabCmd_busy
  · exact completes_onDev (exec_cabWrite t w true) fun _ _ => cabCmd_busy
  · exact completes_onDev (exec_cabLock t w true) fun _ _ => cabCmd_busy
  · exact completes_onDev (exec_cabClear t w true) fun _ _ => cabCmd_busy
  · exact completes_onDev (exec_cabDerive t w true) fun _ _ => cabCmd_busy
  · exact completes_onDev (exec_cabUndefinedOp t op w true) fun _ _ => cabCmd_busy

end Sys2Proof.Machine

namespace Sys2Proof.Machine

/-! ### A cabinet operation that shows an error (O18) -/

/-- An event whose status bit stands in another register leaves a field, the counter of lost events apart. -/
theorem eventLeaves_of_flag {code p1 r i : Nat} {f : Fld} (he : eventFlag code p1 = some (r, i)) (hl : f.reg ≠ R.REC_LOST)
    (hr : r ≠ f.reg) : EventLeaves code p1 f :=
  ⟨hl, fun e h => by rw [he] at h; cases h; exact hr⟩

@[simp] theorem recordC_worlds (code p1 p2 : Nat) (d : Dev) : (recordC code p1 p2 d).worlds = d.worlds :=
  record_keeps (·.worlds) (fun _ _ => rfl) (fun _ _ _ => rfl) _ _ _ _ _

/-- A check that refuses has not failed where there is no error. -/
theorem ok_of_ite_error {c : Prop} [Decidable c] {n : Nat} {x : Except Nat Dev} {e : Dev}
    (h : (if c then .error n else x) = .ok e) : x = .ok e := by
  split at h
  · cases h
  · exact h

/-- What an operation without an error does: nothing, bytes shown in CAB_DATA, or one slot changed. -/
theorem cabDo_ok_cases {op : Nat} {d e : Dev} (h : cabDo op d = .ok e) :
    e = d ∨ (∃ bs, e = cabShow bs d) ∨ ∃ s x, e = cabPut s x d := by
  dsimp only [cabDo] at h
  split at h
  · exact .inl (Except.ok.inj h).symm
  · split at h
    · cases h
    · split at h
      · exact .inr (.inl ⟨_, (Except.ok.inj h).symm⟩)
      · cases h
  · exact .inr (.inr ⟨_, _, (Except.ok.inj (ok_of_ite_error (ok_of_ite_error h))).symm⟩)
  · exact .inr (.inr ⟨_, _, (Except.ok.inj (ok_of_ite_error h)).symm⟩)
  · exact .inr (.inr ⟨_, _, (Except.ok.inj (ok_of_ite_error h)).symm⟩)
  · split at h
    · cases h
    · exact .inr (.inr ⟨_, _, (Except.ok.inj (ok_of_ite_error (ok_of_ite_error h))).symm⟩)
  · cases h

/-! CAB_STAT stands below CAB_ATTR and CAB_DATA, whatever slot or word is written. -/

theorem cabStat_cabShow (bs : List Byte) (d : Dev) : regGet (cabShow bs d) R.CAB_STAT = regGet d R.CAB_STAT :=
  each_keeps (regGet · R.CAB_STAT) _ (fun w d => regGet_fset_ne (f := F.CAB_DATA_DATA w) _ d
    (by simp only [R.CAB_DATA, R.CAB_STAT]; omega)) _ d

theorem cabStat_cabPut (s : Nat) (x : CabSlot) (d : Dev) : regGet (cabPut s x d) R.CAB_STAT = regGet d R.CAB_STAT :=
  regGet_regPut_ne _ _ (by simp only [R.CAB_ATTR, R.CAB_STAT]; omega)

/-- An operation without an error shows none. -/
theorem cabErr_cabDo_ok {op : Nat} {d e : Dev} (h : cabDo op d = .ok e) : fget F.CAB_STAT_ERR e = fget F.CAB_STAT_ERR d := by
  rcases cabDo_ok_cases h with rfl | ⟨bs, rfl⟩ | ⟨s, x, rfl⟩
  · rfl
  · rw [fget, cabStat_cabShow, fget]
  · rw [fget, cabStat_cabPut, fget]

theorem cabErr_cabTaken (t op w : Nat) (d : Dev) : fget F.CAB_STAT_ERR (cabTaken t op w d) = 0 :=
  fget_fset_same F.CAB_STAT_ERR 0 _ (by decide)

/-- The taking of an operation leaves every register but CAB_CMD and CAB_STAT. -/
theorem regGet_cabTaken {t op w a : Nat} {d : Dev} (hc : R.CAB_CMD ≠ a) (hs : R.CAB_STAT ≠ a) :
    regGet (cabTaken t op w d) a = regGet d a := by
  rw [cabTaken, regGet_fset_ne (f := F.CAB_STAT_ERR) _ _ hs, regGet_fset_ne (f := F.CAB_STAT_OWNER) _ _ hs, regGet_regPut_ne _ _ hc]

/-- An error shown, and recorded as refused, leaves CAB_DATA. -/
theorem cabData_refused {op n p t w i : Nat} {d : Dev} (hi : i < 16) :
    fget (F.CAB_DATA_DATA i) (recordC 0x080B op p (fset F.CAB_STAT_ERR n (cabTaken t op w d))) = fget (F.CAB_DATA_DATA i) d := by
  have hlost : R.CAB_DATA i ≠ R.REC_LOST := by simp only [R.CAB_DATA, R.REC_LOST]; omega
  have hflag : R.WLD_INT_STAT ≠ R.CAB_DATA i := by simp only [R.CAB_DATA, R.WLD_INT_STAT]; omega
  have hcmd : R.CAB_CMD ≠ R.CAB_DATA i := by simp only [R.CAB_DATA, R.CAB_CMD]; omega
  have hstat : R.CAB_STAT ≠ R.CAB_DATA i := by simp only [R.CAB_DATA, R.CAB_STAT]; omega
  rw [recordC_fget _ _ _ _ _ (eventLeaves_of_flag rfl hlost hflag), fget_fset_ne _ _ hstat, fget, regGet_cabTaken hcmd hstat, fget]

/-- Settles O18: an operation that succeeds shows no error, and one that fails writes CAB_CMD, CAB_STAT and its record alone. -/
theorem cabinetErrorLeavesSlots : Obligations.CabinetErrorLeavesSlots := by
  intro t op w busy d _ _ herr
  cases busy with
  | true =>
    refine ⟨rfl, fun i _ => fget_fset_ne (f := F.CAB_STAT_ERR) _ _ ?_⟩
    simp only [R.CAB_DATA, R.CAB_STAT]
    omega
  | false =>
    cases hdo : cabDo op (cabTaken t op w d) with
    | ok e => exact absurd (by rw [cabCmd_ok hdo, cabErr_cabDo_ok hdo, cabErr_cabTaken]) herr
    | error n =>
      rw [cabCmd_error hdo]
      exact ⟨congrArg (·.cab) (recordC_worlds _ _ _ _), fun i hi => cabData_refused hi⟩

end Sys2Proof.Machine

namespace Sys2Proof.Machine

/-! ### One-time memory and the hutch over the resets (O53) -/

/-- One-time memory and the hutch's registers stand over a device reset. -/
theorem regGet_deviceReset_kept {a : Nat} (cause : Nat) (d : Dev) (ha : a ∈ otpRegs ++ hutchRegs) :
    regGet (deviceReset cause d) a = regGet d a := by
  have hs : ∀ r ∈ otpRegs ++ hutchRegs, resetSets r = false := by decide
  rw [regGet_deviceReset _ _ _ (hs a ha), if_pos ha]

/-- One-time memory stands over a power-on. -/
theorem regGet_powerOn_otp {a : Nat} (x : Bool) (d : Dev) (ha : a ∈ otpRegs) : regGet (powerOn x d) a = regGet d a := by
  have hs : ∀ r ∈ otpRegs, R.PWR_STATUS ≠ r := by decide
  rw [regGet_powerOn _ _ _ (hs a ha), if_pos ha]

theorem regGet_resetUnlessDown_kept {a : Nat} (cause : Nat) (d : Dev) (ha : a ∈ otpRegs ++ hutchRegs) :
    regGet (resetUnlessDown cause d) a = regGet d a := by
  unfold resetUnlessDown
  split
  · rfl
  · exact regGet_deviceReset_kept cause d ha

/-- The registers that tell of a sleep that has ended. -/
def sleepRegs : List Nat := [R.PWR_STATUS, R.PWR_ELAPSED_S, R.PWR_ELAPSED_MS, R.PWR_CAL_EXIT, R.PWR_OPSEC]

/-- The end of a sleep sets those registers alone. -/
theorem regGet_elapsedPut (m : SleepMeas) (d : Dev) {a : Nat} (h : ∀ r ∈ sleepRegs, r ≠ a) :
    regGet (elapsedPut m d).2 a = regGet d a := by
  have set (f : Fld) (hf : f.reg ∈ sleepRegs) (v : Nat) (d : Dev) : regGet (fset f v d) a = regGet d a :=
    regGet_fset_ne v d (h _ hf)
  have pwr (p : Pwr) (d : Dev) : regGet (pwrPut p d) a = regGet d a := rfl
  unfold elapsedPut
  split
  · simp (disch := decide) only [fput, set]
  · cases sleepLength m d
    simp (disch := decide) only [fput, set, apply_ite (regGet · a), pwr, ite_self]

/-- A rise of VAUX is a power-on, a wake, or no more than the end of the low supply: one-time memory stands. -/
theorem regGet_vauxRise_otp {a : Nat} (x : Bool) (m : List Host.Cell) (d : Dev) (ha : a ∈ otpRegs) :
    regGet (vauxRise x m d).2 a = regGet d a := by
  cases hs : asleep d with
  | false => rw [vauxRise_awake hs, regGet_powerOn_otp x d ha]
  | true =>
    cases hl : d.pwr.lowWake with
    | none => rw [vauxRise_sleeps_on hs hl]; rfl
    | some w =>
      have hwake : ∀ r ∈ otpRegs, ∀ q ∈ [R.SYS_WAKE, R.SYS_WAKE_MASK_LO, R.SYS_WAKE_MASK_HI], q ≠ r := by decide
      have hsleep : ∀ r ∈ otpRegs, ∀ q ∈ sleepRegs, q ≠ r := by decide
      rw [vauxRise_wakes hs hl, regGet_wakeReset _ _ _ (hwake a ha),
        regGet_deviceReset_kept _ _ (List.mem_append_left _ ha), regGet_elapsedPut _ _ (hsleep a ha)]
      rfl

/-- Settles O53: each cause of a reset is a device reset, a power-on, or leaves the registers. -/
theorem oneTimeAndHutchMemorySurviveResets : Obligations.OneTimeAndHutchMemorySurviveResets := by
  refine ⟨fun cause a d ha => regGet_deviceReset_kept cause d ha, fun x a d ha => regGet_powerOn_otp x d ha,
    fun s t => ⟨fun h a ha => ?_, fun key h a ha => ?_, fun x h a ha => ?_⟩⟩
  · rw [exec_rstNReset, execRstNReset, onDev_next] at h
    cases h
    exact regGet_resetUnlessDown_kept 1 s.dev ha
  · rw [exec_sysReset, execSysReset, onDev_next] at h
    cases h
    dsimp only
    split
    · exact regGet_resetUnlessDown_kept 4 s.dev ha
    · rfl
  · rw [exec_powerOnReset, execPowerOnReset, onBoth] at h
    cases h
    exact regGet_vauxRise_otp x s.mem s.dev ha

/-! ### OTP security versions and DBG_OTP (O57) -/

/-- The security versions stand in fields of their own (R501). -/
theorem fget_svnField_fset {c k v : Nat} (d : Dev) (hc : c < 5) (hk : k < 5) :
    fget (svnField k) (fset (svnField c) v d) = if k = c then v % 2 ^ 7 else fget (svnField k) d := by
  by_cases e : k = c
  · subst e
    have hw : (svnField k).width = 7 := by unfold svnField; split <;> rfl
    have hf : (svnField k).lo + (svnField k).width ≤ 32 := by unfold svnField; split <;> dsimp only <;> omega
    rw [if_pos rfl, fget_fset_same _ _ _ hf, hw]
  · rw [if_neg e]
    unfold svnField
    split_ifs
    · exact fget_fset_apart _ _ rfl (by dsimp only; omega) (by dsimp only; omega)
    · exact fget_fset_ne _ _ (by show R.UPD_SVN_HI ≠ R.UPD_SVN_LO; decide)
    · exact fget_fset_ne _ _ (by show R.UPD_SVN_LO ≠ R.UPD_SVN_HI; decide)
    · exact absurd (by omega) e

/-- The registers of the security versions are no status registers. -/
theorem svnField_reg_ne (c : Nat) {a : Nat} (h : a ≠ R.UPD_SVN_LO ∧ a ≠ R.UPD_SVN_HI) : a ≠ (svnField c).reg := by
  unfold svnField
  split
  · exact h.1
  · exact h.2

/-- A record of the update block leaves the security versions. -/
theorem fget_svnField_recordC {code p1 i : Nat} (p2 c : Nat) (d : Dev) (he : eventFlag code p1 = some (R.UPD_INT_STAT, i)) :
    fget (svnField c) (recordC code p1 p2 d) = fget (svnField c) d :=
  recordC_fget _ _ _ _ _ (eventLeaves_of_flag he (svnField_reg_ne c (by decide)).symm (svnField_reg_ne c (by decide)))

/-- A security version raised where it is lower lowers none. -/
theorem svnField_le_raise {c k v : Nat} (d : Dev) (hc : c < 5) (hk : k < 5) (hv : v ≤ 127) :
    fget (svnField k) d ≤
      fget (svnField k) (if fget (svnField c) d < v then recordC 0x0E09 c v (fset (svnField c) v d) else d) := by
  split
  next hlow =>
    rw [fget_svnField_recordC _ _ _ rfl, fget_svnField_fset _ hc hk]
    split
    next e =>
      subst e
      omega
    · exact le_rfl
  · exact le_rfl

/-- What no single operation lowers, a list of them does not lower. -/
theorem le_each {α : Type} (p : Dev → Nat) (f : α → Dev → Dev) (l : List α) (h : ∀ a ∈ l, ∀ d, p d ≤ p (f a d)) (d : Dev) :
    p d ≤ p (each l f d) := by
  induction l generalizing d with
  | nil => exact le_rfl
  | cons a l ih =>
    rw [each_cons]
    exact (h a List.mem_cons_self d).trans (ih (fun b hb => h b (List.mem_cons_of_mem _ hb)) (f a d))

/-- A change of the update state leaves the fields of other registers. -/
theorem fget_updStateTo {f : Fld} (st : Nat) (d : Dev) (h : R.UPD_STATUS ≠ f.reg) : fget f (updStateTo st d) = fget f d := by
  unfold updStateTo
  dsimp only
  split
  · exact fget_fset_ne _ _ h
  · rw [fget_toPartner, fget_fset_ne _ _ h]

/-- The confirmation of a bank lowers no security version (R501). -/
theorem svnField_le_bankConfirmed {k : Nat} (m : List Host.Cell) (d : Dev) (hk : k < 5) :
    fget (svnField k) d ≤ fget (svnField k) (bankConfirmed m d).2 := by
  unfold bankConfirmed
  split
  · exact le_rfl
  · extract_lets b m' d1 d2
    have hstat : R.UPD_STATUS ≠ (svnField k).reg := svnField_reg_ne k (by decide)
    have h1 : fget (svnField k) d1 = fget (svnField k) d := by
      rw [fget_svnField_recordC _ _ _ rfl, fput, fget_fset_ne _ _ hstat]
    rw [fget_updStateTo _ _ hstat, ← h1]
    exact le_each _ _ _ (fun c hc e => svnField_le_raise e (List.mem_range.1 hc) hk (Nat.min_le_left _ _)) d1

section Lifecycle

variable {d : Dev}

/-- A record of the worlds' block leaves DBG_OTP. -/
theorem dbgOtp_recordC {code p1 i : Nat} (p2 : Nat) (d : Dev) (he : eventFlag code p1 = some (R.WLD_INT_STAT, i)) :
    fget F.DBG_OTP_OTP (recordC code p1 p2 d) = fget F.DBG_OTP_OTP d :=
  recordC_fget _ _ _ _ _ (eventLeaves_of_flag he (by decide) (by decide))

theorem dbgOtp_tlPut (t : Nat) (x : Trestle) (d : Dev) : fget F.DBG_OTP_OTP (tlPut t x d) = fget F.DBG_OTP_OTP d := by
  rw [fget, regGet_tlPut_ne _ _ (by simp only [R.TL_STAT, R.DBG_OTP]; omega), fget]

theorem dbgOtp_dbgResume (t : Nat) (step : Bool) (d : Dev) :
    fget F.DBG_OTP_OTP (dbgResume t step d) = fget F.DBG_OTP_OTP d := by
  unfold dbgResume
  dsimp only
  split
  · exact dbgOtp_tlPut _ _ _
  · rfl

/-- The enables follow DBG_OTP and leave it (R324). -/
theorem dbgOtp_dbgRefresh (d : Dev) : fget F.DBG_OTP_OTP (dbgRefresh d) = fget F.DBG_OTP_OTP d := by
  unfold dbgRefresh
  extract_lets old new
  split
  · rfl
  next d1 d2 d3 _ =>
    have h1 : fget F.DBG_OTP_OTP d1 = fget F.DBG_OTP_OTP d := by
      rw [dbgOtp_recordC _ _ rfl, fget_fset_ne _ _ (by decide)]
    have h2 : fget F.DBG_OTP_OTP d2 = fget F.DBG_OTP_OTP d1 := by
      refine each_keeps (fget F.DBG_OTP_OTP ·) _ (fun t e => ?_) _ d1
      split
      · rfl
      · exact dbgOtp_dbgResume t false e
    have h3 : fget F.DBG_OTP_OTP d3 = fget F.DBG_OTP_OTP d2 := by
      unfold d3
      split
      · rfl
      · rw [fput, fget_fset_ne _ _ (by decide)]
        exact each_keeps (fget F.DBG_OTP_OTP ·) _ (fun t e => dbgOtp_tlPut t _ e) _ d2
    split
    · rw [h3, h2, h1]
    · rw [fput, fget_fset_ne _ _ (by decide), h3, h2, h1]

end Lifecycle

/-- Settles O57: a security version is written where it is lower, and DBG_OTP is written as its bits or those to be raised. -/
theorem securityVersionsAndLifecycleNeverFall : Obligations.SecurityVersionsAndLifecycleNeverFall := by
  refine ⟨fun s t c hc h => ?_, fun ok s t h hw hb => ?_⟩
  · rw [exec_bankConfirmed, execBankConfirmed, onBlkBoth] at h
    cases h
    split
    · exact le_rfl
    · exact svnField_le_bankConfirmed s.mem s.dev hc
  · rw [exec_otpProgrammed, execOtpProgrammed, onBlk_whole _ _ _ hw] at h
    cases h
    dsimp only
    rw [otpProgrammed_busy ok hb]
    extract_lets _ d1
    have h1 : fget F.DBG_OTP_OTP d1 = fget F.DBG_OTP_OTP s.dev := by
      simp only [d1, fput]
      rw [fget_fset_ne _ _ (by decide), fget_fset_ne _ _ (by decide)]
      rfl
    rw [dbgOtp_recordC _ _ rfl]
    cases ok with
    | false => exact h1
    | true => rw [if_pos rfl, if_pos rfl, dbgOtp_dbgRefresh, fget_fset_same _ _ _ (by decide), h1]

end Sys2Proof.Machine

namespace Sys2Proof.Machine

/-! ### The world of traps and returns (O51) -/

/-- CSR 0x7C0 has no other name in VS-mode. -/
theorem csrName_world (a : Arch) : csrName a 0x7C0 = 0x7C0 := by
  have h : [0x100, 0x104, 0x105, 0x140, 0x141, 0x142, 0x143, 0x144, 0x180].contains 0x7C0 = false := by decide
  rw [csrName, h, Bool.and_false]
  rfl

/-- CSR 0x7C0 shows W and MPW (R290). -/
theorem csrRead_world (t : Nat) (d : Dev) :
    csrRead t 0x7C0 d = b2n (tlOf t d).arch.w + 2 * b2n ((tlOf t d).arch.mpw || t == 0) := by
  simp only [csrRead, csrName_world]

theorem csrWrite_world (t v : Nat) (d : Dev) : csrWrite t 0x7C0 v d = tlPut t { tlOf t d with
    arch := if t = 0 then (tlOf t d).arch else { (tlOf t d).arch with mpw := v.testBit 1 } } d := by
  simp only [csrWrite, csrName_world]

/-- CSR 0x7C0 is one of M-mode. -/
theorem csrTrap_world (t : Nat) (write : Bool) (d : Dev) :
    csrTrap t 0x7C0 write d = if (tlOf t d).arch.priv = 3 then none else some 2 := by
  have he : csrExists 0x7C0 = true := by decide
  have hn : normalOnly 0x7C0 = false := by decide
  have hv : vmTrap (tlOf t d).arch 0x7C0 = none := by simp [vmTrap]
  simp [csrTrap, he, hn, hv]

/-- Settles O51: each clause by what the CSR access, the trap or the return does. -/
theorem worldOfTrapsAndReturns : Obligations.WorldOfTrapsAndReturns := by
  refine ⟨fun t d => ?_, fun t v d _ => ?_, csrTrap_world, fun t cause tval intr a => ⟨rfl, fun h => ?_, fun h => ?_⟩,
    fun t a => ⟨rfl, fun ⟨hm, ht⟩ => ?_, fun h => ?_⟩⟩
  · rw [csrRead_world]
    simp only [b2n, Bool.or_eq_true, beq_iff_eq, mul_ite, mul_one, mul_zero]
  · rw [csrWrite_world, tlOf_tlPut_same]
  · simp [trapM, h]
  · simp [trapM, h]
  · simp [retM, beq_false_of_ne hm, ht]
  · rcases h with h | h <;> simp [retM, h]

/-! ### The gateway (O15) -/

section Gateway

variable {t c why : Nat} {rs1 : DWord} {m : List Host.Cell} {d : Dev}

/-- A WGATE that R294 permits enters M-mode of secure world behind the gate word, in an epoch of its own (R295, R298). -/
theorem wgate_enters (hi : tlIdle t d = false) (hq : irqNext t d = none) (ht : wgateTrap (tlOf t (epochCommit t d)).arch = none)
    (hr : wgateReason rs1.toNat m (epochCommit t d) = none) : wgate t rs1 m d =
    let d1 := epochCommit t d
    let x := tlOf t d1
    let st := mst x.arch
    retired t true (tlPut t { x with arch := { mstPut (bitsPut st 3 1 0) x.arch with
      wepc := x.arch.pc + 4, wstatus := BitVec.ofNat 5 (1 + 1 * 2 + b2n (st.testBit 3) * 16), w := true, priv := 3, v := false,
      pc := rs1 + 4 } } d1) := by
  simp only [wgate, hi, hq, ht, hr, Bool.false_eq_true, if_false]

/-- A WGATE whose check fails raises exception 24 and is recorded with the reason (R294). -/
theorem wgate_fails (hi : tlIdle t d = false) (hq : irqNext t d = none) (ht : wgateTrap (tlOf t (epochCommit t d)).arch = none)
    (hr : wgateReason rs1.toNat m (epochCommit t d) = some why) : wgate t rs1 m d =
    trap t false 24 rs1.toNat
      (recordC 0x0801 rs1.toNat ((rs1.toNat >>> 32) % 256 + why * 256 + t * 2 ^ 16) (epochCommit t d)) := by
  simp only [wgate, hi, hq, ht, hr, Bool.false_eq_true, if_false]

/-- A WGATE elsewhere than in HS mode raises its exception. -/
theorem wgate_traps (hi : tlIdle t d = false) (hq : irqNext t d = none)
    (ht : wgateTrap (tlOf t (epochCommit t d)).arch = some c) : wgate t rs1 m d = trap t false c 0 (epochCommit t d) := by
  simp only [wgate, hi, hq, ht, Bool.false_eq_true, if_false]

/-- An interrupt that the hart takes goes before WGATE (R298). -/
theorem wgate_interrupted (hi : tlIdle t d = false) (hq : irqNext t d = some c) : wgate t rs1 m d = interruptTaken t c d := by
  simp only [wgate, hi, hq, Bool.false_eq_true, if_false]

theorem wgate_idle (hi : tlIdle t d = true) : wgate t rs1 m d = d := if_pos hi

/-- WGATE reads the memories and leaves them. -/
theorem exec_wgate_onBoth (t : Fin 5) (rs1 : DWord) (s : State) :
    exec (.wgate t rs1) s = onBoth (fun m d => (m, wgate t.val rs1 m d)) s := rfl

/-- WRET is permitted in M-mode with W and ACT (R296). -/
theorem wret_permitted_iff (a : Arch) :
    (a.priv == 3 && a.w && a.wstatus.getLsbD 0) = true ↔ a.priv = 3 ∧ a.w = true ∧ a.wstatus.getLsbD 0 = true := by
  simp [and_assoc]

theorem wret_returns (hi : tlIdle t d = false) (hp : (tlOf t d).arch.priv = 3) (hw : (tlOf t d).arch.w = true)
    (ha : (tlOf t d).arch.wstatus.getLsbD 0 = true) : wret t d =
    let d1 := epochCommit t d
    let x := tlOf t d1
    let st := x.arch.wstatus.toNat
    secureIrqTake t (retired t true (tlPut t { x with arch := { mstPut (bitsPut (mst x.arch) 3 1 (bitsOf st 4 1)) x.arch with
      priv := bitsOf st 1 2, v := st.testBit 3 && t != 0 && bitsOf st 1 2 != 3, wstatus := BitVec.ofNat 5 (st / 2 * 2),
      w := t == 0 || bitsOf st 1 2 == 3, pc := x.arch.wepc } } d1)) := by
  have hok := (wret_permitted_iff (tlOf t d).arch).2 ⟨hp, hw, ha⟩
  simp only [wret, hi, hok, Bool.not_true, Bool.false_eq_true, if_false]

theorem wret_illegal (hi : tlIdle t d = false) (h : (tlOf t d).arch.priv ≠ 3 ∨ (tlOf t d).arch.w = false ∨
    (tlOf t d).arch.wstatus.getLsbD 0 = false) : wret t d = trap t false 2 0 d := by
  have hno : ((tlOf t d).arch.priv == 3 && (tlOf t d).arch.w && (tlOf t d).arch.wstatus.getLsbD 0) = false := by
    rw [Bool.eq_false_iff, ne_eq, wret_permitted_iff]
    rintro ⟨hp, hw, ha⟩
    rcases h with h | h | h
    · exact h hp
    · exact Bool.noConfusion (h.symm.trans hw)
    · exact Bool.noConfusion (h.symm.trans ha)
  simp only [wret, hi, hno, Bool.not_false, Bool.false_eq_true, if_false, if_true]

theorem wret_idle (hi : tlIdle t d = true) : wret t d = d := if_pos hi

theorem wentry_continues (hi : tlIdle t d = false) : wentry t d =
    retired t false (tlPut t { tlOf t d with arch := { (tlOf t d).arch with pc := (tlOf t d).arch.pc + 4 } } d) :=
  if_neg (by simp [hi])

theorem wentry_idle (hi : tlIdle t d = true) : wentry t d = d := if_pos hi

theorem wtenantWrite_tags {tid : Nat} (hi : tlIdle t d = false) (hc : csrTrap t 0x5C0 true d = none) : wtenantWrite t tid d =
    let d1 := tenantTag t tid d
    retired t false (tlPut t { tlOf t d1 with arch := { (tlOf t d1).arch with pc := (tlOf t d1).arch.pc + 4 } } d1) := by
  simp only [wtenantWrite, hi, hc, Bool.false_eq_true, if_false]

theorem wtenantWrite_traps {tid : Nat} (hi : tlIdle t d = false) (hc : csrTrap t 0x5C0 true d = some c) :
    wtenantWrite t tid d = trap t false c 0 d := by
  simp only [wtenantWrite, hi, hc, Bool.false_eq_true, if_false]

end Gateway

/-- Settles O15: each clause is the rule of its command above. -/
theorem gatewayCompletes : Obligations.GatewayCompletes := by
  refine ⟨fun t rs1 => ?_, fun t rs1 why => ?_, fun t rs1 e => ?_, fun t rs1 c => ?_, fun t => ?_, fun t => ?_, fun t => ?_,
    fun t tid => ?_, fun t tid e => ?_, fun t rs1 => ?_, fun t => ?_, fun t => ?_⟩
  -- WGATE
  · exact completesBoth_onBoth (exec_wgate_onBoth t rs1) fun m _ ⟨hi, hq, ht, hr⟩ => congrArg (m, ·) (wgate_enters hi hq ht hr)
  · exact completesBoth_onBoth (exec_wgate_onBoth t rs1) fun m _ ⟨hi, hq, ht, hr⟩ => congrArg (m, ·) (wgate_fails hi hq ht hr)
  · exact completes_onBoth (exec_wgate_onBoth t rs1) fun m _ ⟨hi, hq, ht⟩ => congrArg (m, ·) (wgate_traps hi hq ht)
  · exact completes_onBoth (exec_wgate_onBoth t rs1) fun m _ ⟨hi, hq⟩ => congrArg (m, ·) (wgate_interrupted hi hq)
  -- WRET
  · exact completes_onDev (exec_wret t) fun _ ⟨hi, hp, hw, ha⟩ => wret_returns hi hp hw ha
  · exact completes_onDev (exec_wret t) fun _ ⟨hi, h⟩ => wret_illegal hi h
  -- WENTRY and WTENANT_WRITE
  · exact completes_onDev (exec_wentry t) fun _ => wentry_continues
  · exact completes_onDev (exec_wtenantWrite t tid) fun _ ⟨hi, hc⟩ => wtenantWrite_tags hi hc
  · exact completes_onDev (exec_wtenantWrite t tid) fun _ ⟨hi, hc⟩ => wtenantWrite_traps hi hc
  -- a trestle that executes no instruction
  · exact ignored_onBoth (exec_wgate_onBoth t rs1) fun m _ hi => congrArg (m, ·) (wgate_idle hi)
  · exact ignored_onDev (exec_wret t) fun _ => wret_idle
  · exact ignored_onDev (exec_wentry t) fun _ => wentry_idle

/-! ### Tenants and secure blocks (O16) -/

/-- Settles O16: each clause is the branch of its meaning that the state selects. -/
theorem tenantsAndSecureBlocksComplete : Obligations.TenantsAndSecureBlocksComplete := by
  refine ⟨fun t k => ?_, fun t k => ?_, fun k => ?_, fun k => ?_, fun w => ?_, fun w => ?_⟩
  -- TENANT_RESET
  · exact completes_onDev (exec_tenantReset t k) fun _ ⟨hk, hs⟩ => if_neg (by tauto)
  · exact ignored_onDev (exec_tenantReset t k) fun _ h => if_pos h
  -- TENANT_RELEASE
  · exact completes_onDev (exec_tenantRelease k) fun _ ⟨hk, hs⟩ => if_neg (by tauto)
  · exact ignored_onDev (exec_tenantRelease k) fun _ h => if_pos h
  -- WLD_SECBLK_WRITE
  · exact completes_onDev (exec_wldSecblkWrite w) fun _ hl => if_neg (by simp [hl])
  · exact ignored_onDev (exec_wldSecblkWrite w) fun _ hl => if_pos hl

end Sys2Proof.Machine

namespace Sys2Proof.Machine

/-! ### The commit of a request and its reply (O33) -/

/-- An empty queue gives the engine nothing to go on with. -/
theorem aixPump_empty (n : Nat) (m : List Host.Cell) {d : Dev} (hq : d.aix.queue = []) : aixPump n m d = (m, d) := by
  cases n with
  | zero => rfl
  | succ n =>
    have hn : aixNext d = none := by simp [aixNext, hq]
    simp [aixPump, hn]

theorem aixGo_empty (m : List Host.Cell) {d : Dev} (hq : d.aix.queue = []) : aixGo m d = (m, d) := aixPump_empty _ m hq

/-- The device once AIX_CMT_SEQ and AIX_CMT show the commit of `q` with a status, and no request is in progress. -/
def commitShown (q : AixReq) (status : Nat) (d : Dev) : Dev :=
  fset F.AIX_CMT_STATUS status (fset F.AIX_CMT_SEQ_SLOT (q.slot % 4) (fset F.AIX_CMT_SEQ_DRAWER q.drawer
    (fset F.AIX_CMT_SEQ_SEQ q.seq
      (aixPut { d.aix with cur := none, held := false, ready := none, interim := false, deferred := [], found := [] } d))))

theorem ethVlan_ne (e : Nat) {a : Nat} (h : a < 0xD0034) : R.ETH_VLAN e ≠ a := by simp only [R.ETH_VLAN]; omega

/-- The tag of a port reads its register ETH_VLAN. -/
theorem ethTag_congr {e : Nat} {d d' : Dev} (h : ∀ f : Fld, f.reg = R.ETH_VLAN e → fget f d' = fget f d) :
    ethTag e d' = ethTag e d := by
  rw [ethTag, flag, h (F.ETH_VLAN_EN e) rfl, h (F.ETH_VLAN_VID e) rfl, h (F.ETH_VLAN_PCP e) rfl]
  rfl

section CommitShown

variable (q : AixReq) (st : Nat) (d : Dev)

@[simp] theorem fget_commitShown_seq : fget F.AIX_CMT_SEQ_SEQ (commitShown q st d) = q.seq % 65536 := by
  rw [commitShown, fget_fset_ne _ _ (by decide), fget_fset_apart _ _ (by decide) (by decide) (by decide),
    fget_fset_apart _ _ (by decide) (by decide) (by decide), fget_fset_same _ _ _ (by decide)]
  rfl

@[simp] theorem fget_commitShown_drawer : fget F.AIX_CMT_SEQ_DRAWER (commitShown q st d) = q.drawer % 8 := by
  rw [commitShown, fget_fset_ne _ _ (by decide), fget_fset_apart _ _ (by decide) (by decide) (by decide),
    fget_fset_same _ _ _ (by decide)]
  rfl

@[simp] theorem fget_commitShown_slot : fget F.AIX_CMT_SEQ_SLOT (commitShown q st d) = q.slot % 4 := by
  rw [commitShown, fget_fset_ne _ _ (by decide), fget_fset_same _ _ _ (by decide)]
  exact Nat.mod_mod _ _

/-- It leaves the fields of every other register. -/
theorem fget_commitShown_ne {f : Fld} (hs : R.AIX_CMT_SEQ ≠ f.reg) (hc : R.AIX_CMT ≠ f.reg) :
    fget f (commitShown q st d) = fget f d := by
  rw [commitShown, fget_fset_ne _ _ hc, fget_fset_ne _ _ hs, fget_fset_ne _ _ hs, fget_fset_ne _ _ hs]
  rfl

end CommitShown

section Commit

variable {q : AixReq} {st : Nat} {d : Dev} {frags : List (List Byte)} (m : List Host.Cell)

/-- With no ABORT deferred to it, a request that is done is answered, and that is all. -/
theorem aixDone_answers (hc : d.aix.cur = some q) (hl : d.aix.deferred = []) :
    aixDone st frags d = aixAnswer q st frags (commitShown q st d) := by
  simp only [aixDone, hc, hl, each_nil]
  rfl

/-- The commit write of a request whose result is ready. -/
theorem aixCmt_ready (hh : d.aix.held = true) (hu : engineUp d = true) (hc : d.aix.cur = some q)
    (hr : d.aix.ready = some (st, frags)) : aixCmt m d = aixGo m (aixDone st frags d) := by
  simp only [aixCmt, hh, hu, aixCommit, hc, hr, Bool.and_self, if_true]

theorem aixCmt_stands (h : d.aix.held = false ∨ engineUp d = false) : aixCmt m d = (m, d) :=
  if_neg (by simpa [← Bool.not_eq_true, imp_iff_not_or] using h)

end Commit

/-! What a reply leaves: it touches the session's cache, the wake port or the counter of an Ethernet port, and the sideboard. -/

section Replies

variable {β : Type} (p : Dev → β)

/-- What a session's slot does not touch, a reply kept in its cache does not touch. -/
theorem cachePut_keeps (hs : ∀ k x d, p (sessPut k x d) = p d) (r : AixReq) (st : Nat) (frags : List (List Byte)) (d : Dev) :
    p (cachePut r st frags d) = p d := by
  unfold cachePut
  split
  · rfl
  · dsimp only
    split_ifs
    · rfl
    · exact hs _ _ _
    · exact hs _ _ _
    · rfl

/-- What neither the cache nor a packet of the request nor its record touches, its final reply does not touch. -/
theorem aixFinal_keeps (r : AixReq) (hs : ∀ k x d, p (sessPut k x d) = p d) (hp : ∀ bytes d, p (aixSend r bytes d) = p d)
    (hr : ∀ p1 p2 d, p (recordC 0x0903 p1 p2 d) = p d) (st : Nat) (frags : List (List Byte)) (d : Dev) :
    p (aixFinal r st frags d) = p d := by
  have replied : ∀ st', p (aixFrags r st' 0 frags (cachePut r st' frags d)) = p d := fun st' =>
    (each_keeps p _ (fun _ _ => hp _ _) _ _).trans (cachePut_keeps p hs _ _ _ _)
  unfold aixFinal
  extract_lets st' d1
  split_ifs
  · exact replied st'
  · exact (hr _ _ _).trans (replied st')

/-- The same for the answer of the engine, which is a final reply. -/
theorem aixAnswer_keeps (r : AixReq) (hs : ∀ k x d, p (sessPut k x d) = p d) (hp : ∀ bytes d, p (aixSend r bytes d) = p d)
    (hr : ∀ p1 p2 d, p (recordC 0x0903 p1 p2 d) = p d) (st : Nat) (frags : List (List Byte)) (d : Dev) :
    p (aixAnswer r st frags d) = p d := by
  unfold aixAnswer
  split <;> exact aixFinal_keeps p r hs hp hr _ _ _

end Replies

section EthernetReplies

variable {q : AixReq} (hv : q.via < 2)
include hv

/-- A packet of a request that came by Ethernet is a datagram. -/
theorem aixSend_ethernet (bytes : List Byte) (d : Dev) :
    aixSend q bytes d = udpOut q.via q.src q.sport (fget F.AIX_PORT_PORT d) bytes d := if_neg (by omega)

/-- The answer leaves the fields below the counters of the Ethernet ports, outside the registers that it touches. -/
theorem fget_aixAnswer {f : Fld} (hs : f.reg ≠ R.AIX_STATUS) (ht : f.reg < 0xD006C) (hi : f.reg ≠ R.AIX_INT_STAT)
    (hl : f.reg ≠ R.REC_LOST) (st : Nat) (frags : List (List Byte)) (d : Dev) : fget f (aixAnswer q st frags d) = fget f d := by
  refine aixAnswer_keeps (fget f) q (fun k x d => fget_fset_ne _ _ hs.symm) (fun bytes d => ?_)
    (fun p1 p2 d => recordC_fget _ _ _ _ _ (eventLeaves_of_flag rfl hl hi.symm)) st frags d
  have hc : R.ETH_CNT_TX q.via ≠ f.reg := by simp only [R.ETH_CNT_TX]; omega
  rw [aixSend_ethernet hv]
  exact fget_fset_ne (f := F.ETH_CNT_TX_CNT q.via) _ _ hc

/-- Of AIX it touches the sessions alone. -/
theorem aixAnswer_aix {β : Type} (p : Aix → β) (hp : ∀ (a : Aix) t, p { a with sessions := t } = p a) (st : Nat)
    (frags : List (List Byte)) (d : Dev) : p (aixAnswer q st frags d).aix = p d.aix :=
  aixAnswer_keeps (fun d => p d.aix) q (fun _ _ _ => hp _ _) (fun bytes d => by rw [aixSend_ethernet hv]; rfl)
    (fun _ _ _ => by rw [recordC_aix]) st frags d

/-- One packet carries an answer of one fragment: FLAGS is REPLY alone. -/
theorem aixAnswer_out {st : Nat} (hn : st ≠ stRecomputed) (p : List Byte) (d : Dev) : ∃ hop,
    (aixAnswer q st [p] d).out =
      .udp q.via (ethTag q.via d) q.src hop q.sport (fget F.AIX_PORT_PORT d) (aixBytes q 1 st p) :: d.out := by
  have hl : tooLong q [p] = false := by simp [tooLong, Nat.ne_of_lt hv]
  have hs : ¬ (q.ver = 1 ∧ st = stRecomputed) := fun h => hn h.2
  have hf : aixFrags q st 0 [p] (cachePut q st [p] d) = aixSend q (aixBytes q 1 st p) (cachePut q st [p] d) := rfl
  have hr : ∀ {f : Fld}, f.reg ≠ R.AIX_STATUS → fget f (cachePut q st [p] d) = fget f d := fun {f} h =>
    cachePut_keeps (fget f) (fun _ _ _ => fget_fset_ne _ _ h.symm) _ _ _ _
  have ht : ethTag q.via (cachePut q st [p] d) = ethTag q.via d :=
    ethTag_congr fun f h => hr (h.trans_ne (ethVlan_ne q.via (by decide)))
  have ho : (cachePut q st [p] d).out = d.out := cachePut_keeps (·.out) (fun _ _ _ => rfl) _ _ _ _
  refine ⟨nextHop q.via q.src (cachePut q st [p] d), ?_⟩
  calc (aixAnswer q st [p] d).out
      = (aixSend q (aixBytes q 1 st p) (cachePut q st [p] d)).out := by
        simp only [aixAnswer, hl, aixFinal, if_neg hs, hf, Bool.false_eq_true, if_false]
        split
        · rfl
        · exact recordC_out _ _ _ _
    _ = _ := by
        rw [aixSend_ethernet hv, ← ht, ← hr (f := F.AIX_PORT_PORT) (by decide), ← ho]
        rfl

end EthernetReplies

/-- Settles O33: the commit shows AIX_CMT_SEQ, the answer is the one packet that leaves, and nothing is queued behind it. -/
theorem committedRequestIsAnswered : Obligations.CommittedRequestIsAnswered := by
  intro q st p s hc hh hr hl hq hu hv hn
  have hd : aixDone st [p] s.dev = aixAnswer q st [p] (commitShown q st s.dev) := aixDone_answers hc hl
  have haix : ∀ {β : Type} (g : Aix → β), (∀ (a : Aix) t, g { a with sessions := t } = g a) →
      g (aixDone st [p] s.dev).aix = g (commitShown q st s.dev).aix := fun g hg => hd ▸ aixAnswer_aix hv g hg st [p] _
  have hcmt : ∀ f : Fld, f.reg = R.AIX_CMT_SEQ → fget f (aixDone st [p] s.dev) = fget f (commitShown q st s.dev) := fun f hf =>
    hd ▸ fget_aixAnswer hv (by rw [hf]; decide) (by rw [hf]; decide) (by rw [hf]; decide) (by rw [hf]; decide) _ _ _
  have hgo : aixCmt s.mem s.dev = (s.mem, aixDone st [p] s.dev) :=
    (aixCmt_ready _ hh hu hc hr).trans (aixGo_empty _ ((haix (·.queue) fun _ _ => rfl).trans hq))
  have htag : ethTag q.via (commitShown q st s.dev) = ethTag q.via s.dev :=
    ethTag_congr fun f hf =>
      fget_commitShown_ne _ _ _ (hf ▸ (ethVlan_ne _ (by decide)).symm) (hf ▸ (ethVlan_ne _ (by decide)).symm)
  obtain ⟨hop, hout⟩ := aixAnswer_out hv hn p (commitShown q st s.dev)
  rw [← hd, htag, fget_commitShown_ne _ _ _ (by decide) (by decide)] at hout
  exact ⟨{ s with dev := aixDone st [p] s.dev }, hop, by rw [exec_aixCmt, execAixCmt, onBoth, hgo],
    haix (·.cur) fun _ _ => rfl, haix (·.held) fun _ _ => rfl, (hcmt _ rfl).trans (fget_commitShown_seq q st _),
    (hcmt _ rfl).trans (fget_commitShown_drawer q st _), (hcmt _ rfl).trans (fget_commitShown_slot q st _), hout, rfl, rfl⟩

end Sys2Proof.Machine

namespace Sys2Proof.Machine

/-! ### The requests of a session (O31) -/

section SessionRequests

variable {q : AixReq} {m : List Host.Cell} {d : Dev}

theorem portTakes_engineUp (h : PortTakes q d) : engineUp (portCounted q d) = true := by
  obtain ⟨-, -, -, -, -, hu⟩ := h
  exact hu

/-- A HELLO that its port takes is done at once, and the engine goes on. -/
theorem arrive_hello (h : PortTakes q d) (ho : q.opcode = 1) : aixArrive q m d = aixGo m (aixHello q (portCounted q d)) := by
  rw [arrive_accept q m d h]
  simp only [aixAccept, portTakes_engineUp h, aixTake, if_pos ho, Bool.not_true, Bool.false_eq_true, if_false]

theorem aixHello_opens {v : Nat} (hp : q.payload.length = 12) (hr : helloRepeat q d = none) (hv : helloVer q = some v) :
    aixHello q d = helloOpen q v d := by
  rw [aixHello, if_neg (not_not_intro hp), hr, hv]

/-- A HELLO that repeats an earlier one is answered as that one was (R330). -/
theorem aixHello_again {k : Nat} {x : AixSession} (hp : q.payload.length = 12) (hr : helloRepeat q d = some (k, x)) :
    aixHello q d = aixFrags { q with ver := x.ver, session := x.id, slot := k } stOk 0 [x.reply]
      (sessPut k (some { x with last := d.clk }) d) := by
  rw [aixHello, if_neg (not_not_intro hp), hr]

theorem aixFast_bye (ho : q.opcode = 2) (hp : q.payload = []) :
    aixFast q m d = (m, sessClose q.slot q.seq 0 (aixFinal q stOk [] d)) := by
  simp only [aixFast, ho, aixBye, hp, List.length_nil, ne_eq, not_true_eq_false, if_false]

theorem aixFast_ping (ho : q.opcode = 3) (hp : q.payload.length ≤ 64) :
    aixFast q m d = (m, aixAnswer q stOk [opPing q.payload d] d) := by
  simp only [aixFast, ho, if_neg (Nat.not_lt.2 hp)]

theorem aixFast_status (ho : q.opcode = 4) (hp : q.payload = []) : aixFast q m d = (m, aixAnswer q stOk [opStatus d] d) := by
  simp only [aixFast, ho, hp, List.length_nil, ne_eq, not_true_eq_false, if_false]

theorem aixFast_abort (ho : q.opcode = 5) : aixFast q m d = aixAbort q m d := by
  simp only [aixFast, ho]

section Abort

variable {z : AixReq} (hp : q.payload.length = 2) (ht : tenantTarget q (field q.payload 0 2) d = false)
include hp ht

/-- ABORT of a queued request: it leaves the queue with ABORTED (R344). -/
theorem aixAbort_queued (hz : d.aix.queue.find? (fun y => sameSess y q && y.seq == field q.payload 0 2) = some z) :
    aixAbort q m d = (m, abortReply q stOk 0 (aixFrags z stAborted 0 [] (cachePut z stAborted []
      (aixPut { d.aix with queue := d.aix.queue.erase z } (abortTold q (field q.payload 0 2) 0 d))))) := by
  simp only [aixAbort, hp, ht, hz, ne_eq, not_true_eq_false, Bool.false_eq_true, if_false]

/-- ABORT of the abortable request in progress: it commits with ABORTED (R344). -/
theorem aixAbort_current (hq : d.aix.queue = []) (hc : d.aix.cur = some z) (hs : sameSess z q = true)
    (hn : z.seq = field q.payload 0 2) (ha : opAb z.opcode = true) : aixAbort q m d =
      (let o := aixCommit (some stAborted) m (abortTold q (field q.payload 0 2) 1 d)
       (o.1, abortReply q stOk 0 o.2)) := by
  simp only [aixAbort, hp, ht, hq, hc, hs, hn, ha, List.find?_nil, beq_self_eq_true, Bool.and_self, ne_eq, not_true_eq_false,
    Bool.false_eq_true, if_false, if_true]

end Abort

theorem interim_sent (hc : d.aix.cur = some q) (hv : 2 ≤ q.ver) (hi : d.aix.interim = false) (hu : engineUp d = true) :
    interim d = aixFrags q stOk 2 [] (aixPut { d.aix with interim := true } d) := by
  have hv' : ¬ q.ver < 2 := Nat.not_lt.2 hv
  simp only [interim, hc, hv', hi, hu, Bool.false_eq_true, Bool.true_eq_false, or_self, if_false]
  rfl

theorem interim_stands (h : d.aix.cur = none ∨ (d.aix.cur = some q ∧ (q.ver < 2 ∨ d.aix.interim = true))) : interim d = d := by
  rcases h with hc | ⟨hc, h⟩
  · rw [interim, hc]
  · rw [interim, hc]
    exact if_pos (h.imp_right .inl)

theorem sessClose_open {k seq cause : Nat} {x : AixSession} (h : sessOf k d = some x) :
    sessClose k seq cause d = recordC 0x0902 (k % 32 / 4 + k % 4 * 8 + seq * 65536) cause (sessPut k none d) := by
  rw [sessClose, h]

theorem sessClose_none {k seq cause : Nat} (h : sessOf k d = none) : sessClose k seq cause d = d := by
  rw [sessClose, h]

end SessionRequests

/-- A request of a session that is done at once: what it comes to, and the engine goes on. -/
theorem completesBoth_fast {c : Instr} {r : AixPacket} {op k : Nat} {x : AixSession} {H : List Host.Cell → Dev → Prop}
    {m' : List Host.Cell → Dev → List Host.Cell} {d' : List Host.Cell → Dev → Dev}
    (hc : ∀ s, exec c s = request r op false none s) (hf : opFast op = true)
    (ht : ∀ m d, H m d → SessionTakes (reqOf r op false none) k x d)
    (h : ∀ m d, H m d → aixFast (inSession (reqOf r op false none) k x) m (aixHeard (reqOf r op false none) k x d) =
      (m' m d, d' m d)) :
    CompletesBoth c H (fun m d => aixGo (m' m d) (d' m d)) := completesBoth_onBoth hc fun m d hd => by
  rw [arrive_fast _ k x m d (ht m d hd) hf, h m d hd]

/-- Settles O31: each clause is the rule of its request above. -/
theorem sessionCommandsComplete : Obligations.SessionCommandsComplete := by
  refine ⟨fun r v => ?_, fun r k x => ?_, fun r k x => ?_, fun r k x => ?_, fun r k x => ?_, fun r k x z => ?_, fun r k x z => ?_,
    fun key x => ?_, fun key => ?_, fun q => ?_, fun q => ?_, fun q st frags => ?_, ?_⟩
  -- HELLO
  · exact completesBoth_onBoth (exec_hello r) fun m d ⟨ht, hp, hr, hv⟩ =>
      (arrive_hello ht rfl).trans (congrArg (aixGo m) (aixHello_opens hp hr hv))
  · exact completesBoth_onBoth (exec_hello r) fun m d ⟨ht, hp, hr⟩ =>
      (arrive_hello ht rfl).trans (congrArg (aixGo m) (aixHello_again hp hr))
  -- BYE, PING, STATUS
  · exact completesBoth_fast (exec_bye r) rfl (fun m d h => h.1) fun m d ⟨_, hp⟩ => aixFast_bye rfl hp
  · exact completesBoth_fast (exec_ping r) rfl (fun m d h => h.1) fun m d ⟨_, hp⟩ => aixFast_ping rfl hp
  · exact completesBoth_fast (exec_status r) rfl (fun m d h => h.1) fun m d ⟨_, hp⟩ => aixFast_status rfl hp
  -- ABORT
  · exact completesBoth_fast (exec_abort r) rfl (fun m d h => h.1) fun m d ⟨_, hp, hn, hz⟩ =>
      (aixFast_abort rfl).trans (aixAbort_queued (q := inSession _ k x) hp hn hz)
  · exact completesBoth_fast (exec_abort r) rfl (fun m d h => h.1) fun m d ⟨_, hp, hn, hq, hc, hs, hz, ha⟩ =>
      (aixFast_abort rfl).trans (aixAbort_current (q := inSession _ k x) hp hn hq hc hs hz ha)
  -- SESSION_TIMEOUT
  · exact completes_onBlk (exec_sessionTimeout key) (fun d h => h.1) fun d ⟨_, hx⟩ => by
      rw [sessClose_open hx, Nat.zero_mul, Nat.add_zero]
  · exact ignored_onBlk (exec_sessionTimeout key) fun d hx => sessClose_none hx
  -- INTERIM_REPLY
  · exact completes_onBlk exec_interimReply (fun d h => h.1) fun d ⟨_, hc, hv, hi, hu⟩ => interim_sent hc hv hi hu
  · exact ignored_onBlk exec_interimReply fun d h => interim_stands h
  -- AIX_CMT
  · exact completesBoth_onBoth exec_aixCmt fun m d ⟨hh, hu, hc, hr⟩ => aixCmt_ready m hh hu hc hr
  · exact ignored_onBoth exec_aixCmt fun m d h => aixCmt_stands m h

end Sys2Proof.Machine

namespace Sys2Proof.Machine

/-! ### Datagrams at an Ethernet port (O32) -/

section Datagrams

variable {g : Datagram} {m : List Host.Cell} {d : Dev}

theorem datagram_badFcs (hb : g.badFcs = true) (ht : ethTakes g.port.val d = true) (hc : cut (13 + g.port.val) d = false) :
    datagram g m d = (m, fsat (F.ETH_CNT_FCS_CNT g.port.val) 1 (fsat (F.ETH_CNT_RX_CNT g.port.val) 1 d)) := by
  simp only [datagram, hb, ht, hc, Bool.not_false, Bool.and_self, if_true]

theorem datagram_badFcs_stands (hb : g.badFcs = true) (h : ethTakes g.port.val d = false ∨ cut (13 + g.port.val) d = true) :
    datagram g m d = (m, d) := by
  have hn : (ethTakes g.port.val d && !cut (13 + g.port.val) d) = false := by rcases h with h | h <;> simp [h]
  simp only [datagram, hb, hn, Bool.false_eq_true, if_true, if_false]

variable (hf : g.badFcs = false)
include hf

theorem datagram_closed (hp : portOpen g.port.val g.src.toNat d = false) : datagram g m d = (m, d) := by
  simp only [datagram, hf, hp, Bool.not_false, Bool.false_eq_true, if_true, if_false]

variable (hp : portOpen g.port.val g.src.toNat d = true)
include hp

/-- With a wrong tag, split, or to another UDP port, it is counted as dropped. -/
theorem datagram_dropped (h : vlanOk g.port.val g.vid (fsat (F.ETH_CNT_RX_CNT g.port.val) 1 d) = false ∨ g.split = true ∨
      g.dport.toNat ≠ fget F.AIX_PORT_PORT (fsat (F.ETH_CNT_RX_CNT g.port.val) 1 d)) :
    datagram g m d = (m, fsat (F.ETH_CNT_DROP_CNT g.port.val) 1 (fsat (F.ETH_CNT_RX_CNT g.port.val) 1 d)) := by
  have hw : (!vlanOk g.port.val g.vid (fsat (F.ETH_CNT_RX_CNT g.port.val) 1 d) || g.split ||
      g.dport.toNat != fget F.AIX_PORT_PORT (fsat (F.ETH_CNT_RX_CNT g.port.val) 1 d)) = true := by
    rcases h with h | h | h <;> simp [h]
  simp only [datagram, hf, hp, hw, Bool.not_true, Bool.false_eq_true, if_false, if_true]

/-- One to Aidex goes through the checks of R329. -/
theorem datagram_checked (hv : vlanOk g.port.val g.vid (fsat (F.ETH_CNT_RX_CNT g.port.val) 1 d) = true) (hs : g.split = false)
    (hd : g.dport.toNat = fget F.AIX_PORT_PORT (fsat (F.ETH_CNT_RX_CNT g.port.val) 1 d))
    (ha : aixOn g.port.val (fsat (F.ETH_CNT_RX_CNT g.port.val) 1 d) = true) :
    datagram g m d = dgChecks (dgReq g.port.val g.src.toNat g.sport.toNat g.bytes) g.bytes m
      (fsat (F.ETH_CNT_RX_CNT g.port.val) 1 d) := by
  simp only [datagram, hf, hp, hv, hs, hd, ha, Bool.not_true, bne_self_eq_false, Bool.or_self, Bool.false_eq_true, if_false]

end Datagrams

section DatagramChecks

variable {q : AixReq} {bs : List Byte} {m : List Host.Cell} {d : Dev}

theorem dgChecks_form (h : dgForm bs = false ∨ formOk q = false) : dgChecks q bs m d = (m, fsat F.AIX_CNT_FMT_CNT 1 d) :=
  if_pos (by rcases h with h | h <;> simp [h])

variable (hf : dgForm bs = true) (hq : formOk q = true)
include hf hq

theorem dgChecks_crc (hc : dgCrc bs = false) : dgChecks q bs m d = (m, fsat F.AIX_CNT_CRC_CNT 1 d) := by
  simp only [dgChecks, hf, hq, hc, Bool.not_true, Bool.not_false, Bool.or_self, Bool.false_eq_true, if_false, if_true]

theorem dgChecks_source (hc : dgCrc bs = true) : dgChecks q bs m d = aixSource q m d := by
  simp only [dgChecks, hf, hq, hc, Bool.not_true, Bool.or_self, Bool.false_eq_true, if_false]

end DatagramChecks

/-- A source that the drawer's list does not permit is counted and recorded (R329). -/
theorem aixSource_refused {q : AixReq} {m : List Host.Cell} {d : Dev} (hv : q.via ≠ 2) (ha : aclPermits q.drawer q.src d = false) :
    aixSource q m d = (m, recordC 0x0905 q.drawer (q.src % 2 ^ 32) (fsat F.AIX_CNT_ACL_CNT 1 d)) := by
  simp only [aixSource, if_neg hv, ha, Bool.false_eq_true, if_false]

/-! ### The drawers' rings (O32) -/

section Rings

variable {r q : AixReq} {k v i : Nat} {x : AixSession} {m : List Host.Cell} {d : Dev}

/-- A tenant-class request goes the way of its drawer, and the engine goes on. -/
theorem arrive_tenant (h : SessionTakes r k x d) (ht : opTenant r.opcode = true) :
    aixArrive r m d = (let o := tenantTake (inSession r k x) m (aixHeard r k x d); aixGo o.1 o.2) := by
  have hw := arrive_way r k x m d h
  obtain ⟨hp, -, -, -, -, hc, hr, ho, hd⟩ := h
  have hc' : (if opRd (inSession r k x).opcode = true then none else cached (inSession r k x) (aixHeard r k x d)) = none :=
    ite_eq_left_iff.2 fun hn => hc.resolve_left hn
  have ht' : opTenant (inSession r k x).opcode = true := ht
  have hway : aixWay (inSession r k x) true m (aixHeard r k x d) =
      (false, tenantTake (inSession r k x) m (aixHeard r k x d)) := by
    simp only [aixWay, hc', hr, ho, hd, ht', Bool.false_eq_true, if_false, if_true]
  rw [arrive_accept r m d hp]
  simp only [aixAccept, portTakes_engineUp hp, hw, hway, Bool.not_true, Bool.false_eq_true, if_false]

/-- One that its drawer takes for the first time is placed in the ring. -/
theorem tenantTake_places (hn : (sessOf q.slot d).any (fun y => y.long.contains q.seq) = false) (hw : windowFull q d = false)
    (hd : tenantDown q.drawer d = false) (hf : ringFull q.drawer d = false) : tenantTake q m d = tenantPlace q 0 m d := by
  simp only [tenantTake, hn, hw, hd, hf, Bool.false_eq_true, if_false]

/-- An index that leaves at most 16 entries in the ring is taken (R335). -/
theorem ringIndex_taken {f : Fld} {held : Nat} (h : held ≤ 16) : ringIndex k f held v d = fset f v d := if_neg (Nat.not_lt.2 h)

theorem ringIndex_refused {f : Fld} {held : Nat} (h : 16 < held) :
    ringIndex k f held v d = drwInt k (F.DRW_INT_RING_ERR k) d := if_pos h

/-- TENANT_REPLY reads the ring in the memories. -/
theorem exec_tenantReply_onBlkBoth (k : Fin 7) (v : BitVec 5) (s : State) :
    exec (.tenantReply k v) s = onBlkBoth 10 (fun m d => (m, tenantReply (k.val + 1) v.toNat m d)) s := rfl

theorem tenantReply_taken (m : List Host.Cell) (h : ringHeld v (fget (F.DRW_RSP_CONS_IDX k) d) ≤ 16) : tenantReply k v m d =
    let d1 := fset (F.DRW_RSP_PROD_IDX k) v d
    if flag (F.DRW_CTRL_EN k) d1 && tl0Runs d1 then replyDrain k m 16 d1 else d1 := by
  simp only [tenantReply, ringIndex_taken h]

theorem tenantReply_refused (m : List Host.Cell) (h : 16 < ringHeld v (fget (F.DRW_RSP_CONS_IDX k) d)) : tenantReply k v m d =
    let d1 := drwInt k (F.DRW_INT_RING_ERR k) d
    if flag (F.DRW_CTRL_EN k) d1 && tl0Runs d1 then replyDrain k m 16 d1 else d1 := by
  simp only [tenantReply, ringIndex_refused h]

theorem tenantTimeout_answers {x : AixTenant} (h : d.aix.tenants[i]? = some x) : tenantTimeout i d =
    recordC 0x0906 (drawerWord x.req) x.req.opcode (aixOwe x.req stTmo
      (fsat F.AIX_CNT_TMO_CNT 1 { d with aix := { d.aix with tenants := d.aix.tenants.eraseIdx i } })) := by
  rw [tenantTimeout, h]

theorem tenantTimeout_none (h : d.aix.tenants[i]? = none) : tenantTimeout i d = d := by
  rw [tenantTimeout, h]

end Rings

/-- Settles O32: each clause is the rule of its event above. -/
theorem datagramsAndDrawersComplete : Obligations.DatagramsAndDrawersComplete := by
  refine ⟨fun g => ⟨?_, ?_, ?_, ?_, ?_, ?_, ?_⟩, fun r op k x => ?_, fun k v => ?_, fun k v => ?_, fun k v => ?_, fun k v => ?_,
    fun i x => ?_, fun i => ?_, ?_⟩
  -- datagrams
  · exact ignored_onBoth (exec_datagramDiscarded g) fun m d ⟨hf, hp⟩ => datagram_closed hf hp
  · exact completes_onBoth (exec_datagramDiscarded g) fun m d ⟨⟨hf, hp⟩, h⟩ => datagram_dropped hf hp h
  · exact completes_onBoth (exec_datagramDiscarded g) fun m d ⟨⟨⟨hf, hp⟩, hv, hs, hd, ha⟩, h⟩ =>
      (datagram_checked hf hp hv hs hd ha).trans (dgChecks_form h)
  · exact completes_onBoth (exec_datagramDiscarded g) fun m d ⟨⟨⟨hf, hp⟩, hv, hs, hd, ha⟩, hb, hq, hc⟩ =>
      (datagram_checked hf hp hv hs hd ha).trans (dgChecks_crc hb hq hc)
  · exact completes_onBoth (exec_datagramDiscarded g) fun m d ⟨⟨⟨hf, hp⟩, hv, hs, hd, ha⟩, hb, hq, hc, hl⟩ =>
      (datagram_checked hf hp hv hs hd ha).trans ((dgChecks_source hb hq hc).trans
        (aixSource_refused (Nat.ne_of_lt g.port.isLt) hl))
  · exact completes_onBoth (exec_datagramDiscarded g) fun m d ⟨hb, ht, hc⟩ => datagram_badFcs hb ht hc
  · exact ignored_onBoth (exec_datagramDiscarded g) fun m d ⟨hb, h⟩ => datagram_badFcs_stands hb h
  -- TENANT_REQUEST
  · refine completesBoth_onBoth (exec_tenantRequest r op) fun m d ⟨ht, _, hn, hw, hd, hf⟩ => ?_
    have ho : opTenant (0x8000 + op.toNat) = true := decide_eq_true (Nat.le_add_right _ _)
    rw [arrive_tenant ht ho, tenantTake_places (q := inSession (reqOf r _ _ _) k x) hn hw hd hf]
    rfl
  -- the indices of a ring
  · exact completesBoth_onBlkBoth (exec_tenantReply_onBlkBoth k v) (fun m d h => h.1) fun m d ⟨_, h⟩ =>
      congrArg (m, ·) (tenantReply_taken m h)
  · exact completesBoth_onBlkBoth (exec_tenantReply_onBlkBoth k v) (fun m d h => h.1) fun m d ⟨_, h⟩ =>
      congrArg (m, ·) (tenantReply_refused m h)
  · exact completes_onBlk (exec_drwReqCons k v) (fun d h => h.1) fun d ⟨_, h⟩ => ringIndex_taken h
  · exact completes_onBlk (exec_drwReqCons k v) (fun d h => h.1) fun d ⟨_, h⟩ => ringIndex_refused h
  -- TENANT_TIMEOUT and CLR_CNT
  · exact completes_onBlk (exec_tenantTimeout i) (fun d h => h.1) fun d ⟨_, h⟩ => tenantTimeout_answers h
  · exact ignored_onBlk (exec_tenantTimeout i) fun d h => tenantTimeout_none h
  · exact completes_onBlk exec_aixClrCnt (fun d h => h) fun d _ => rfl

end Sys2Proof.Machine

namespace Sys2Proof.Machine

/-! ### Abortable requests of the idle engine (O35, O36) -/

/-- Of the abortable opcodes CONFIG_COMMIT, UPDATE_ACTIVATE and SLEEP alone have a lasting change after their commit. -/
theorem abEffect_none {q : AixReq} (ho : q.opcode ≠ 0x0102 ∧ q.opcode ≠ 0x0503 ∧ q.opcode ≠ 0x0601) (m : List Host.Cell) (d : Dev) :
    abEffect q m d = (m, d) := by
  obtain ⟨hcommit, hactivate, hsleep⟩ := ho
  unfold abEffect
  split
  · exact absurd ‹_› hcommit
  · exact absurd ‹_› hactivate
  · exact absurd ‹_› hsleep
  · rfl

section Abortable

variable {c : Instr} {r : AixPacket} {op k : Nat} {hold : Bool} {x : AixSession} {H : List Host.Cell → Dev → Prop}
  {m' : List Host.Cell → Dev → List Host.Cell} {d' : List Host.Cell → Dev → Dev}

/-- What an abortable request other than UPDATE_ACTIVATE comes to at the point before its commit. -/
theorem completesBoth_engineArrives (hc : ∀ s, exec c s = request r op hold none s) (ha : opAb op = true) (hn : op ≠ 0x0503)
    (ht : ∀ m d, H m d → EngineTakes (reqOf r op hold none) k x d)
    (h : ∀ m d, H m d → abArrive (inSession (reqOf r op hold none) k x) m (engineBegun (reqOf r op hold none) k x d) =
      (m' m d, d' m d)) :
    CompletesBoth c H (fun m d => aixPump 1 (m' m d) (d' m d)) :=
  completesBoth_engineCommit (e := fun m d => (m' m d, d' m d)) hc ha hn ht h

/-- Held, it waits for its commit write. -/
theorem completesBoth_engineHeld (hc : ∀ s, exec c s = request r op true none s) (ha : opAb op = true) (hn : op ≠ 0x0503)
    (ht : ∀ m d, H m d → EngineTakes (reqOf r op true none) k x d) :
    CompletesBoth c H (fun m d => aixPump 1 m (aixPut { (engineBegun (reqOf r op true none) k x d).aix with held := true }
      (engineBegun (reqOf r op true none) k x d))) :=
  completesBoth_engineArrives hc ha hn ht fun _ _ _ => if_pos rfl

/-- Not held, one that is decided with a status, and whose commit has no lasting change of its own, commits with it. -/
theorem completesBoth_engineDecided {st : List Host.Cell → Dev → Nat} {frags : List Host.Cell → Dev → List (List Byte)}
    (hc : ∀ s, exec c s = request r op false none s) (ha : opAb op = true)
    (hop : op ≠ 0x0102 ∧ op ≠ 0x0503 ∧ op ≠ 0x0601) (ht : ∀ m d, H m d → EngineTakes (reqOf r op false none) k x d)
    (h : ∀ m d, H m d → abRun (inSession (reqOf r op false none) k x) m (engineBegun (reqOf r op false none) k x d) =
      (some (st m d, frags m d), m' m d, d' m d)) :
    CompletesBoth c H (fun m d => aixPump 1 (m' m d) (aixDone (st m d) (frags m d) (d' m d))) :=
  completesBoth_engineArrives hc ha hop.2.1 ht fun m d hd => by
    rw [abArrive_commits _ m _ _ _ _ _ rfl rfl rfl (h m d hd), abEffect_none (q := inSession (reqOf r op false none) k x) hop]
    exact ite_self _

end Abortable

/-! ### Estimation and records (O35) -/

section EstimationOpcodes

variable {p : List Byte} {m : List Host.Cell} {d : Dev}

/-- The bench takes a CELL_INIT while it is whole. -/
theorem opCellInit_whole (h : cut 5 (fset F.EST_INIT_FRAME_FRAME (field p 4 4) d) = false) : opCellInit p m d =
    opOk [] m (cellInit (field p 0 2) (field p 2 1 != 0) (field p 3 1 != 0) (fset F.EST_INIT_FRAME_FRAME (field p 4 4) d)) := by
  simp only [opCellInit, h, Bool.false_eq_true, if_false]

/-- A service access that is accepted keeps its request in progress. -/
theorem svcOut_accepted {r : Option Nat × Dev} {d1 : Dev} (h : r = (none, d1)) : svcOut r m = (none, m, d1) := by
  rw [h]; rfl

end EstimationOpcodes

/-- Settles O35: each clause is its opcode run, or decided, on the device as the engine begins it. -/
theorem engineEstimationAndRecordsComplete : Obligations.EngineEstimationAndRecordsComplete := by
  refine ⟨fun r k x st frags => ?_, fun r k x => ?_, fun r hold k x => ?_, fun r hold k x => ?_, fun r hold k x => ?_,
    fun r hold k x d1 => ?_, fun r k x frags => ?_, fun r k x => ?_, fun r hold k x => ?_⟩
  -- EST_READ
  · exact completesBoth_engineDecided (exec_estRead r false) (by decide) (by decide) (fun m d h => h.1) fun m d ⟨_, h⟩ => h
  · exact completesBoth_engineHeld (exec_estRead r true) (by decide) (by decide) fun m d h => h
  -- RECORD_READ, CELL_INIT, BAL_ENABLE, BAL_SET
  · exact completesBoth_engineRun (exec_recordRead r hold) (by decide) (fun m d h => h) fun m d _ => rfl
  · exact completesBoth_engineAnswers (exec_cellInit r hold) (by decide) (fun m d h => h.1) fun m d ⟨_, h⟩ => opCellInit_whole h
  · exact completesBoth_engineAnswers (exec_balEnable r hold) (by decide) (fun m d h => h) fun m d _ => rfl
  · exact completesBoth_engineRun (exec_balSet r hold) (by decide) (fun m d h => h.1) fun m d ⟨_, h⟩ =>
      congrArg aixOut (svcOut_accepted h)
  -- LOG_READ, LOG_STATUS
  · exact completesBoth_engineDecided (exec_logRead r false) (by decide) (by decide) (fun m d h => h.1) fun m d ⟨_, h⟩ => h
  · exact completesBoth_engineHeld (exec_logRead r true) (by decide) (by decide) fun m d h => h
  · exact completesBoth_engineAnswers (exec_logStatus r hold) (by decide) (fun m d h => h) fun m d _ => rfl

end Sys2Proof.Machine

namespace Sys2Proof.Machine

/-! ### Update, power, diagnostics and network (O36) -/

section ServiceOpcodes

variable {q : AixReq} {p : List Byte} {m : List Host.Cell} {d d1 : Dev}

theorem abRun_updateBegin (ho : q.opcode = 0x0501)
    (h : updBegin (field q.payload 0 1) (q.payload.drop 4) q.ver m d = (stOk, d1)) :
    abRun q m d = (some (stOk, [leBytes 4 (fget F.UPD_BLOCKS_BLOCKS d1)]), m, d1) := by
  simp only [abRun, ho, h, if_true, opOk]

theorem abRun_updateBlock (ho : q.opcode = 0x0502) (h : (updBlock (field q.payload 0 4) (q.payload.drop 4) m d).1 = stOk) :
    abRun q m d = (let e := updBlock (field q.payload 0 4) (q.payload.drop 4) m d
      (some (stOk, [q.payload.take 4 ++ leBytes 4 (fget F.UPD_DONE_DONE e.2.2)]), e.2.1, e.2.2)) := by
  simp only [abRun, ho, opUpdateBlock, h, true_or, if_true]

theorem abRun_updateActivate (ho : q.opcode = 0x0503) (h : (activatePrepare m d).1 = stOk) :
    abRun q m d = (some (stOk, [[]]), (activatePrepare m d).2) := by
  simp only [abRun, ho, h, if_true, opOk]

theorem abRun_sleep (ho : q.opcode = 0x0601) (h : wakeInputs d = []) :
    abRun q m d = (some (stOk, [q.payload.take 1]), m, d) := by
  simp only [abRun, ho, h, List.isEmpty_nil, if_true, opOk]

/-- A SLEEP that came by Ethernet begins at its commit. -/
theorem abEffect_sleep (ho : q.opcode = 0x0601) (hv : q.via ≠ 2) : abEffect q m d =
    (m, sleepBegin (field q.payload 0 1) false (fset F.PWR_SLEEP_STATE (field q.payload 0 1) d)) := by
  simp only [abEffect, ho, if_neg hv]

theorem opUpdateCancel_done (h : (updCancel m d).1 = stOk) :
    opUpdateCancel m d = opOk [] (updCancel m d).2.1 (updCancel m d).2.2 := if_pos h

theorem opPlevel_over (h : flag F.PWR_PL_BUSY (plWrite (field p 0 1) d) = false) :
    opPlevel p m d = opOk (p.take 1) m (plWrite (field p 0 1) d) := if_neg (Bool.eq_false_iff.1 h)

theorem opPlevel_busy (h : flag F.PWR_PL_BUSY (plWrite (field p 0 1) d) = true) :
    opPlevel p m d = (none, m, plWrite (field p 0 1) d) := if_pos h

/-- A route to Ethernet, or to a channel whose queue takes the frame, sends it. -/
theorem opRouteSend_sent (h : rtCh (field p 0 2) d = 7 ∨ txResult (rtCh (field p 0 2) d) 0 (field p 0 2) (p.drop 4).length d = 0) :
    opRouteSend p m d = opOk [] m (routeOut (field p 0 2) (p.drop 4) d).2 := by
  unfold opRouteSend
  extract_lets e data
  split_ifs with h7
  · rfl
  · rw [h.resolve_left h7]
    rfl

end ServiceOpcodes

section Activation

variable {r : AixReq} {k : Nat} {x : AixSession} {m : List Host.Cell} {d d1 : Dev}

theorem engineTakes_via (h : EngineTakes r k x d) : r.via ≠ 2 := by
  obtain ⟨⟨⟨hv, -⟩, -⟩, -⟩ := h
  exact Nat.ne_of_lt hv

/-- An UPDATE_ACTIVATE whose checks pass starts, and asks the partner or comes to the point before its commit. -/
theorem arrive_activate (h : EngineTakes r k x d) (ho : r.opcode = 0x0503)
    (hc : activateCheck (field r.payload 0 1 == 1) r.ver (engineBegun r k x d) = (none, d1)) : aixArrive r m d =
      (let e := activateStart (field r.payload 0 1 == 1) d1
       let o := if e.upd.asked then (m, e) else abArrive (inSession r k x) m e
       aixPump 1 o.1 o.2) := by
  rw [arrive_engine r k x m d h, start_checked r k x m d h, if_pos ho, hc]

/-- Prepared and not held, it commits and takes effect. -/
theorem abArrive_activate {q : AixReq} (ho : q.opcode = 0x0503) (hh : q.hold = false) (hc : d.aix.cur = some q)
    (hr : d.aix.ready = none) (hp : (activatePrepare m d).1 = stOk) : abArrive q m d =
      abEffect q (activatePrepare m d).2.1 (aixDone stOk [[]] (activatePrepare m d).2.2) :=
  (abArrive_commits q m _ d _ stOk [[]] hh hc hr (abRun_updateActivate ho hp)).trans (if_pos rfl)

/-- SLEEP, not held, with no wake input at its level, commits and begins. -/
theorem abArrive_sleep {q : AixReq} (ho : q.opcode = 0x0601) (hv : q.via ≠ 2) (hh : q.hold = false) (hc : d.aix.cur = some q)
    (hr : d.aix.ready = none) (hw : wakeInputs d = []) : abArrive q m d =
      (m, sleepBegin (field q.payload 0 1) false (fset F.PWR_SLEEP_STATE (field q.payload 0 1)
        (aixDone stOk [q.payload.take 1] d))) :=
  (abArrive_commits q m _ d _ stOk _ hh hc hr (abRun_sleep ho hw)).trans ((if_pos rfl).trans (abEffect_sleep ho hv))

end Activation

/-- Settles O36: each clause is its opcode run, or decided, on the device as the engine begins it. -/
theorem engineServicesComplete : Obligations.EngineServicesComplete := by
  refine ⟨fun r k x d1 => ?_, fun r k x => ?_, fun r hold k x d1 => ?_, fun r k x d1 => ?_, fun r hold k x => ?_,
    fun r hold k x => ?_, fun r k x => ?_, fun r k x => ?_, fun r hold k x => ?_, fun r hold k x => ?_, fun r hold k x => ?_,
    fun r hold k x => ?_, fun r hold k x => ?_, fun r hold k x d1 => ?_, fun r hold k x d1 => ?_, fun r hold k x => ?_,
    fun r hold k x => ?_, fun r hold k x => ?_, fun r hold k x => ?_⟩
  -- UPDATE_BEGIN, UPDATE_BLOCK
  · exact completesBoth_engineDecided (exec_updateBegin r false) (by decide) (by decide) (fun m d h => h.1) fun m d ⟨_, h⟩ =>
      abRun_updateBegin rfl h
  · exact completesBoth_engineDecided (exec_updateBlock r false) (by decide) (by decide) (fun m d h => h.1) fun m d ⟨_, h⟩ =>
      abRun_updateBlock rfl h
  -- UPDATE_ACTIVATE
  · exact completesBoth_onBoth (exec_updateActivate r hold) fun m d ⟨ht, hc, ha⟩ => by
      rw [arrive_activate ht rfl hc]
      simp only [ha, if_true]
  · exact completesBoth_onBoth (exec_updateActivate r false) fun m d ⟨ht, hc, ha, hx, hp⟩ => by
      rw [arrive_activate ht rfl hc]
      simp only [ha, Bool.false_eq_true, if_false]
      rw [abArrive_activate rfl rfl (hx ▸ rfl) (hx ▸ rfl) hp]
  -- UPDATE_STATUS, UPDATE_CANCEL
  · exact completesBoth_engineAnswers (exec_updateStatus r hold) (by decide) (fun m d h => h) fun m d _ => rfl
  · exact completesBoth_engineAnswers (exec_updateCancel r hold) (by decide) (fun m d h => h.1) fun m d ⟨_, h⟩ =>
      opUpdateCancel_done h
  -- SLEEP
  · exact completesBoth_engineArrives (exec_sleep r false) (by decide) (by decide) (fun m d h => h.1) fun m d ⟨ht, h⟩ =>
      abArrive_sleep rfl (engineTakes_via (r := reqOf r _ _ _) ht) rfl rfl rfl h
  · exact completesBoth_engineHeld (exec_sleep r true) (by decide) (by decide) fun m d h => h
  -- SET_PLEVEL, POWER_STATUS
  · exact completesBoth_engineAnswers (exec_setPlevel r hold) (by decide) (fun m d h => h.1) fun m d ⟨_, h⟩ => opPlevel_over h
  · exact completesBoth_engineRun (exec_setPlevel r hold) (by decide) (fun m d h => h.1) fun m d ⟨_, h⟩ =>
      congrArg aixOut (opPlevel_busy h)
  · exact completesBoth_engineAnswers (exec_powerStatus r hold) (by decide) (fun m d h => h) fun m d _ => rfl
  -- REG_READ, REG_WRITE, SAT_READ, SAT_WRITE
  · exact completesBoth_engineRun (exec_regRead r hold) (by decide) (fun m d h => h) fun m d _ => rfl
  · exact completesBoth_engineRun (exec_regWrite r hold) (by decide) (fun m d h => h) fun m d _ => rfl
  · exact completesBoth_engineRun (exec_satRead r hold) (by decide) (fun m d h => h.1) fun m d ⟨_, h⟩ =>
      congrArg aixOut (svcOut_accepted h)
  · exact completesBoth_engineRun (exec_satWrite r hold) (by decide) (fun m d h => h.1) fun m d ⟨_, h⟩ =>
      congrArg aixOut (svcOut_accepted h)
  -- TENANT_CTRL, NET_SLEEP_POLICY, NET_STATUS, ROUTE_SEND
  · exact completesBoth_engineAnswers (exec_tenantCtrl r hold) (by decide) (fun m d h => h) fun m d _ => rfl
  · exact completesBoth_engineAnswers (exec_netSleepPolicy r hold) (by decide) (fun m d h => h) fun m d _ => rfl
  · exact completesBoth_engineAnswers (exec_netStatus r hold) (by decide) (fun m d h => h) fun m d _ => rfl
  · exact completesBoth_engineAnswers (exec_routeSend r hold) (by decide) (fun m d h => h.1) fun m d ⟨_, h⟩ => opRouteSend_sent h

end Sys2Proof.Machine

namespace Sys2Proof.Machine

/-! ### Frames, link and time of an Ethernet port (O37) -/

section EthernetFrames

variable {e : Nat} {vid : Option (BitVec 12)} {f : Dev → Dev} {d : Dev}

theorem ethTakes_iff : ethTakes e d = true ↔
    flag (F.ETH_CTRL_EN e) d = true ∧ d.pwr.sealed = false ∧ d.pwr.down = false := by
  simp only [ethTakes, Bool.and_eq_true, Bool.not_eq_true', and_assoc]

/-- A frame with the port's tag is counted and passed on (R326). -/
theorem ethFrame_tagged (ht : ethTakes e d = true) (hv : vlanOk e vid (fsat (F.ETH_CNT_RX_CNT e) 1 d) = true) :
    ethFrame e vid f d = f (fsat (F.ETH_CNT_RX_CNT e) 1 d) := by
  simp only [ethFrame, ht, hv, Bool.not_true, Bool.false_eq_true, if_false, if_true]

theorem ethFrame_wrong (ht : ethTakes e d = true) (hv : vlanOk e vid (fsat (F.ETH_CNT_RX_CNT e) 1 d) = false) :
    ethFrame e vid f d = fsat (F.ETH_CNT_DROP_CNT e) 1 (fsat (F.ETH_CNT_RX_CNT e) 1 d) := by
  simp only [ethFrame, ht, hv, Bool.not_true, Bool.false_eq_true, if_false]

theorem ethFrame_closed (h : flag (F.ETH_CTRL_EN e) d = false ∨ d.pwr.sealed = true ∨ d.pwr.down = true) :
    ethFrame e vid f d = d := by
  have ht : ethTakes e d = false := by rcases h with h | h | h <;> simp [ethTakes, h]
  simp only [ethFrame, ht, Bool.not_false, if_true]

end EthernetFrames

/-- The port takes frames, its block whole, and whether the tag of one is as ETH_VLAN says is `tag`. -/
def PortHears (e : Nat) (vid : Option (BitVec 12)) (tag : Bool) (d : Dev) : Prop :=
  (whole (13 + e) d ∧ flag (F.ETH_CTRL_EN e) d = true ∧ d.pwr.sealed = false ∧ d.pwr.down = false) ∧
    vlanOk e vid (fsat (F.ETH_CNT_RX_CNT e) 1 d) = tag

theorem portHears_takes {e : Nat} {vid : Option (BitVec 12)} {tag : Bool} {d : Dev} (h : PortHears e vid tag d) :
    whole (13 + e) d ∧ ethTakes e d = true ∧ vlanOk e vid (fsat (F.ETH_CNT_RX_CNT e) 1 d) = tag := by
  obtain ⟨⟨hw, ht⟩, hv⟩ := h
  exact ⟨hw, ethTakes_iff.2 ht, hv⟩

section FrameCommands

variable {c : Instr} {e : Nat} {vid : Option (BitVec 12)} {H : Dev → Prop} {f g : Dev → Dev}
  (hc : ∀ s, exec c s = onBlk (13 + e) (ethFrame e vid f) s)
include hc

/-- A frame with the right tag: what it comes to on the device once it is counted. -/
theorem completes_tagged (ht : ∀ d, H d → PortHears e vid true d)
    (h : ∀ d, H d → f (fsat (F.ETH_CNT_RX_CNT e) 1 d) = g d) : Completes c H g :=
  completes_onBlk hc (fun d hd => (portHears_takes (ht d hd)).1) fun d hd => by
    obtain ⟨-, hp, hv⟩ := portHears_takes (ht d hd)
    rw [ethFrame_tagged hp hv, h d hd]

theorem completes_wrongTag : Completes c (PortHears e vid false)
    (fun d => fsat (F.ETH_CNT_DROP_CNT e) 1 (fsat (F.ETH_CNT_RX_CNT e) 1 d)) :=
  completes_onBlk hc (fun _ hd => (portHears_takes hd).1) fun _ hd => by
    obtain ⟨-, hp, hv⟩ := portHears_takes hd
    exact ethFrame_wrong hp hv

theorem ignored_closedPort :
    Ignored c (fun d => flag (F.ETH_CTRL_EN e) d = false ∨ d.pwr.sealed = true ∨ d.pwr.down = true) :=
  ignored_onBlk hc fun _ => ethFrame_closed

end FrameCommands

section EthernetEvents

variable {e : Nat} {f : NetFrame} {bs : List Byte} {up on : Bool} {d : Dev}

theorem arpAsk_own (h0 : f.dst.toNat ≠ 0) (h : f.dst.toNat = ownV4 e d) :
    arpAsk e f d = ethSend e (.arpReply e (ethTag e d) f.src.toNat f.dst.toNat) d := if_pos ⟨h0, h⟩

theorem arpAsk_other (h : f.dst.toNat = 0 ∨ f.dst.toNat ≠ ownV4 e d) : arpAsk e f d = d := if_neg (by tauto)

theorem neighbourAsk_own (h : (ownV6 e d).contains f.dst.toNat = true) : neighbourAsk e f d =
    ethSend e (.neighbourAdvert e (ethTag e d) f.src.toNat (nextHop e f.src.toNat d) f.dst.toNat) d := if_pos h

theorem neighbourAsk_other (h : (ownV6 e d).contains f.dst.toNat = false) : neighbourAsk e f d = d :=
  if_neg (Bool.eq_false_iff.1 h)

theorem echoAsk_own (hl : bs.length ≤ 1500) (h0 : f.dst ≠ 0) (h : (ownV4 e d :: ownV6 e d).contains f.dst.toNat = true) :
    echoAsk e f bs d = ethSend e (.echoReply e (ethTag e d) f.src.toNat (nextHop e f.src.toNat d) bs) d := if_pos ⟨hl, h, h0⟩

theorem ethLink_changes (h : flag (F.ETH_STATUS_LINK e) d ≠ up) : ethLink e up d =
    fput (F.ETH_INT_STAT_LINK e) true (recordC 0x0908 e (b2n up)
      (fput (F.ETH_STATUS_LINK e) up (fput (F.ETH_STATUS_SYNC e) up d))) := if_neg (by simpa using h)

theorem ethLink_same (h : flag (F.ETH_STATUS_LINK e) d = up) : ethLink e up d = d := if_pos (by simpa using h)

/-- Synchronisation gained, by a port that is an end station (R57). -/
theorem ethPtp_gained (hs : flag (F.ETH_STATUS_PTP_SYNC e) d = false) (hp : flag (F.ETH_CTRL_PTP_EN e) d = true) :
    ethPtp e true d =
      fput (F.ETH_INT_STAT_PTP e) true (recordC 0x0909 e 1 (fput (F.ETH_STATUS_PTP_SYNC e) true d)) :=
  if_neg (by simp [hs, hp])

/-- Synchronisation lost: the angle loses the source if it is this port's (R57). -/
theorem ethPtp_lost (hs : flag (F.ETH_STATUS_PTP_SYNC e) d = true) : ethPtp e false d =
    let d1 := fput (F.ETH_INT_STAT_PTP e) true (recordC 0x0909 e 0 (fput (F.ETH_STATUS_PTP_SYNC e) false d))
    if fget F.ANG_CTRL_PTP_PORT d1 = e then ptpLost d1 else d1 := by
  simp only [ethPtp, hs, Bool.not_false, Bool.true_and, beq_iff_eq, Bool.false_and, Bool.or_false, Bool.true_eq_false, if_false]
  rfl

theorem ethPtp_same (h : flag (F.ETH_STATUS_PTP_SYNC e) d = on) : ethPtp e on d = d := if_pos (by simp [h])

end EthernetEvents

/-! ### The wake port (O37) -/

section WakePort

variable {bs : List Byte} {fast : Bool} {m : List Host.Cell} {d : Dev}

section Served

variable (h : matcherOn (fput F.TWP_CTRL_FAST fast d) = true)
include h

/-- A transfer that the matcher serves wakes (R457). -/
theorem twpWrite_wakes : twpWrite bs fast m d = (m, addressMatch (!bs.isEmpty) (fput F.TWP_CTRL_FAST fast d)) := if_pos h

theorem twpRead_wakes : twpRead fast d = addressMatch false (fput F.TWP_CTRL_FAST fast d) := if_pos h

end Served

variable (hm : matcherOn (fput F.TWP_CTRL_FAST fast d) = false)
include hm

section Writes

variable (ho : twpOn (fput F.TWP_CTRL_FAST fast d) = true)
include ho

theorem twpWrite_short (hw : twpWhole bs = false) : twpWrite bs fast m d =
    (m, recordC 0x0C07 0 bs.length (fsat F.TWP_CNT_ERR_CNT 1 (fput F.TWP_CTRL_FAST fast d))) := by
  simp only [twpWrite, hm, ho, hw, Bool.not_true, Bool.not_false, Bool.false_eq_true, if_false, if_true]
  rfl

variable (hw : twpWhole bs = true)
include hw

theorem twpWrite_badCrc (hc : dgCrc bs = false) : twpWrite bs fast m d =
    (m, recordC 0x0C07 1 bs.length (fsat F.TWP_CNT_ERR_CNT 1 (fput F.TWP_CTRL_FAST fast d))) := by
  simp only [twpWrite, hm, ho, hw, hc, Bool.not_true, Bool.not_false, Bool.false_eq_true, if_false, if_true]
  rfl

/-- A right one is a request of the wake port (R360). -/
theorem twpWrite_requests (hc : dgCrc bs = true) (hf : formOk (dgReq 2 0 0 bs) = true) (h0 : field bs 8 2 = 0) :
    twpWrite bs fast m d =
      aixSource (dgReq 2 0 0 bs) m (fsat F.TWP_CNT_RX_CNT 1 (fput F.TWP_CTRL_FAST fast d)) := by
  simp only [twpWrite, hm, ho, hw, hc, hf, h0, beq_self_eq_true, Bool.and_self, Bool.not_true, Bool.false_eq_true,
    if_false, if_true]

end Writes

variable (hb : d.pwr.booted = true)
include hb

theorem twpRead_empty (ht : d.aix.twp = none) : twpRead fast d = send (.twpRead [0, 0]) (fput F.TWP_CTRL_FAST fast d) := by
  have hb' : (fput F.TWP_CTRL_FAST fast d).pwr.booted = true := hb
  have ht' : (fput F.TWP_CTRL_FAST fast d).aix.twp = none := ht
  simp only [twpRead, hm, hb', ht', Bool.not_true, Bool.false_eq_true, if_false]

theorem twpRead_reply {reply : List Byte} (ht : d.aix.twp = some reply) : twpRead fast d =
    twpSleepGo (send (.twpRead (leBytes 2 reply.length ++ reply)) (fsat F.TWP_CNT_TX_CNT 1 (fput F.TWP_STATUS_TX_READY false
      (aixPut { d.aix with twp := none } (fput F.TWP_CTRL_FAST fast d))))) := by
  have hb' : (fput F.TWP_CTRL_FAST fast d).pwr.booted = true := hb
  have ht' : (fput F.TWP_CTRL_FAST fast d).aix.twp = some reply := ht
  simp only [twpRead, hm, hb', ht', Bool.not_true, Bool.false_eq_true, if_false]
  rfl

end WakePort

theorem twpExpiry_expires {d : Dev} (h : d.aix.twp ≠ none) : twpExpiry d = recordC 0x0C07 2 0 (fsat F.TWP_CNT_ERR_CNT 1
    (fput F.TWP_STATUS_TX_READY false (aixPut { d.aix with twp := none, twpSleep := none } d))) := if_neg (by simpa using h)

theorem twpExpiry_none {d : Dev} (h : d.aix.twp = none) : twpExpiry d = d := if_pos (by simp [h])

/-- Settles O37: each clause is the rule of its event above. -/
theorem ethernetAndWakePortComplete : Obligations.EthernetAndWakePortComplete := by
  refine ⟨fun port f bs => ⟨?_, ?_, ?_, ?_, ?_, ?_, ?_, ?_, ?_, ?_, ?_⟩, fun port up => ?_, fun port up => ?_, fun port => ?_,
    fun port => ?_, fun port on => ?_, fun e => ?_, fun bs fast => ⟨?_, ?_, ?_, ?_, ?_, ?_, fun reply => ?_⟩, ?_, ?_⟩
  -- frames with the right tag
  · exact completes_tagged (exec_arpRequest port f) (fun d h => h.1) fun d ⟨_, h0, h⟩ => arpAsk_own h0 h
  · exact completes_tagged (exec_arpRequest port f) (fun d h => h.1) fun d ⟨_, h⟩ => arpAsk_other h
  · exact completes_tagged (exec_neighbourSolicitation port f) (fun d h => h.1) fun d ⟨_, h⟩ => neighbourAsk_own h
  · exact completes_tagged (exec_neighbourSolicitation port f) (fun d h => h.1) fun d ⟨_, h⟩ => neighbourAsk_other h
  · exact completes_tagged (exec_echoRequest port f bs) (fun d h => h.1) fun d ⟨_, hl, h0, h⟩ => echoAsk_own hl h0 h
  -- frames with a wrong tag, and at a port that takes none
  · exact completes_wrongTag (exec_arpRequest port f)
  · exact completes_wrongTag (exec_neighbourSolicitation port f)
  · exact completes_wrongTag (exec_echoRequest port f bs)
  · exact ignored_closedPort (exec_arpRequest port f)
  · exact ignored_closedPort (exec_neighbourSolicitation port f)
  · exact ignored_closedPort (exec_echoRequest port f bs)
  -- link, PTP and counters
  · exact completes_onBlk (exec_ethLink port up) (fun d h => h.1) fun d ⟨_, h⟩ => ethLink_changes h
  · exact ignored_onBlk (exec_ethLink port up) fun d h => ethLink_same h
  · exact completes_onBlk (exec_ethPtp port true) (fun d h => h.1) fun d ⟨_, hs, hp⟩ => ethPtp_gained hs hp
  · exact completes_onBlk (exec_ethPtp port false) (fun d h => h.1) fun d ⟨_, hs⟩ => ethPtp_lost hs
  · exact ignored_onBlk (exec_ethPtp port on) fun d h => ethPtp_same h
  · exact completes_onBlk (exec_ethCntClr e) (fun d h => h) fun d _ => rfl
  -- the wake port
  · exact completes_onBoth (exec_twpWriteTransfer bs fast) fun m d h => twpWrite_wakes h
  · exact completes_onDev (exec_twpReadTransfer fast) fun d h => twpRead_wakes h
  · exact completes_onBoth (exec_twpWriteTransfer bs fast) fun m d ⟨ho, hm, hw⟩ => twpWrite_short hm ho hw
  · exact completes_onBoth (exec_twpWriteTransfer bs fast) fun m d ⟨ho, hm, hw, hc⟩ => twpWrite_badCrc hm ho hw hc
  · exact completesBoth_onBoth (exec_twpWriteTransfer bs fast) fun m d ⟨ho, hm, hw, hc, hf, h0⟩ =>
      twpWrite_requests hm ho hw hc hf h0
  · exact completes_onDev (exec_twpReadTransfer fast) fun d ⟨hm, hb, ht⟩ => twpRead_empty hm hb ht
  · exact completes_onDev (exec_twpReadTransfer fast) fun d ⟨hm, hb, ht⟩ => twpRead_reply hm hb ht
  · exact completes_onDev exec_twpReplyExpiry fun d h => twpExpiry_expires h
  · exact ignored_onDev exec_twpReplyExpiry fun d h => twpExpiry_none h

end Sys2Proof.Machine

namespace Sys2Proof.Machine

/-! ### Counters cleared (O54) -/

/-- Clearing registers changes the register file alone. -/
theorem each_clear_frame (l : List Nat) (d : Dev) :
    each l (fun r => regPut r 0) d = { d with regs := (each l (fun r => regPut r 0) d).regs } := by
  induction l generalizing d with
  | nil => rfl
  | cons r l ih =>
    rw [each_cons]
    exact ih (regPut r 0 d)

/-- The registers cleared read 0, every other one as before. -/
theorem regGet_each_clear (l : List Nat) (a : Nat) (d : Dev) :
    regGet (each l (fun r => regPut r 0) d) a = if a ∈ l then 0 else regGet d a := by
  induction l generalizing d with
  | nil => rfl
  | cons r l ih =>
    rw [each_cons, ih]
    by_cases hr : r = a
    · subst hr
      simp
    · simp [regGet_regPut_ne _ _ hr, Ne.symm hr]

/-- What a command that completes as a clear of the registers `l` answers. -/
theorem clear_answers {c : Instr} {H : Dev → Prop} {l : List Nat} (hc : Completes c H (each l fun r => regPut r 0)) {s : State}
    (hs : H s.dev) : ∃ t : State, exec c s = .next t ∧ t = { s with dev := { s.dev with regs := t.dev.regs } } ∧
      ∀ a : Nat, regGet t.dev a = if a ∈ l then 0 else regGet s.dev a :=
  ⟨_, hc s hs, congrArg (fun d => { s with dev := d }) (each_clear_frame l s.dev), fun a => regGet_each_clear l a s.dev⟩

theorem peerClr_completes : Completes .peerClr (whole 12)
    (each [R.PEER_CNT_CRC, R.PEER_CNT_RETX, R.PEER_CNT_RETRY, R.PEER_CNT_ERR] fun r => regPut r 0) :=
  completes_onBlk exec_peerClr (fun _ h => h) fun _ _ => rfl

theorem brgClr_completes : Completes .brgClr always
    (each [R.BRG_CNT_ERR, R.BRG_CNT_RETRY, R.BRG_CNT_PFHIT, R.BRG_CNT_MEM, R.BRG_CNT_PAR] fun r => regPut r 0) :=
  completes_onDev exec_brgClr fun _ _ => rfl

theorem canCntClr_completes (n : Fin 6) : Completes (.canCntClr n) (whole (16 + n.val))
    (each [R.CAN_CNT_RX n.val, R.CAN_CNT_TX n.val, R.CAN_CNT_ERR n.val, R.CAN_CNT_DROP n.val, R.CAN_CNT_ABN n.val]
      fun r => regPut r 0) :=
  completes_onBlk (exec_canCntClr n) (fun _ h => h) fun _ _ => rfl

theorem ethCntClr_completes (e : Fin 2) : Completes (.ethCntClr e) (whole (13 + e.val))
    (each [R.ETH_CNT_RX e.val, R.ETH_CNT_FCS e.val, R.ETH_CNT_DROP e.val, R.ETH_CNT_TX e.val] fun r => regPut r 0) :=
  completes_onBlk (exec_ethCntClr e) (fun _ h => h) fun _ _ => rfl

/-- Settles O54: each command completes as a clear of its counters. -/
theorem clearCommandsChangeTheirCountersAlone : Obligations.ClearCommandsChangeTheirCountersAlone := by
  refine ⟨fun s h => ?_, fun s _ => ?_, fun n s h => ?_, fun e s h => ?_⟩
  · exact clear_answers peerClr_completes (h 12 rfl)
  · exact clear_answers brgClr_completes trivial
  · exact clear_answers (canCntClr_completes n) (h (16 + n.val) rfl)
  · exact clear_answers (ethCntClr_completes e) (h (13 + e.val) rfl)

end Sys2Proof.Machine

namespace Sys2Proof.Machine

/-! ### The peer link (O39) -/

section PeerLink

variable {d : Dev}

/-- The device once the link that has come up is shown and recorded, before the role message (R401). -/
def linkShown (ver : Nat) (two : Bool) (d : Dev) : Dev :=
  let d1 := fset F.PEER_STATUS_VER ver (fset F.PEER_STATUS_LINK 2 (fput F.PEER_STATUS_LANE_0 true (fput F.PEER_STATUS_LANE_1 two d)))
  let d2 := recordC 0x0A20 ver (if two then 2 else 1) { d1 with brg := { d1.brg with unacked := 0, waiting := [] } }
  updStateTo (updState d2) (fput F.UPD_PARTNER_VALID false d2)

/-- A member that waited for its partner negotiates. -/
theorem linkUp_rises (ver : Nat) (two : Bool) (hm : d.pair.mode ≠ 0) (he : flag F.PEER_CTRL_EN d = true) (hu : peerUp d = false) :
    linkUp ver two d = roleMessage false
      (if (linkShown ver two d).pair.role = 1 then roleTo 2 (linkShown ver two d) else linkShown ver two d) :=
  if_neg (by simp [hm, he, hu])

theorem linkUp_ignored (ver : Nat) (two : Bool) (h : d.pair.mode = 0 ∨ flag F.PEER_CTRL_EN d = false ∨ peerUp d = true) :
    linkUp ver two d = d := if_pos h

/-- The marks of a secondary alone reach the store. -/
theorem linkDownBoth_not_secondary (m : List Host.Cell) (hr : (linkDown d).pair.role ≠ 4) :
    linkDownBoth m d = (m, linkDown d) := by simp [linkDownBoth, hr]

theorem linkDownBoth_down (m : List Host.Cell) (hu : peerUp d = false) : linkDownBoth m d = (m, d) := by
  simp [linkDownBoth, linkDown, hu]

end PeerLink

section ControlFrame

variable {d : Dev} {acked : Nat}

theorem peerControl_linkOff (rtt : Option (BitVec 16)) (z : Option (Fin 7)) (h : fget F.PEER_STATUS_LINK d = 0) :
    peerControl acked rtt z d = d := if_pos h

variable (h : fget F.PEER_STATUS_LINK d ≠ 0)
include h

theorem peerControl_discarded (rtt : Option (BitVec 16)) : peerControl acked rtt none d = fsat F.PEER_CNT_CRC_CNT 1 d := if_neg h

theorem peerControl_measured (r : BitVec 16) (z : Fin 7) : peerControl acked (some r) (some z) d = fset F.PEER_RTT_RTT r.toNat
    (framesDrain acked (partnerZonePut z.val { d with brg := { d.brg with unacked := d.brg.unacked - acked } })) := if_neg h

theorem peerControl_unmeasured (z : Fin 7) : peerControl acked none (some z) d =
    framesDrain acked (partnerZonePut z.val { d with brg := { d.brg with unacked := d.brg.unacked - acked } }) := if_neg h

end ControlFrame

/-! ### Inbound requests of the partner (R403, R404) -/

section InboundRequest

variable {d : Dev} {wr : Bool} {a size data : Nat} {m : List Host.Cell}
  (hu : peerUp d = true) (hv : fget F.PEER_STATUS_VER d = 2)
include hu hv

theorem peerRequest_busy (hb : (actsPrimary d && !d.brg.peerOut.isEmpty) = true) :
    peerRequest wr a size data m d = toPartner .peerRetry (fsat F.PEER_CNT_RETRY_CNT 1 d) := by
  simp only [peerRequest, hu, hv, hb]
  rfl

variable (hb : (actsPrimary d && !d.brg.peerOut.isEmpty) = false)
include hb

theorem peerRequest_closed (ho : (flag F.PEER_CTRL_IN_EN d && targetOf a != some 5) = false) :
    peerRequest wr a size data m d = toPartner (.peerResponse none 0) d := by
  have hc : (!flag F.PEER_CTRL_IN_EN d || targetOf a == some 5) = true := by
    rw [← Bool.not_eq_false', Bool.not_or, Bool.not_not]
    exact ho
  simp only [peerRequest, hu, hv, hb, hc]
  rfl

/-- A request that is taken queues, and starts when it is the first. -/
theorem peerRequest_queued (ho : (flag F.PEER_CTRL_IN_EN d && targetOf a != some 5) = true) :
    peerRequest wr a size data m d =
      if d.brg.peerIn.isEmpty then peerInStart m (peerInPut (d.brg.peerIn ++ [{ write := wr, addr := a, size, data }]) d)
      else peerInPut (d.brg.peerIn ++ [{ write := wr, addr := a, size, data }]) d := by
  have hc : (!flag F.PEER_CTRL_IN_EN d || targetOf a == some 5) = false := by
    rw [← Bool.not_eq_true', Bool.not_or, Bool.not_not]
    exact ho
  simp only [peerRequest, hu, hv, hb, hc]
  rfl

end InboundRequest

/-- PEER_REQUEST reads the memories and leaves them. -/
theorem exec_peerRequest_both (wr : Bool) (a : BitVec 40) (size : Fin 65) (data : BitVec 64) (s : State) :
    exec (.peerRequest wr a size data) s =
      onBlkBoth 12 (fun m d => (m, peerRequest wr a.toNat size.val data.toNat m d)) s := rfl

/-- The response to an inbound request, none once the link has been down under it (R403). -/
def inboundAnswered (x : PeerIn) (v : Option Nat) (c : Nat) (d : Dev) : Dev := if x.dead then d else toPartner (.peerResponse v c) d

section InboundEnd

variable {d : Dev} {chk : MemCheck} {m : List Host.Cell} {x : PeerIn} {rest : List PeerIn} (hq : d.brg.peerIn = x :: rest)
include hq

theorem peerInDone_result {v : Option Nat} {c : Nat} (hr : x.result = some (v, c)) :
    peerInDone chk m d = (m, peerInStart m (peerInPut rest (inboundAnswered x v c d))) := by
  simp only [peerInDone, hq, hr, inboundAnswered]

variable {v : Nat} (hr : x.result = none) (ht : targetOf x.addr ≠ some 4)
include hr ht

theorem peerInDone_read (hw : x.write = false)
    (hv : (busRead .peer 8 (peerAttr x.addr d) x.addr x.size chk m d).1 = some (.data v)) :
    peerInDone chk m d = (m, peerInStart m (peerInPut rest
      (inboundAnswered x (some v) 0 (busRead .peer 8 (peerAttr x.addr d) x.addr x.size chk m d).2))) := by
  simp only [peerInDone, hq, hr, if_neg ht, hw, Bool.false_eq_true, if_false, hv, inboundAnswered]

theorem peerInDone_write (hw : x.write = true)
    (hv : (busWrite .peer 8 (peerAttr x.addr d) x.addr x.size x.data chk m d).1 = some (.data v)) :
    peerInDone chk m d = ((busWrite .peer 8 (peerAttr x.addr d) x.addr x.size x.data chk m d).2.1,
      peerInStart (busWrite .peer 8 (peerAttr x.addr d) x.addr x.size x.data chk m d).2.1 (peerInPut rest
        (inboundAnswered x (some v) 0 (busWrite .peer 8 (peerAttr x.addr d) x.addr x.size x.data chk m d).2.2))) := by
  simp only [peerInDone, hq, hr, if_neg ht, hw, if_true, hv, inboundAnswered]

end InboundEnd

/-! ### Answers to the own requests (R402, R404) -/

/-- The value that the last data of a request deliver. -/
def answerValue (x : PeerReq) (bs : List Byte) : Nat :=
  if x.block then blockData x.addr x.size bs
  else if x.size = 8 then x.low + field bs 0 4 * 2 ^ 32 else field bs 0 x.size

/-- One of the 8 requests that are out takes an answer unless it waits to be sent again. -/
theorem answer_awaited {i : Nat} {x : PeerReq} (hi : i < 8) (hw : x.waits = false) : ¬(8 ≤ i ∨ x.waits = true) := by
  simp [hw, hi]

section Answers

variable {d : Dev} {i : Nat} {x : PeerReq} (hx : d.brg.peerOut[i]? = some x) (hi : i < 8) (hw : x.waits = false)
include hx hi hw

theorem peerResponse_error (c : BitVec 4) : peerResponse i (.error c) d = peerFail i 9 c.toNat d := by
  simp only [peerResponse, hx, if_neg (answer_awaited hi hw)]

theorem peerResponse_retry : peerResponse i .retry d =
    if max 1 (fget F.PEER_CFG_RETRY_MAX (fsat F.PEER_CNT_RETRY_CNT 1 d)) ≤ x.tries then
      peerFail i 8 0 (fsat F.PEER_CNT_RETRY_CNT 1 d)
    else peerOutPut (listPut d.brg.peerOut i { x with waits := true }) (fsat F.PEER_CNT_RETRY_CNT 1 d) := by
  simp only [peerResponse, hx, if_neg (answer_awaited hi hw)]
  rfl

/-- The lower half of 8 bytes is kept, and the upper half asked for. -/
theorem peerResponse_lower (bs : List Byte) (h : x.size = 8 ∧ x.half = 0 ∧ x.block = false) : peerResponse i (.data bs) d =
    peerSend { x with half := 1, low := field bs 0 4 }
      (peerOutPut (listPut d.brg.peerOut i { x with half := 1, low := field bs 0 4 }) d) := by
  simp only [peerResponse, hx, if_neg (answer_awaited hi hw), if_pos h]

/-- The last data end the request; a block fills the prefetch buffer too. -/
theorem peerResponse_last (bs : List Byte) (h : ¬(x.size = 8 ∧ x.half = 0 ∧ x.block = false)) : peerResponse i (.data bs) d =
    busDeliver x.origin x.write x.addr x.size x.attr x.mode 1 (.data (answerValue x bs))
      (peerLeave i (if x.block then peerPfKeep x bs d else d)) := by
  simp only [peerResponse, hx, if_neg (answer_awaited hi hw), if_neg h, answerValue]

theorem peerResponse_upper (bs : List Byte) (hb : x.block = false) (hs : x.size = 8) (hh : x.half = 1) :
    peerResponse i (.data bs) d = busDeliver x.origin x.write x.addr x.size x.attr x.mode 1
      (.data (x.low + field bs 0 4 * 2 ^ 32)) (peerLeave i d) := by
  rw [peerResponse_last hx hi hw bs (by simp [hh]), answerValue, hb, if_pos hs]
  rfl

theorem peerResponse_small (bs : List Byte) (hb : x.block = false) (hs : x.size ≠ 8) :
    peerResponse i (.data bs) d = busDeliver x.origin x.write x.addr x.size x.attr x.mode 1
      (.data (field bs 0 x.size)) (peerLeave i d) := by
  rw [peerResponse_last hx hi hw bs (by simp [hs]), answerValue, hb, if_neg hs]
  rfl

theorem peerResponse_block (bs : List Byte) (hb : x.block = true) :
    peerResponse i (.data bs) d = busDeliver x.origin x.write x.addr x.size x.attr x.mode 1
      (.data (field bs (x.addr % 64) x.size)) (peerLeave i (peerPfKeep x bs d)) := by
  rw [peerResponse_last hx hi hw bs (by simp [hb]), answerValue, hb]
  rfl

end Answers

theorem peerRetry_waiting {d : Dev} {i : Nat} {x : PeerReq} (hx : d.brg.peerOut[i]? = some x) (hw : x.waits = true) :
    peerRetry i d = peerSend { x with waits := false, tries := x.tries + 1 }
      (peerOutPut (listPut d.brg.peerOut i { x with waits := false, tries := x.tries + 1 }) d) := by
  simp only [peerRetry, hx, hw, if_true]

theorem peerRetry_none {d : Dev} {i : Nat} (hx : d.brg.peerOut[i]? = none) : peerRetry i d = d := by
  simp only [peerRetry, hx]

/-- Settles O39: each clause is the rule of its event above. -/
theorem peerLinkCommandsComplete : Obligations.PeerLinkCommandsComplete := by
  refine ⟨fun v two => ⟨?_, ?_, ?_⟩, ?_, ?_, fun lane => ⟨?_, ?_⟩, fun acked z rtt => ⟨?_, ?_, fun r => ?_, fun r zone => ?_⟩,
    fun n => ⟨?_, ?_⟩, ?_, fun wr a size data => ⟨?_, ?_, ?_, ?_⟩, fun chk x rest => ⟨fun v c hr => ?_, fun v h => ?_, fun v h => ?_⟩,
    fun i x => ?_, peerClr_completes⟩
  -- the link comes up, and goes down
  · exact completes_onBlk (exec_peerLinkUp v two) (fun d h => h.1.1) fun d ⟨⟨_, hm, he, hu⟩, hr⟩ =>
      (linkUp_rises _ two hm he hu).trans (congrArg (roleMessage false) (if_pos hr))
  · exact completes_onBlk (exec_peerLinkUp v two) (fun d h => h.1.1) fun d ⟨⟨_, hm, he, hu⟩, hr⟩ =>
      (linkUp_rises _ two hm he hu).trans (congrArg (roleMessage false) (if_neg hr))
  · exact ignored_onBlk (exec_peerLinkUp v two) fun d h => linkUp_ignored _ two h
  · exact completesBoth_onBlkBoth exec_peerLinkDown (fun m d h => h.1) fun m d ⟨_, hu, hr⟩ => congrArg settle
      ((linkDownBoth_not_secondary m hr).trans (congrArg (Prod.mk m) (if_neg (by simp [hu]))))
  · exact completesBoth_onBlkBoth exec_peerLinkDown (fun m d h => h.1) fun m d h => congrArg settle (linkDownBoth_down m h.2)
  · exact completes_onBlk (exec_peerLane lane) (fun d h => h.1) fun d h => if_pos h.2
  · exact ignored_onBlk (exec_peerLane lane) fun d h => if_neg (Bool.eq_false_iff.1 h)
  -- control frames, and frames sent again
  · exact completes_onBlk (exec_peerLinkControlFrame acked (some rtt) (some z)) (fun d h => h.1) fun d h =>
      peerControl_measured h.2 rtt z
  · exact completes_onBlk (exec_peerLinkControlFrame acked none (some z)) (fun d h => h.1) fun d h => peerControl_unmeasured h.2 z
  · exact completes_onBlk (exec_peerLinkControlFrame acked r none) (fun d h => h.1) fun d h => peerControl_discarded h.2 r
  · exact ignored_onBlk (exec_peerLinkControlFrame acked r zone) fun d h => peerControl_linkOff r zone h
  · exact completes_onBlk (exec_peerRetransmit n) (fun d h => h.1) fun d h => if_neg h.2.ne'
  · exact ignored_onBlk (exec_peerRetransmit n) fun d h => if_pos h
  · exact completes_onBlk exec_peerIdleControl (fun d h => h) fun d _ => rfl
  -- requests of the partner
  · exact completes_onBlkBoth (exec_peerRequest_both wr a size data) (fun d h => h.1.1) fun m d ⟨⟨_, hu, hv⟩, hb⟩ =>
      congrArg (Prod.mk m) (peerRequest_busy hu hv hb)
  · exact completes_onBlkBoth (exec_peerRequest_both wr a size data) (fun d h => h.1.1) fun m d ⟨⟨_, hu, hv⟩, hb, ho⟩ =>
      congrArg (Prod.mk m) (peerRequest_closed hu hv hb ho)
  · exact completesBoth_onBlkBoth (exec_peerRequest_both wr a size data) (fun m d h => h.1.1) fun m d ⟨⟨_, hu, hv⟩, hb, ho, h0⟩ =>
      congrArg (Prod.mk m) ((peerRequest_queued hu hv hb ho).trans (if_pos (by simp [h0])))
  · exact completes_onBlkBoth (exec_peerRequest_both wr a size data) (fun d h => h.1.1) fun m d ⟨⟨_, hu, hv⟩, hb, ho, h0⟩ =>
      congrArg (Prod.mk m) ((peerRequest_queued hu hv hb ho).trans (if_neg (by simp [h0])))
  -- their ends
  · exact completesBoth_onBlkBoth (exec_peerInboundComplete chk) (fun m d h => h.1) fun m d h => peerInDone_result h.2 hr
  · obtain ⟨hr, hw, ht⟩ := h
    exact completesBoth_onBlkBoth (exec_peerInboundComplete chk) (fun m d h => h.1.1) fun m d ⟨⟨_, hq⟩, hv⟩ =>
      peerInDone_read hq hr ht hw hv
  · obtain ⟨hr, hw, ht⟩ := h
    exact completesBoth_onBlkBoth (exec_peerInboundComplete chk) (fun m d h => h.1.1) fun m d ⟨⟨_, hq⟩, hv⟩ =>
      peerInDone_write hq hr ht hw hv
  -- answers to the own requests
  · have hp := fun a : PeerAnswer => exec_peerResponse i a
    refine ⟨fun bs ⟨hb, hs, hh⟩ => ?_, fun bs ⟨hb, hs, hh⟩ => ?_, fun bs ⟨hb, hs⟩ => ?_, fun bs hb => ?_, fun c => ?_, ?_, ?_, ?_, ?_⟩
    · exact settles_onEvent (hp _) (fun d h => h.1) fun d ⟨_, hx, hw⟩ => peerResponse_lower hx i.isLt hw bs ⟨hs, hh, hb⟩
    · exact settles_onEvent (hp _) (fun d h => h.1) fun d ⟨_, hx, hw⟩ => peerResponse_upper hx i.isLt hw bs hb hs hh
    · exact settles_onEvent (hp _) (fun d h => h.1) fun d ⟨_, hx, hw⟩ => peerResponse_small hx i.isLt hw bs hb hs
    · exact settles_onEvent (hp _) (fun d h => h.1) fun d ⟨_, hx, hw⟩ => peerResponse_block hx i.isLt hw bs hb
    · exact settles_onEvent (hp _) (fun d h => h.1) fun d ⟨_, hx, hw⟩ => peerResponse_error hx i.isLt hw c
    · exact settles_onEvent (hp _) (fun d h => h.1.1) fun d ⟨⟨_, hx, hw⟩, ht⟩ =>
        (peerResponse_retry hx i.isLt hw).trans (if_neg (not_le.2 ht))
    · exact settles_onEvent (hp _) (fun d h => h.1.1) fun d ⟨⟨_, hx, hw⟩, ht⟩ =>
        (peerResponse_retry hx i.isLt hw).trans (if_pos ht)
    · exact completes_onBlk (exec_peerRequestRetry i) (fun d h => h.1) fun d ⟨_, hx, hw⟩ => peerRetry_waiting hx hw
    · exact ignored_onBlk (exec_peerRequestRetry i) fun d h => peerRetry_none h

end Sys2Proof.Machine

namespace Sys2Proof.Machine

/-! ### The update's erase, confirmation and partner report (O40) -/

section UpdateEvents

variable {d : Dev} {m : List Host.Cell}

theorem stagingErased_erasing (h : updState d = 1) : stagingErased m d =
    (memErase stageBase (0x1000 + 4096 * fget F.UPD_BLOCKS_BLOCKS d) m, updStateTo 2 (updPut { d.upd with staged := none } d)) :=
  if_neg (not_not_intro h)

theorem stagingErased_other (h : updState d ≠ 1) : stagingErased m d = (m, d) := if_pos h

theorem bankConfirmed_off (h : flag F.UPD_STATUS_TRIAL d = false ∨ d.pwr.booted = false ∨ tlState 0 d ≠ 3) :
    bankConfirmed m d = (m, d) := if_pos (by simpa [or_assoc] using h)

/-- The device once the partner's update report `r` is kept (R499). -/
def reportKept (r : UpdReport) (d : Dev) : Dev :=
  fput F.UPD_PARTNER_VALID true (fput F.UPD_PARTNER_TRIAL r.trial (fset F.UPD_PARTNER_UCODE_VER r.ucode.toNat
    (fset F.UPD_PARTNER_PEER_MIN r.peerMin (fset F.UPD_PARTNER_PEER_MAX r.peerMax (fset F.UPD_PARTNER_STATE r.state d)))))

/-- A hold ends with the report of a partner that is not activating. -/
theorem partnerReport_keeps (r : UpdReport) (d : Dev) : partnerReport r d =
    if r.trial = true ∨ r.state = 4 ∨ r.state = 5 ∨ r.state = 6 then reportKept r d
    else fput F.UPD_STATUS_HOLD false (reportKept r d) := by
  simp only [partnerReport, Bool.or_eq_true, beq_iff_eq, or_assoc, reportKept]

end UpdateEvents

/-- Settles O40: each clause is the rule of its event above. -/
theorem busErrorsAndUpdateEventsComplete : Obligations.BusErrorsAndUpdateEventsComplete := by
  refine ⟨fun t => ⟨?_, ?_⟩, brgClr_completes, ?_, ?_, ?_, ?_, fun r => ⟨fun hb => ?_, fun hb => ?_, ?_⟩⟩
  -- the bus error queues
  · exact completes_onDev (exec_beNPop t) fun d _ => rfl
  · exact completes_onDev (exec_beSPop t) fun d _ => rfl
  -- the staging area, and the trial bank
  · exact completesBoth_onBlkBoth exec_stagingEraseDone (fun m d h => h.1) fun m d h => stagingErased_erasing h.2
  · exact ignored_onBlkBoth exec_stagingEraseDone fun m d h => stagingErased_other h
  · exact completesBoth_onBlkBoth exec_bankConfirmed (fun m d h => h.1) fun m d ⟨_, ht, hb, hr⟩ => if_neg (by simp [ht, hb, hr])
  · exact ignored_onBlkBoth exec_bankConfirmed fun m d h => bankConfirmed_off h
  -- the partner's report
  · exact completes_onBlk (exec_partnerUpdateReport r) (fun d h => h.1) fun d h =>
      (heardThen_heard h.2).trans ((partnerReport_keeps r d).trans (if_pos hb))
  · exact completes_onBlk (exec_partnerUpdateReport r) (fun d h => h.1) fun d h =>
      (heardThen_heard h.2).trans ((partnerReport_keeps r d).trans (if_neg hb))
  · exact ignored_onBlk (exec_partnerUpdateReport r) fun d h => heardThen_unheard h

end Sys2Proof.Machine

namespace Sys2Proof.Machine

/-! ### A channel beyond its registers (O58) -/

/-- What no register write changes, showing a page in the registers does not change. -/
theorem canPageShow_keeps {β : Type} (g : Dev → β) (hr : ∀ (a : Nat) (w : Word) (d : Dev), g (regPut a w d) = g d)
    (n p : Nat) (c : Can) (d : Dev) : g (canPageShow n p c d) = g d := by
  unfold canPageShow
  extract_lets x d1 d2
  have h2 : g d2 = g d := (hr _ _ _).trans (hr _ _ _)
  split
  all_goals
    refine (each_keeps g _ (fun _ _ => hr _ _ _) _ _).trans ?_
    rw [hr, hr, hr, h2]

/-- Changing a channel changes the table of the channels and registers alone. -/
theorem canPut_keeps {β : Type} (g : Dev → β) (hr : ∀ (a : Nat) (w : Word) (d : Dev), g (regPut a w d) = g d)
    (n : Nat) (c : Can) (d : Dev) : g (canPut n c d) = g { d with nsm := { d.nsm with cans := tabSet (fun _ => {}) d.nsm.cans n c } } :=
  (hr _ _ _).trans ((hr _ _ _).trans ((canPageShow_keeps g hr _ _ _ _).trans (canPageShow_keeps g hr _ _ _ _)))

@[simp] theorem canPut_out (n : Nat) (c : Can) (d : Dev) : (canPut n c d).out = d.out :=
  canPut_keeps (·.out) (fun _ _ _ => rfl) n c d

theorem canPut_cans (n : Nat) (c : Can) (d : Dev) : (canPut n c d).nsm.cans = tabSet (fun _ => {}) d.nsm.cans n c :=
  canPut_keeps (·.nsm.cans) (fun _ _ _ => rfl) n c d

@[simp] theorem canOf_fset (n : Nat) (f : Fld) (v : Nat) (d : Dev) : canOf n (fset f v d) = canOf n d := rfl

@[simp] theorem canOf_canPut_same (n : Nat) (c : Can) (d : Dev) : canOf n (canPut n c d) = c := by
  rw [canOf, canPut_cans, tabGet_tabSet_same]

theorem canOf_canPut_ne {n k : Nat} (c : Can) (d : Dev) (h : n ≠ k) : canOf k (canPut n c d) = canOf k d := by
  rw [canOf, canPut_cans, tabGet_tabSet_ne _ _ _ h]
  rfl

/-! ### Frames queued (O58, O41) -/

section Queueing

variable {n p e len : Nat} {d : Dev}

/-- A page that may queue a frame finds fewer than 16 that count. -/
theorem canCounted_lt_of_free {c : Can} (h : canFree p c ≠ 0) : canCounted c < 16 := by
  have hle : canFree p c ≤ 16 - canCounted c := by
    unfold canFree
    split_ifs
    · exact min_le_left _ _
    · exact le_rfl
  omega

/-- A result of 0 says that the page may queue a frame (R418). -/
theorem canFree_of_txResult (h : txResult n p e len d = 0) : canFree p (canOf n d) ≠ 0 := by
  intro hf
  unfold txResult at h
  simp only [hf] at h
  split_ifs at h

/-- The next TAG of a page, read once the result is shown. -/
def txNextTag (n p : Nat) (d : Dev) : Nat := (fget (F.CAN_TX_STAT_TAG n p) (fset (F.CAN_TX_STAT_RESULT n p) 0 d) + 1) % 256

/-- The device once TX_CMD with result 0 has shown the result and the new TAG. -/
def txShown (n p : Nat) (d : Dev) : Dev := fset (F.CAN_TX_STAT_TAG n p) (txNextTag n p d) (fset (F.CAN_TX_STAT_RESULT n p) 0 d)

/-- The frame that TX_CMD queues: of the routing entry, with the page's data and next TAG. -/
def txQueued (n p e len : Nat) (d : Dev) : CanTx :=
  { frame := rtFrame e (txData n p len (txShown n p d)) (txShown n p d), page := p
    tag := txNextTag n p d, qat := (txShown n p d).clk }

theorem txCmd_noGo : txCmd n p e len false d = d := rfl

theorem txCmd_queued (h : txResult n p e len d = 0) :
    txCmd n p e len true d = canEnter n (txQueued n p e len d) (txShown n p d) := by
  unfold txCmd
  rw [h]
  rfl

theorem txCmd_refused (h : txResult n p e len d ≠ 0) :
    txCmd n p e len true d = fset (F.CAN_TX_STAT_RESULT n p) (txResult n p e len d) d := if_pos h

/-- RESULT and TAG are apart in TX_STAT. -/
theorem txNextTag_eq : txNextTag n p d = (fget (F.CAN_TX_STAT_TAG n p) d + 1) % 256 := by
  have h : fget (F.CAN_TX_STAT_TAG n p) (fset (F.CAN_TX_STAT_RESULT n p) 0 d) = fget (F.CAN_TX_STAT_TAG n p) d :=
    fget_fset_apart 0 d rfl (by simp) (by simp)
  rw [txNextTag, h]

theorem canOf_canEnter_same (x : CanTx) (d : Dev) :
    canOf n (canEnter n x d) = { canOf n d with queue := (canOf n d).queue ++ [{ x with frame := canPad x.frame }] } :=
  canOf_canPut_same _ _ _

/-- A frame behind the queue counts as one at most. -/
theorem canCounted_append (c : Can) (x : CanTx) : canCounted { c with queue := c.queue ++ [x] } ≤ canCounted c + 1 := by
  simp only [canCounted, List.filter_append, List.length_append]
  exact Nat.add_le_add_left (List.length_filter_le _ [x]) _

end Queueing

/-- What TX_CMD keeps of channel `n` from device `d` to device `e` (R418, R443). -/
def TxCmdKeeps (n p : Nat) (d e : Dev) : Prop :=
  canCounted (canOf n e) ≤ 16 ∧
  ((canOf n e).queue = (canOf n d).queue ∨ ∃ x : CanTx, (canOf n e).queue = (canOf n d).queue ++ [x] ∧ x.page = p ∧
    x.tag = (fget (F.CAN_TX_STAT_TAG n p) d + 1) % 256) ∧
  (∀ k : Nat, k ≠ n → canOf k e = canOf k d) ∧ e.out = d.out

section QueueBound

variable {n p e len : Nat} {d : Dev}

/-- A device with the same channels and outputs keeps the queue. -/
theorem txCmdKeeps_of_unqueued {d' : Dev} (hq : canCounted (canOf n d) ≤ 16) (hc : ∀ k, canOf k d' = canOf k d)
    (ho : d'.out = d.out) : TxCmdKeeps n p d d' := ⟨(hc n).symm ▸ hq, .inl (by rw [hc n]), fun k _ => hc k, ho⟩

theorem txCmdKeeps_queued (h : txResult n p e len d = 0) :
    TxCmdKeeps n p d (canEnter n (txQueued n p e len d) (txShown n p d)) := by
  have hroom := canCounted_lt_of_free (canFree_of_txResult h)
  refine ⟨?_, .inr ⟨{ txQueued n p e len d with frame := canPad (txQueued n p e len d).frame }, ?_, rfl, txNextTag_eq⟩,
    fun k hk => canOf_canPut_ne _ _ hk.symm, canPut_out _ _ _⟩
  · rw [canOf_canEnter_same]
    exact (canCounted_append (canOf n d) _).trans hroom
  · rw [canOf_canEnter_same]
    rfl

theorem txCmdKeeps_txCmd (go : Bool) (hq : canCounted (canOf n d) ≤ 16) : TxCmdKeeps n p d (txCmd n p e len go d) := by
  cases go with
  | false => exact txCmdKeeps_of_unqueued hq (fun _ => rfl) rfl
  | true =>
    by_cases h : txResult n p e len d = 0
    · rw [txCmd_queued h]
      exact txCmdKeeps_queued h
    · rw [txCmd_refused h]
      exact txCmdKeeps_of_unqueued hq (fun _ => rfl) rfl

end QueueBound

/-- Settles O58: a cut channel stands, and a whole one keeps its bound under `txCmd`. -/
theorem canQueueHoldsAtMost16 : Obligations.CanQueueHoldsAtMost16 := by
  intro n p e len go s t h hq
  rw [exec_txCmd, execTxCmd] at h
  cases hc : cut (16 + n.val) s.dev with
  | true =>
    rw [onBlk_cut _ _ _ hc] at h
    cases h
    exact ⟨hq, .inl rfl, fun _ _ => rfl, rfl, rfl⟩
  | false =>
    rw [onBlk_whole _ _ _ hc] at h
    cases h
    obtain ⟨hn, hqueue, hother, hout⟩ := txCmdKeeps_txCmd (p := p.val) (e := e.toNat) (len := len.toNat) go hq
    exact ⟨hn, hqueue, hother, rfl, hout⟩

end Sys2Proof.Machine

namespace Sys2Proof.Machine

/-! ### Frames cancelled, sent, failed and abandoned (O41) -/

section Cancel

variable {n p tag i : Nat} {under : Option Nat} {d : Dev}

theorem canCancel_noGo : canCancel n p tag false under d = d := rfl

theorem canCancel_absent (h : txPlace n p tag d = none) : canCancel n p tag true under d = d := by
  simp only [canCancel, h]

section Placed

variable (h : txPlace n p tag d = some i)
include h

theorem canCancel_waiting (hu : canUnder under n d ≠ some i) : canCancel n p tag true under d = canLeave n i 2 d := by
  simp only [canCancel, h, if_neg hu]

/-- The attempt under way is the last. -/
theorem canCancel_under {x : CanTx} (hu : canUnder under n d = some i) (hx : (canOf n d).queue[i]? = some x) :
    canCancel n p tag true under d = canQueuePut n i { x with cancelled := true } d := by
  simp only [canCancel, h, if_pos hu, hx]

end Placed

end Cancel

/-- No attempt is under way on channel `n`: it does not send, or its queue held no frame. -/
def NoAttempt (n since : Nat) (d : Dev) : Prop := canSends n d = false ∨ canInTx since (canOf n d) = none

/-- An attempt of frame `x` at place `i` of channel `n` is under way. -/
def Attempts (n since i : Nat) (x : CanTx) (d : Dev) : Prop :=
  canSends n d = true ∧ canInTx since (canOf n d) = some i ∧ (canOf n d).queue[i]? = some x

/-- The frame once its attempt has failed with `f` (R419, R424). -/
def txFailed (f : CanFail) (x : CanTx) : CanTx :=
  { x with attempts := x.attempts + 1, collides := if f = .collision then x.collides + 1 else 0 }

/-- The device once a failed attempt is counted (R419, R422). -/
def attemptCounted (n i : Nat) (f : CanFail) (x : CanTx) (d : Dev) : Dev :=
  let d1 := canQueuePut n i (txFailed f x) (fsat (F.CAN_CNT_ERR_ERR n) 1 d)
  let d2 := if f = .collision then fsat (F.CAN_CNT_ABN_COLLIDE n) 1 d1 else d1
  if f = .exempt then d2 else fsat (F.CAN_ERRCNT_TEC n) 8 d2

/-- The device once a failed attempt has been its frame's last, or not (R419, R424). -/
def attemptJudged (n i : Nat) (f : CanFail) (x : CanTx) (d : Dev) : Dev :=
  let e := attemptCounted n i f x d
  let most := fget (F.CAN_CFG_COLLIDE_MAX n) e
  if f = .collision ∧ most ≠ 0 ∧ most ≤ (txFailed f x).collides then
    canLeave n i 4 (recordC 0x0B06 n x.frame.id (fsat (F.CAN_CNT_ABN_ABANDON n) 1 e))
  else if x.cancelled then canLeave n i 2 e
  else if fget (F.CAN_CFG_RETRY n) e < (txFailed f x).attempts then canAbandon n i 1 e else e

section NoAttempt

variable {n since : Nat} {d : Dev} (h : NoAttempt n since d)
include h

theorem canTxSuccess_none : canTxSuccess n since d = d := by
  obtain h | h := h <;> simp [canTxSuccess, h]

theorem canTxError_none (f : CanFail) : canTxError n since f d = d := by
  obtain h | h := h <;> simp [canTxError, h]

theorem canArbLost_none : canArbLost n since d = d := by
  obtain h | h := h <;> simp [canArbLost, h]

end NoAttempt

section Attempt

variable {n since i : Nat} {x : CanTx} {d : Dev} (h : Attempts n since i x d)
include h

/-- The frame is sent, counted and gone; TEC falls by 1, and a TXD timeout ends (R422, R433). -/
theorem canTxSuccess_sent : canTxSuccess n since d =
    (let d1 := send (.canFrame n x.frame) (fsat (F.CAN_CNT_TX_CNT n) 1 (canLeave n i 0 d))
     canErrors n (fput (F.CAN_STATUS_TXD_TO n) false
       (fset (F.CAN_ERRCNT_TEC n) (fget (F.CAN_ERRCNT_TEC n) d1 - 1) d1))) := by
  obtain ⟨hs, hi, hx⟩ := h
  simp only [canTxSuccess, hs, hi, hx]

/-- A failed attempt is counted and judged; a TEC above 255 leads to bus-off (R422, R423). -/
theorem canTxError_judged (f : CanFail) : canTxError n since f d =
    if 255 < fget (F.CAN_ERRCNT_TEC n) (attemptJudged n i f x d) then canBusOff n x.frame.id (attemptJudged n i f x d)
    else canErrors n (attemptJudged n i f x d) := by
  obtain ⟨hs, hi, hx⟩ := h
  simp only [canTxError, hs, hi, hx]
  rfl

/-- A lost arbitration is counted, and ends a cancelled frame, or any frame with RETRY 0 (R419, R420). -/
theorem canArbLost_counted : canArbLost n since d =
    if x.cancelled then canLeave n i 2 (fsat (F.CAN_CNT_ERR_ARB n) 1 d)
    else if fget (F.CAN_CFG_RETRY n) (fsat (F.CAN_CNT_ERR_ARB n) 1 d) = 0 then canAbandon n i 1 (fsat (F.CAN_CNT_ERR_ARB n) 1 d)
    else fsat (F.CAN_CNT_ERR_ARB n) 1 d := by
  obtain ⟨hs, hi, hx⟩ := h
  have hq : (canOf n (fsat (F.CAN_CNT_ERR_ARB n) 1 d)).queue[i]? = some x := hx
  simp only [canArbLost, hs, hi, hq]

end Attempt

/-- Settles O41: each clause is the rule of its event above. -/
theorem canTransmissionCompletes : Obligations.CanTransmissionCompletes := by
  refine ⟨fun n p e len => ⟨?_, ?_, ?_⟩, fun n p tag under i => ⟨?_, fun x => ?_, ?_, ?_⟩,
    fun n since i x => ⟨?_, ?_, fun f => ⟨?_, ?_, ?_⟩, ?_, ?_, ?_, ?_⟩, fun n under => ⟨?_, ?_⟩,
    fun n p => ⟨?_, ?_, canCntClr_completes n⟩⟩
  -- frames queued
  · exact completes_onBlk (exec_txCmd n p e len true) (fun d h => h.1) fun d h => txCmd_queued h.2
  · exact completes_onBlk (exec_txCmd n p e len true) (fun d h => h.1) fun d h => txCmd_refused h.2
  · exact ignored_onBlk (exec_txCmd n p e len false) fun d _ => txCmd_noGo
  -- and cancelled
  · exact completes_onBlk (exec_txCancel n p tag true under) (fun d h => h.1) fun d ⟨_, hp, hu⟩ => canCancel_waiting hp hu
  · exact completes_onBlk (exec_txCancel n p tag true under) (fun d h => h.1) fun d ⟨_, hp, hu, hx⟩ => canCancel_under hp hu hx
  · exact ignored_onBlk (exec_txCancel n p tag true under) fun d h => canCancel_absent h
  · exact ignored_onBlk (exec_txCancel n p tag false under) fun d _ => canCancel_noGo
  -- attempts that succeed, and fail
  · exact completes_onBlk (exec_canTxSuccess n since) (fun d h => h.1) fun d h => canTxSuccess_sent h.2
  · exact ignored_onBlk (exec_canTxSuccess n since) fun d h => canTxSuccess_none h
  · exact completes_onBlk (exec_canTxError n since f) (fun d h => h.1.1) fun d ⟨⟨_, ha⟩, ht⟩ =>
      (canTxError_judged ha f).trans (if_neg (not_lt.2 ht))
  · exact completes_onBlk (exec_canTxError n since f) (fun d h => h.1.1) fun d ⟨⟨_, ha⟩, ht⟩ =>
      (canTxError_judged ha f).trans (if_pos ht)
  · exact ignored_onBlk (exec_canTxError n since f) fun d h => canTxError_none h f
  -- and that lose arbitration
  · exact completes_onBlk (exec_canArbitrationLost n since) (fun d h => h.1.1) fun d ⟨⟨_, ha⟩, hc, hr⟩ =>
      (canArbLost_counted ha).trans ((if_neg (by simp [hc])).trans (if_neg hr))
  · exact completes_onBlk (exec_canArbitrationLost n since) (fun d h => h.1.1) fun d ⟨⟨_, ha⟩, hc, hr⟩ =>
      (canArbLost_counted ha).trans ((if_neg (by simp [hc])).trans (if_pos hr))
  · exact completes_onBlk (exec_canArbitrationLost n since) (fun d h => h.1.1) fun d ⟨⟨_, ha⟩, hc⟩ =>
      (canArbLost_counted ha).trans (if_pos hc)
  · exact ignored_onBlk (exec_canArbitrationLost n since) fun d h => canArbLost_none h
  -- frames that expire, and what the FIFOs give
  · exact completes_onBlk (exec_canTtlExpiry n under) (fun d h => h.1) fun d h => if_neg h.2
  · exact ignored_onBlk (exec_canTtlExpiry n under) fun d h => if_pos h
  · exact completes_onBlk (exec_txDoneRead n p) (fun d h => h) fun d _ => rfl
  · exact completes_onBlk (exec_rxPop n p) (fun d h => h) fun d _ => rfl

end Sys2Proof.Machine

namespace Sys2Proof.Machine

/-! ### Frames received (O42) -/

/-- Channel `n` hears no frame: it is off or bus-off, or its transceiver is asleep or on the move (R417). -/
def CanDeaf (n : Nat) (d : Dev) : Prop :=
  canMode n d = 0 ∨ 2 ≤ canEstate n d ∨ 2 ≤ fget (F.CAN_XCVR_STATE n) d ∨ (canOf n d).moving = true

/-- Channel `n` is whole and hears frames. -/
def CanHears (n : Nat) (d : Dev) : Prop :=
  whole (16 + n) d ∧ canMode n d ≠ 0 ∧ canEstate n d < 2 ∧ fget (F.CAN_XCVR_STATE n) d < 2 ∧ (canOf n d).moving = false

/-- The device once a frame is counted, checked for the channel's own identifiers and shown to the NSM (R425, R435). -/
def canSeen (n : Nat) (f : CanFrame) (d : Dev) : Dev := nsmFrame n f (canForeign n f (canReceived n d))

section Reception

variable {n ts e : Nat} {f : CanFrame} {d : Dev}

theorem canHears_not_deaf (h : CanHears n d) : ¬ CanDeaf n d := by
  obtain ⟨-, hm, he, hx, hv⟩ := h
  rintro (h | h | h | h)
  · exact hm h
  · exact absurd he (not_lt.2 h)
  · exact absurd hx (not_lt.2 h)
  · simp [hv] at h

theorem canRx_deaf (h : CanDeaf n d) : canRx n f ts d = d := if_pos h

theorem canRx_hears (h : CanHears n d) : canRx n f ts d = canAccept n f ts (canSeen n f d) := if_neg (canHears_not_deaf h)

theorem canAccept_noMatch (h : (rtUsed d).find? (fun e => rtMatches n e f d) = none) :
    canAccept n f ts d = fsat (F.CAN_CNT_DROP_NOMATCH n) 1 d := by
  simp only [canAccept, h]

/-! What the accept entry that matches decides, by its destination (R427). -/

section Matched

variable (h : (rtUsed d).find? (fun e => rtMatches n e f d) = some e)
include h

theorem canAccept_page {p : Nat} (hd : rtDest e d = p) (hp : p < 2) : canAccept n f ts d = rxEnter n p e f ts d := by
  interval_cases p <;> simp only [canAccept, h, hd]

theorem canAccept_gwCan (hd : rtDest e d = 2) : canAccept n f ts d = gwCan n e f d := by
  simp only [canAccept, h, hd]

theorem canAccept_gwEth (hd : rtDest e d = 3) : canAccept n f ts d = gwEth n e f ts d := by
  simp only [canAccept, h, hd]

end Matched

end Reception

/-! ### Bus states, modes and transceivers (O42) -/

section BusStates

variable {n st : Nat} {d : Dev}

/-- Bus-on: the error counters are 0, the channel is error active, and both are recorded (R423). -/
theorem canBusOn_recovering (h : canEstate n d = 3) : canBusOn n d =
    (let d1 := fset (F.CAN_STATUS_ESTATE n) 0 (regPut (R.CAN_ERRCNT n) 0 d)
     let d2 := recordC 0x0B02 n 0 (recordC 0x0B04 n (msSince (canOf n d1).offAt d1) d1)
     canPut n (canOf n d2) d2) := if_neg (not_not_intro h)

/-- A wake is seen in STANDBY or SLEEP with WAKE_EN (R434). -/
theorem busWake_unseen (h : fget (F.CAN_XCVR_STATE n) d < 2 ∨ flag (F.CAN_XCVR_WAKE_EN n) d = false) : busWake n d = d := if_pos h

/-- A wake that is seen is noted, and raises REG_EN where that is enabled and REG_EN is down. -/
theorem busWake_seen (hx : 2 ≤ fget (F.CAN_XCVR_STATE n) d) (hw : flag (F.CAN_XCVR_WAKE_EN n) d = true) : busWake n d =
    (let d1 := fbitPut F.NSM_XWAKE_CH n true d
     if !flag F.NSM_REG_LEVEL d1 && flag F.NSM_REG_XWAKE_REG d1 then send (.regEn true) (fput F.NSM_REG_LEVEL true d1) else d1) :=
  if_neg (not_or.2 ⟨not_lt.2 hx, by simp [hw]⟩)

end BusStates

/-- Settles O42: each clause is the rule of its event above. -/
theorem canReceptionAndChannelsComplete : Obligations.CanReceptionAndChannelsComplete := by
  refine ⟨fun n f sof node bs => ⟨?_, fun e p => ?_, fun e => ?_, fun e => ?_, ?_, ?_, ?_⟩, fun n heavy => ⟨?_, ?_⟩,
    fun n => ⟨?_, ?_, ?_, ?_, ?_, ?_⟩, fun n => ⟨?_, ?_⟩, fun n st => ?_, fun n => ⟨?_, ?_, ?_⟩⟩
  -- frames, by the entry that accepts them
  · exact completes_onBlk (exec_canFrameReceived n f sof) (fun d h => h.1.1) fun d ⟨hh, he⟩ =>
      (canRx_hears hh).trans (canAccept_noMatch he)
  · exact completes_onBlk (exec_canFrameReceived n f sof) (fun d h => h.1.1) fun d ⟨hh, he, hd, hp⟩ =>
      (canRx_hears hh).trans (canAccept_page he hd hp)
  · exact completes_onBlk (exec_canFrameReceived n f sof) (fun d h => h.1.1) fun d ⟨hh, he, hd⟩ =>
      (canRx_hears hh).trans (canAccept_gwCan he hd)
  · exact completes_onBlk (exec_canFrameReceived n f sof) (fun d h => h.1.1) fun d ⟨hh, he, hd⟩ =>
      (canRx_hears hh).trans (canAccept_gwEth he hd)
  · exact completes_onBlk (exec_keepAlive n node bs sof) (fun d h => h.1.1) fun d ⟨hh, he⟩ =>
      (canRx_hears hh).trans (canAccept_noMatch he)
  · exact ignored_onBlk (exec_canFrameReceived n f sof) fun d h => canRx_deaf h
  · exact ignored_onBlk (exec_keepAlive n node bs sof) fun d h => canRx_deaf h
  -- receive errors
  · exact completes_onBlk (exec_canReceiveError n heavy) (fun d h => h.1) fun d ⟨_, hm, he⟩ =>
      if_neg (not_or.2 ⟨hm, not_le.2 he⟩)
  · exact ignored_onBlk (exec_canReceiveError n heavy) fun d h => if_pos h
  -- bus states
  · exact completes_onBlk (exec_recover n) (fun d h => h.1) fun d h => if_pos h.2
  · exact ignored_onBlk (exec_recover n) fun d h => if_neg h
  · exact completes_onBlk (exec_canBusOn n) (fun d h => h.1) fun d h => canBusOn_recovering h.2
  · exact ignored_onBlk (exec_canBusOn n) fun d h => if_pos h
  · exact completes_onBlk (exec_canTxdTimeout n) (fun d h => h) fun d _ => rfl
  · exact completes_onBlk (exec_canXcvrMoveComplete n) (fun d h => h) fun d _ => rfl
  -- modes
  · exact completes_onBlk (exec_canMode n) (fun d h => h.1) fun d h => if_neg h.2
  · exact completes_onBlk (exec_canMode n) (fun d h => h.1) fun d h => if_pos h.2
  -- transceivers, and their wakes
  · exact completes_onBlk (exec_canXcvrState n st) (fun d h => h) fun d _ => rfl
  · exact completes_onBlk (exec_canBusWake n) (fun d h => h.1.1) fun d ⟨⟨_, hx, hw⟩, hr⟩ =>
      (busWake_seen hx hw).trans (if_neg (Bool.eq_false_iff.1 hr))
  · exact completes_onBlk (exec_canBusWake n) (fun d h => h.1.1) fun d ⟨⟨_, hx, hw⟩, hr⟩ =>
      (busWake_seen hx hw).trans (if_pos hr)
  · exact ignored_onBlk (exec_canBusWake n) fun d h => busWake_unseen h

end Sys2Proof.Machine

namespace Sys2Proof.Machine

/-! ### The network sleep manager (O43) -/

section SleepManager

variable {d : Dev} {j : Nat}

theorem nsmEnable_committed (on : Bool) (h : nsmState d = 4) : nsmEnable on d = d := if_pos h

section Uncommitted

variable (h : nsmState d ≠ 4)
include h

theorem nsmEnable_set : nsmEnable true d =
    if nsmState (fput F.NSM_CTRL_EN true d) = 0 then nsmEval (nsmTo 1 (fput F.NSM_CTRL_EN true d)) else fput F.NSM_CTRL_EN true d :=
  if_neg h

theorem nsmEnable_cleared : nsmEnable false d = nsmTo 0 (fput F.NSM_CTRL_EN false d) := if_neg h

end Uncommitted

/-- EN and the state stand in different registers. -/
theorem nsmState_fput_en (b : Bool) (d : Dev) : nsmState (fput F.NSM_CTRL_EN b d) = nsmState d :=
  fget_fset_ne _ d (by decide)

theorem keepAliveSend_awake (he : flag F.NSM_CTRL_EN d = true) (ho : ownVote d ≠ none) : keepAliveSend d = keepAlive 1 d :=
  if_pos (by simp [he, Option.isSome_iff_ne_none.2 ho])

theorem keepAliveSend_stands (h : flag F.NSM_CTRL_EN d = false ∨ ownVote d = none) : keepAliveSend d = d := by
  refine if_neg ?_
  obtain h | h := h <;> simp [h]

/-- The sole node is the one awake, while the own vote is sleep (R440). -/
theorem soleNode_eq_some_iff : soleNode d = some j ↔ nodesAwake d = [j] ∧ ownVote d = none := by
  unfold soleNode
  split
  next k hk =>
    rw [hk]
    cases ownVote d <;> simp
  next hn =>
    simp only [reduceCtorEq, false_iff]
    exact fun h => hn j h.1

/-- A node is capped with CAP_S as its seconds at the least, and recorded (R440). -/
theorem nodeCap_sole (hc : fget F.NSM_CAP_CAP_S d ≠ 0) (hn : nodesAwake d = [j]) (ho : ownVote d = none) : nodeCap j d =
    (let sole := max (fget F.NSM_CAP_CAP_S d) (fget (F.NSM_NODE_SOLE_S j) d)
     let d1 := fput (F.NSM_NODE_CAPPED j) true (fset (F.NSM_NODE_SOLE_S j) sole d)
     nsmEval (recordC 0x0B21 (fget (F.NSM_NODE_CH j) d1 + j * 2 ^ 8) sole d1)) :=
  if_neg (not_or.2 ⟨hc, not_not_intro (soleNode_eq_some_iff.2 ⟨hn, ho⟩)⟩)

theorem nodeCap_other (h : fget F.NSM_CAP_CAP_S d = 0 ∨ nodesAwake d ≠ [j] ∨ ownVote d ≠ none) : nodeCap j d = d :=
  if_pos (h.imp_right fun hn hs => not_and_or.2 hn (soleNode_eq_some_iff.1 hs))

/-- The device once the network sleeps and S`st` is asked for (R438, R439). -/
def networkSleeps (st : Nat) (d : Dev) : Dev :=
  let d1 := each (cappedChannels d) (fun n => fput (F.CAN_XCVR_WAKE_EN n) false) d
  let d2 := each (List.range 6) (fun n => xcvrTo n (if st = 4 then 3 else 2)) d1
  let mask := (cappedChannels d).foldl (fun m n => m + 2 ^ n) 0
  sleepRequest st true (nsmTo 4 (recordC 0x0B23 st (fget F.NSM_CTRL_CHANNELS d2 + mask * 2 ^ 8) d2))

/-- An input that ends PREPARE in the same cycle wins (R438). -/
theorem nmCommit_aborted (h : nsmState (nsmEval d) ≠ 3) : nmCommit d = nsmEval d := if_pos h

theorem nmCommit_commits (h : nsmState (nsmEval d) = 3) :
    nmCommit d = networkSleeps (if flag F.NSM_CTRL_TARGET (nsmEval d) then 4 else 3) (nsmEval d) := if_neg (not_not_intro h)

end SleepManager

/-- Settles O43: each clause is the rule of its event above. -/
theorem sleepAgreementCompletes : Obligations.SleepAgreementCompletes := by
  refine ⟨fun on => ?_, ?_, ?_, ?_, ?_, ?_, fun j => ?_, ?_, ?_, fun j => ⟨?_, ?_, ?_⟩, ?_, ?_, ?_⟩
  -- NSM_EN
  · exact ignored_onBlk (exec_nsmEn on) fun d h => nsmEnable_committed on h
  · exact completes_onBlk (exec_nsmEn true) (fun d h => h.1) fun d ⟨_, h0⟩ =>
      (nsmEnable_set (by simp [h0])).trans (if_pos ((nsmState_fput_en true d).trans h0))
  · exact completes_onBlk (exec_nsmEn true) (fun d h => h.1) fun d ⟨_, h4, h0⟩ => (nsmEnable_set h4).trans (if_neg h0)
  · exact completes_onBlk (exec_nsmEn false) (fun d h => h.1) fun d h => nsmEnable_cleared h.2
  -- keep-alives, votes and the idle count
  · exact completes_onBlk exec_keepAliveSend (fun d h => h.1) fun d ⟨_, he, ho⟩ => keepAliveSend_awake he ho
  · exact ignored_onBlk exec_keepAliveSend fun d h => keepAliveSend_stands h
  · exact completes_onBlk (exec_nodeVoteExpiry j) (fun d h => h) fun d _ => rfl
  · exact completes_onBlk exec_idleExpiry (fun d h => h.1) fun d h => if_pos h.2
  · exact ignored_onBlk exec_idleExpiry fun d h => if_neg h
  -- the cap
  · exact completes_onBlk (exec_nmNodeCapped j) (fun d h => h.1) fun d ⟨_, hc, hn, ho⟩ => nodeCap_sole hc hn ho
  · exact ignored_onBlk (exec_nmNodeCapped j) fun d h => nodeCap_other h
  · exact completes_onBlk (exec_nsmNodeCappedClear j) (fun d h => h) fun d _ => rfl
  -- the commit
  · exact completes_onBlk exec_nmSleepCommit (fun d h => h.1.1) fun d ⟨⟨_, hp⟩, ht⟩ =>
      (nmCommit_commits hp).trans (congrArg (networkSleeps · _) (if_neg (Bool.eq_false_iff.1 ht)))
  · exact completes_onBlk exec_nmSleepCommit (fun d h => h.1.1) fun d ⟨⟨_, hp⟩, ht⟩ =>
      (nmCommit_commits hp).trans (congrArg (networkSleeps · _) (if_pos ht))
  · exact completes_onBlk exec_nmSleepCommit (fun d h => h.1) fun d h => nmCommit_aborted h.2

end Sys2Proof.Machine

namespace Sys2Proof.Machine

/-! ### The queue (O1, O3, O4) -/

/-- The meaning of every command answers a next state, in which at most the memories and the device differ; a cut block leaves
both (that every command completes is the model's choice, log 55). -/
theorem exec_answers (c : Instr) (s : State) : ∃ t : State, exec c s = .next t ∧ t.pending = s.pending := by
  cases c
  all_goals exact ⟨_, rfl, by simp only [apply_ite State.pending, ite_self]⟩

/-- Settles O3: the meaning of each command is a next state. -/
theorem everyCommandAnswers : Obligations.EveryCommandAnswers := exec_answers

theorem step_cons {c : Instr} {rest : List Instr} {s : State} (h : s.pending = c :: rest) :
    step s = exec c { s with pending := rest } := by
  unfold step
  rw [h]

/-- Settles O1: the step's branch for a queue that is not empty. -/
theorem stepTakesFront : Obligations.StepTakesFront := fun _ _ _ h => step_cons h

/-- A run whose first step answers `t` goes on from `t`. -/
theorem run_succ_next {s t : State} (k : Nat) (h : step s = .next t) : Sys2Proof.core.run (k + 1) s = Sys2Proof.core.run k t := by
  have hs : Sys2Proof.core.step s = .next t := h
  simp only [Host.Core.run, hs]

/-- As many steps as commands wait, or fewer, answer a state with what is left of the queue. -/
theorem run_takes (k : Nat) (s : State) (hk : k ≤ s.pending.length) :
    ∃ t : State, Sys2Proof.core.run k s = .next t ∧ t.pending = s.pending.drop k := by
  induction k generalizing s with
  | zero => exact ⟨s, rfl, rfl⟩
  | succ k ih =>
    obtain ⟨c, rest, hq⟩ : ∃ c rest, s.pending = c :: rest := List.exists_cons_of_length_pos (by omega)
    obtain ⟨u, hu, hup⟩ := exec_answers c { s with pending := rest }
    obtain ⟨t, ht, htp⟩ := ih u (by rw [hup]; simpa [hq] using hk)
    exact ⟨t, (run_succ_next k ((step_cons hq).trans hu)).trans ht, by rw [htp, hup, hq]; rfl⟩

/-- Settles O4: each step is exec's answer for the front of the queue, which keeps the rest. -/
theorem queueServedFirstInFirstOut : Obligations.QueueServedFirstInFirstOut :=
  ⟨run_takes, fun k _ _ _ _ hq hx => run_succ_next k ((step_cons hq).trans hx)⟩

/-! ### A cut block (O8) -/

section Cut

variable {c : Instr} {i : Nat}

theorem ignored_cut_onBlk {f : Dev → Dev} (hc : ∀ s, exec c s = onBlk i f s) : Ignored c (cut i · = true) := fun s hs =>
  (hc s).trans (onBlk_cut i f s hs)

theorem ignored_cut_onBlkBoth {f : List Host.Cell → Dev → List Host.Cell × Dev} (hc : ∀ s, exec c s = onBlkBoth i f s) :
    Ignored c (cut i · = true) := fun s hs => (hc s).trans (congrArg Host.Outcome.next (if_pos hs))

theorem ignored_cut_onEvent {f : Dev → Dev} (hc : ∀ s, exec c s = onEvent i f s) : Ignored c (cut i · = true) :=
  ignored_cut_onBlkBoth (f := fun m d => settle (m, f d)) hc

end Cut

/-- Settles O8: each command acts by `onBlk` or `onBlkBoth` in the slot of its block, which a cut stops. -/
theorem cutBlockTakesNoCommand : Obligations.CutBlockTakesNoCommand :=
  ⟨fun on => ignored_cut_onBlk (exec_estCtrlEn on), ignored_cut_onBlk exec_estClrCnt,
    ignored_cut_onBlkBoth exec_publishCommit, ignored_cut_onBlkBoth exec_estimateWorkEnd,
    fun l r => ignored_cut_onBlkBoth (exec_cellUpdate l r),
    fun n r => ignored_cut_onBlk (exec_receiverLock n r), fun n => ignored_cut_onBlk (exec_enum n),
    fun n port p c a => ignored_cut_onBlk (exec_alert n port p c a),
    fun ch on => ignored_cut_onBlk (exec_chCmdOn ch on), fun ch => ignored_cut_onBlk (exec_chShort ch),
    fun vaux => ignored_cut_onBlk (exec_supplyUvStart vaux), ignored_cut_onBlk exec_groundLoss,
    fun key => ignored_cut_onBlk (exec_sessionTimeout key), ignored_cut_onBlk exec_aixClrCnt,
    fun k v => ignored_cut_onBlk (exec_drwReqCons k v),
    fun n => ignored_cut_onEvent (exec_kzbTransactionStart n), fun j => ignored_cut_onBlk (exec_retryExpired j),
    fun ver two => ignored_cut_onBlk (exec_peerLinkUp ver two),
    ignored_cut_onBlkBoth (f := fun m d => settle (linkDownBoth m d)) exec_peerLinkDown,
    fun e up => ignored_cut_onBlk (exec_ethLink e up), fun e f => ignored_cut_onBlk (exec_arpRequest e f),
    fun n f sof => ignored_cut_onBlk (exec_canFrameReceived n f sof),
    fun n p e l go => ignored_cut_onBlk (exec_txCmd n p e l go),
    fun on => ignored_cut_onBlk (exec_nsmEn on), ignored_cut_onBlk exec_nmSleepCommit,
    ignored_cut_onBlkBoth exec_bankConfirmed, ignored_cut_onBlkBoth exec_stagingEraseDone,
    fun i level => ignored_cut_onBlk (exec_switchInputEdge i level), fun k => ignored_cut_onBlk (exec_lsoFault k),
    fun t => ignored_cut_onBlk (exec_haltRequest t), fun rt => ignored_cut_onBlk (exec_dbgRtWrite rt)⟩

end Sys2Proof.Machine

namespace Sys2Proof.Machine

/-! ### Little-endian numbers in a record (R6, R466) -/

theorem leNat_leBytes (n v : Nat) : leNat (leBytes n v) = v % 256 ^ n := by
  induction n generalizing v with
  | zero => simp [leBytes, leNat, Nat.mod_one]
  | succ n ih => rw [leBytes, leNat, ih, BitVec.toNat_ofNat, pow_succ' 256 n, Nat.mod_mul]

/-- A field that lies in the first part of a list of bytes. -/
theorem field_append_left {a b : List Byte} {i n : Nat} (h : i + n ≤ a.length) : field (a ++ b) i n = field a i n := by
  unfold field
  rw [List.drop_append_of_le_length (Nat.le_of_add_right_le h), List.take_append_of_le_length (by rw [List.length_drop]; omega)]

/-- A field that lies behind the first part. -/
theorem field_append_right {a b : List Byte} {i n : Nat} (h : a.length ≤ i) : field (a ++ b) i n = field b (i - a.length) n := by
  unfold field
  rw [List.drop_append, List.drop_eq_nil_of_le h, List.nil_append]

theorem field_leBytes (n v : Nat) : field (leBytes n v) 0 n = v % 256 ^ n := by
  unfold field
  rw [List.drop_zero, List.take_of_length_le (leBytes_length n v).le, leNat_leBytes]

theorem crc16Bit_lt (c : Nat) : crc16Bit c < 2 ^ 16 := by
  have hm : 2 * c % 0x10000 < 2 ^ 16 := Nat.mod_lt _ (by decide)
  unfold crc16Bit
  split
  · exact Nat.xor_lt_two_pow hm (by decide)
  · exact hm

theorem crc16_lt (bs : List Byte) : crc16 bs < 2 ^ 16 :=
  List.foldlRecOn bs crc16Byte (motive := (· < 2 ^ 16)) (by decide) fun _ _ _ _ => crc16Bit_lt _

/-- What was written is read back. -/
theorem memRead_memWrite {n : Nat} (a : Nat) (bs : List Byte) (m : List Host.Cell) (h : n ≤ bs.length) :
    memRead (memWrite a bs m) a n = bs.take n := by
  refine List.ext_getElem (by simp [memRead, h]) fun i h1 h2 => ?_
  have hi : i < n := by simpa [memRead] using h1
  simp only [memRead, List.getElem_map, List.getElem_range, List.getElem_take]
  rw [memByte_memWrite_inside bs m (by omega) (by omega), Nat.add_sub_cancel_left, List.getD_eq_getElem _ _ (by omega)]

/-! ### The layout of a record (R466, R467) -/

section RecordLayout

variable (e : RecEvent) (seq pcyc flags : Nat)

@[simp] theorem recHead_length : (recHead e seq pcyc flags).length = 30 := by simp [recHead]

theorem recHead_code : field (recHead e seq pcyc flags) 0 2 = e.code % 65536 := by
  simp only [recHead, List.append_assoc]
  exact (field_append_left (by simp)).trans (field_leBytes 2 _)

theorem recHead_seq : field (recHead e seq pcyc flags) 4 4 = seq % 2 ^ 32 := by
  simp only [recHead, List.append_assoc]
  rw [field_append_right (by simp), field_append_right (by simp), field_append_left (by simp)]
  simp [field_leBytes]

theorem recHead_flags : (recHead e seq pcyc flags).getD 15 0 = BitVec.ofNat 8 flags := by simp [recHead, leBytes]

theorem recFlags_lt : recFlags e < 128 := by
  have hb : ∀ b, b2n b ≤ 1 := by decide
  have := hb e.sw; have := hb e.close; have := hb e.early; have := hb e.carried
  unfold recFlags
  omega

theorem recFlags_eq : recFlags e = (if e.sw then 1 else 0) + (if e.close then 2 else 0) + (if e.early then 4 else 0)
    + (if e.carried then 8 else 0) + 16 * (e.tl % 8) := by simp only [recFlags, b2n, mul_ite, mul_one, mul_zero]

end RecordLayout

section RecordBytes

variable (x : RecEntry)

@[simp] theorem recBytes_length : (recBytes x).length = 32 := by simp [recBytes, recSeal]

/-- The CRC-16 stands behind the first 30 bytes of a record. -/
theorem recBytes_crc : field (recBytes x) 30 2 = crc16 ((recBytes x).take 30) := by
  unfold recBytes recSeal
  rw [field_append_right (by simp), List.take_left' (by simp)]
  simpa [field_leBytes] using crc16_lt _

theorem recBytes_code : field (recBytes x) 0 2 = x.event.code % 65536 := by
  rw [recBytes, recSeal, field_append_left (by simp), recHead_code]

theorem recBytes_seq : field (recBytes x) 4 4 = x.seq % 2 ^ 32 := by
  rw [recBytes, recSeal, field_append_left (by simp), recHead_seq]

theorem recBytes_flags : ((recBytes x).getD 15 0).toNat = recFlags x.event := by
  have hf := recFlags_lt x.event
  rw [recBytes, recSeal, List.getD_append _ _ _ _ (by simp), recHead_flags, BitVec.toNat_ofNat, Nat.mod_eq_of_lt (by omega)]

end RecordBytes

/-! ### A record written (R468) -/

section RecordWrite

variable {e : RecEvent} {rest : List RecEvent} {m : List Host.Cell} {d : Dev}

/-- With the ring open, the head of the intake is stored where no lost event is to tell, or the intake has no room for it. -/
theorem recordWrite_head {r : MramResult} (ho : flag F.REC_STATUS_OPEN d = true)
    (hl : d.side.lostNow = 0 ∨ 64 ≤ d.side.intake.length) (hi : d.side.intake = e :: rest) :
    recordWrite r m d = recStore r e m { d with side := { d.side with intake := rest } } := by
  have hn : ¬ (0 < d.side.lostNow ∧ d.side.intake.length < 64) := by omega
  unfold recordWrite
  rw [ho, if_neg (by decide), if_neg hn, hi]

/-- The entry that the event `e` becomes in a ring that holds records: the sequence number after the newest. -/
def recFollowing (e : RecEvent) (d : Dev) : RecEntry :=
  { event := e, seq := (fget F.REC_NEWEST_SEQ d + 1) % 2 ^ 32, pcyc := fget F.REC_PCYC_PCYC d }

/-- In a ring that holds records and has not failed it is put in its slot. -/
theorem recStore_ring (hf : flag F.REC_STATUS_FALLBACK d = false) (hm : flag F.REC_STATUS_MRAM_FAIL d = false)
    (hh : fget F.REC_HELD_HELD d ≠ 0) : recStore .ok e m d =
      recRing (recFollowing e d) m { d with side := { d.side with newestAt := fget F.PWR_OPSEC_SEC d } } := by
  have hs (f : Fld) : fget f { d with side := { d.side with newestAt := fget F.PWR_OPSEC_SEC d } } = fget f d := fget_side f d _
  unfold recStore recNext
  simp only [flag, hs, if_neg hh] at *
  simp only [hf, hm]
  rfl

/-- The head of the intake goes to the ring when no lost event is to tell. -/
theorem recordWrite_ring (ho : flag F.REC_STATUS_OPEN d = true) (hf : flag F.REC_STATUS_FALLBACK d = false)
    (hm : flag F.REC_STATUS_MRAM_FAIL d = false) (hl : d.side.lostNow = 0) (hi : d.side.intake = e :: rest)
    (hh : fget F.REC_HELD_HELD d ≠ 0) : recordWrite .ok m d = recRing (recFollowing e d) m
      { d with side := { d.side with intake := rest, newestAt := fget F.PWR_OPSEC_SEC d } } :=
  (recordWrite_head ho (.inl hl) hi).trans (recStore_ring hf hm hh)

section Ring

variable (x : RecEntry)

/-- A record put in the ring changes its slot alone. -/
theorem recRing_outside {a : Nat} (h : a < recSlot x.seq ∨ recSlot x.seq + 32 ≤ a) : memByte (recRing x m d).1 a = memByte m a :=
  memByte_memWrite_outside _ _ (by rwa [recBytes_length])

theorem recRing_slot {n : Nat} (h : n ≤ 32) : memRead (recRing x m d).1 (recSlot x.seq) n = (recBytes x).take n :=
  memRead_memWrite _ _ _ (by rwa [recBytes_length])

/-- The slot holds the whole record. -/
theorem recRing_record : memRead (recRing x m d).1 (recSlot x.seq) 32 = recBytes x := by
  rw [recRing_slot x le_rfl, List.take_of_length_le (recBytes_length x).le]

theorem recRing_flags : (memByte (recRing x m d).1 (recSlot x.seq + 15)).toNat = recFlags x.event := by
  have hb : memByte (recRing x m d).1 (recSlot x.seq + 15) = (recBytes x).getD (recSlot x.seq + 15 - recSlot x.seq) 0 :=
    memByte_memWrite_inside _ _ (Nat.le_add_right _ _) (by rw [recBytes_length]; omega)
  rw [hb, Nat.add_sub_cancel_left, recBytes_flags]

theorem recRing_side : (recRing x m d).2.side = d.side := rfl

theorem recRing_out : (recRing x m d).2.out = d.out := rfl

theorem recRing_newest : fget F.REC_NEWEST_SEQ (recRing x m d).2 = x.seq % 2 ^ 32 := by
  unfold recRing
  rw [fget_fset_ne _ _ (by decide), fget_fset_ne _ _ (by decide), fget_fset_same _ _ _ (by decide)]

end Ring

end RecordWrite

/-- Settles O52: the head of the intake is the entry after the newest, whose 32 bytes are written to its slot and read back. -/
theorem recordLayoutInTheRing : Obligations.RecordLayoutInTheRing := by
  intro s e rest ho hf hm hl hi hh seq slot
  have hrun := recordWrite_ring (m := s.mem) ho hf hm hl hi hh
  generalize hx : recFollowing e s.dev = x at hrun
  have hseq : x.seq = seq := by rw [← hx]; rfl
  have hev : x.event = e := by rw [← hx]; rfl
  have hslot : recSlot x.seq = slot := by rw [hseq]; rfl
  have hlt : seq % 2 ^ 32 = seq := Nat.mod_mod _ _
  refine ⟨_, by rw [exec_recordWrite, execRecordWrite, onBoth, hrun], ?_⟩
  dsimp only
  rw [← hslot, recRing_record, recRing_slot x (by decide), recRing_flags, recRing_newest, recRing_side, recRing_out, recBytes_code,
    recBytes_seq, hseq, hev, hlt]
  exact ⟨fun a ha => recRing_outside x (by rwa [hseq]), rfl, rfl, recBytes_crc x, recFlags_eq e, rfl, rfl, rfl⟩

end Sys2Proof.Machine

namespace Sys2Proof.Machine

/-! ### The recorder's commands (O44) -/

section Recorder

variable {m : List Host.Cell} {d : Dev}

theorem recordWrite_lost (r : MramResult) (ho : flag F.REC_STATUS_OPEN d = true) (hl : 0 < d.side.lostNow)
    (hi : d.side.intake.length < 64) : recordWrite r m d =
      recStore r { code := 0x0D02, p1 := d.side.lostNow, p2 := d.side.lostFirst, p3 := cycleNow d, optime := opTime d } m
        (raiseFlag 0x0D02 0 { d with side := { d.side with lostNow := 0, lostFirst := 0 } }) := by
  unfold recordWrite
  rw [ho, if_neg (by decide), if_pos ⟨hl, hi⟩]

theorem recordWrite_nothing (r : MramResult)
    (h : flag F.REC_STATUS_OPEN d = false ∨ (d.side.lostNow = 0 ∧ d.side.intake = [])) : recordWrite r m d = (m, d) := by
  unfold recordWrite
  obtain ho | ⟨hl, hi⟩ := h
  · rw [ho]; rfl
  · have hn : ¬ (0 < d.side.lostNow ∧ d.side.intake.length < 64) := by omega
    rw [if_neg hn, hi]
    exact ite_self _

section EndOfRun

variable {x : RecRun} (hr : d.side.run = some x)
include hr

theorem recEndRun_single (hc : x.count = 0) : recEndRun d = { d with side := { d.side with run := none } } := by
  simp only [recEndRun, hr, if_pos hc]

theorem recEndRun_closes (hc : x.count ≠ 0) (hi : d.side.intake.length < 64) : recEndRun d =
    { d with side := { d.side with
        run := none, intake := d.side.intake ++ [{ closingOf x with early := !flag F.REC_STATUS_OPEN d }] } } := by
  simp only [recEndRun, hr, if_neg hc, if_pos hi]
  rfl

theorem recEndRun_loses (hc : x.count ≠ 0) (hi : 64 ≤ d.side.intake.length) : recEndRun d =
    recLose x.code { d with side := { d.side with run := none } } := by
  simp only [recEndRun, hr, if_neg hc, if_neg hi.not_gt]

end EndOfRun

section Carried

variable {r : MramResult} {md : List Host.Cell × Dev} {c : RecRun}

theorem ringCarried_none (h : md.2.side.carried = none) : ringCarried r md = md := by
  simp only [ringCarried, h]

theorem ringCarried_single (h : md.2.side.carried = some c) (hc : c.count = 0) :
    ringCarried r md = (md.1, { md.2 with side := { md.2.side with carried := none } }) := by
  simp only [ringCarried, h, if_pos hc]

theorem ringCarried_closes (h : md.2.side.carried = some c) (hc : c.count ≠ 0) : ringCarried r md =
    recStore r { closingOf c with carried := true } md.1 { md.2 with side := { md.2.side with carried := none } } := by
  simp only [ringCarried, h, if_neg hc]

end Carried

section Submit

variable {t code : Nat}

/-- The event of trestle `t`'s submit page. -/
def submitted (t code : Nat) (d : Dev) : RecEvent :=
  { code := code, p1 := fget (F.REC_SUB_P1_P1 t) d, p2 := fget (F.REC_SUB_P2_P2 t) d, p3 := fget (F.REC_SUB_P3_P3 t) d
    sw := true, tl := t }

/-- A code of 0x0100 to 0x0FFF is one whose upper byte is 1 to 15. -/
theorem subCoded_iff : (code / 256 = 0 ∨ 0x0F < code / 256) ↔ ¬ (0x0100 ≤ code ∧ code ≤ 0x0FFF) := by omega

theorem subCmd_uncoded (h : ¬ (0x0100 ≤ code ∧ code ≤ 0x0FFF)) : subCmd t code true d = fset (F.REC_SUB_CMD_RESULT t) 1 d :=
  if_pos (subCoded_iff.2 h)

theorem subCmd_full (h : 0x0100 ≤ code ∧ code ≤ 0x0FFF) (hf : recFull (submitted t code d) d = true) :
    subCmd t code true d = fset (F.REC_SUB_CMD_RESULT t) 2 d :=
  (if_neg (fun hn => subCoded_iff.1 hn h)).trans (if_pos hf)

theorem subCmd_accepted (h : 0x0100 ≤ code ∧ code ≤ 0x0FFF) (hf : recFull (submitted t code d) d = false) :
    subCmd t code true d = recAccept (submitted t code d) (fset (F.REC_SUB_CMD_RESULT t) 0 d) :=
  (if_neg (fun hn => subCoded_iff.1 hn h)).trans (if_neg (Bool.eq_false_iff.1 hf))

end Submit

section ReadPort

variable {t seq : Nat}

/-- The device once trestle `t` has asked for record `seq`. -/
def recAsked (t seq : Nat) (d : Dev) : Dev := fset (F.REC_RD_SEQ_SEQ t) seq d

/-- The verdict bits `v` shown to trestle `t`, with the fallback's beside them. -/
def recShows (t v : Nat) (d : Dev) : Dev :=
  regPut (R.REC_RD_STAT t) (BitVec.ofNat 32 (v + 32 * b2n (flag F.REC_STATUS_FALLBACK d))) d

/-- What trestle `t`'s read port shows for each verdict on record `seq` (R478). -/
def recVerdict (t seq : Nat) : RecRead → Dev → Dev
  | .valid bs, d => recPortData t bs (recShows t 2 d)
  | .overwritten, d => recShows t 4 d
  | .bad, d => recPortData t (recBad seq) (recShows t 8 d)
  | .gone, d => recShows t 16 d

theorem rdSeq_shows {v : RecRead} (h : recRead m seq (recAsked t seq d) = v) :
    rdSeq t seq m d = recVerdict t seq v (recAsked t seq d) := by
  unfold recAsked at h
  simp only [rdSeq, h]
  cases v <;> rfl

end ReadPort

end Recorder

/-- RD_SEQ shows the verdict that the record comes to. -/
theorem rdSeq_completes (t : Fin 5) (seq : Word) (v : RecRead) : CompletesBoth (.rdSeq t seq)
    (fun m d => recRead m seq.toNat (recAsked t.val seq.toNat d) = v)
    (fun m d => (m, recVerdict t.val seq.toNat v (recAsked t.val seq.toNat d))) := by
  refine completesBoth_onBoth (fm := fun m d => (m, rdSeq t.val seq.toNat m d)) (exec_rdSeq t seq) fun m d h => ?_
  rw [rdSeq_shows h]

/-- Settles O44: each clause is the rule of its command above. -/
theorem recorderCommandsComplete : Obligations.RecorderCommandsComplete := by
  refine ⟨fun r => ⟨⟨?_, fun e rest => ?_⟩, ?_⟩, ?_, fun x => ⟨?_, ?_, ?_⟩, ⟨?_, ?_⟩, ⟨?_, fun c => ⟨?_, ?_⟩⟩,
    fun t code => ⟨?_, ?_, ?_, ?_⟩, fun t seq => ⟨fun bs => ?_, ?_, ?_, ?_⟩⟩
  -- RECORD_WRITE
  · exact completesBoth_onBoth (exec_recordWrite r) fun m d ⟨ho, hl, hi⟩ => recordWrite_lost r ho hl hi
  · exact completesBoth_onBoth (exec_recordWrite r) fun m d ⟨ho, hl, hi⟩ => recordWrite_head ho hl hi
  · exact ignored_onBoth (exec_recordWrite r) fun m d h => recordWrite_nothing r h
  -- REPEAT_EXPIRY
  · exact ignored_onDev exec_repeatExpiry fun d h => by rw [recEndRun, h]
  · exact completes_onDev exec_repeatExpiry fun d ⟨hr, hc⟩ => recEndRun_single hr hc
  · exact completes_onDev exec_repeatExpiry fun d ⟨hr, hc, hi⟩ => recEndRun_closes hr hc hi
  · exact completes_onDev exec_repeatExpiry fun d ⟨hr, hc, hi⟩ => recEndRun_loses hr hc hi
  -- TIME_MARK
  · exact completes_onDev exec_timeMark fun d h => if_pos h
  · exact ignored_onDev exec_timeMark fun d h => if_neg (Bool.eq_false_iff.1 h)
  -- RING_OPENED
  · exact completesBoth_onBoth (exec_ringOpened .ok) fun m d h => ringCarried_none h
  · exact completesBoth_onBoth (exec_ringOpened .ok) fun m d ⟨h, hc⟩ => ringCarried_single h hc
  · exact completesBoth_onBoth (exec_ringOpened .ok) fun m d ⟨h, hc⟩ => ringCarried_closes h hc
  -- SUB_CMD
  · exact ignored_onDev (exec_subCmd t code false) fun d _ => rfl
  · exact completes_onDev (exec_subCmd t code true) fun d h => subCmd_uncoded h
  · exact completes_onDev (exec_subCmd t code true) fun d ⟨h, hf⟩ => subCmd_full h hf
  · exact completes_onDev (exec_subCmd t code true) fun d ⟨h, hf⟩ => subCmd_accepted h hf
  -- RD_SEQ
  · exact rdSeq_completes t seq (.valid bs)
  · exact rdSeq_completes t seq .overwritten
  · exact rdSeq_completes t seq .bad
  · exact rdSeq_completes t seq .gone

end Sys2Proof.Machine

namespace Sys2Proof.Machine

/-! ### What a byte reads after an erase (R486) -/

/-- A byte that the first cells do not list reads as the others have it. -/
theorem memByte_append_right {m n : List Host.Cell} {a : Nat} (h : ∀ e ∈ m, e.1 ≠ a) : memByte (m ++ n) a = memByte n a := by
  induction m with
  | nil => rfl
  | cons e t ih =>
    have he := h e List.mem_cons_self
    exact (if_neg he).trans (ih fun x hx => h x (List.mem_cons_of_mem e hx))

theorem memByte_unlisted {m : List Host.Cell} {a : Nat} (h : ∀ e ∈ m, e.1 ≠ a) : memByte m a = memRest a := by
  have ha := memByte_append_right (n := []) h
  rwa [List.append_nil] at ha

/-- A byte that the last cells do not list reads as the others have it. -/
theorem memByte_append_left {m n : List Host.Cell} {a : Nat} (h : ∀ e ∈ n, e.1 ≠ a) : memByte (m ++ n) a = memByte m a := by
  induction m with
  | nil => exact memByte_unlisted h
  | cons e t ih => exact congrArg (ite (e.1 = a) e.2) ih

theorem cellsFrom_le {a : Nat} {m : List Host.Cell} (h : cellsFrom a m) : ∀ e ∈ m, a ≤ e.1 := by
  induction m generalizing a with
  | nil => simp
  | cons e t ih =>
    obtain ⟨ha, -, ht⟩ := h
    exact List.forall_mem_cons.2 ⟨ha, fun x hx => (Nat.le_succ_of_le ha).trans (ih ht x hx)⟩

theorem memBelow_append_memFrom (a : Nat) (m : List Host.Cell) : memBelow a m ++ memFrom a m = m := List.takeWhile_append_dropWhile

section Regions

variable {m : List Host.Cell} (h : Memory.wf m = true) {a c : Nat}
include h

theorem memFrom_le (a : Nat) : ∀ e ∈ memFrom a m, a ≤ e.1 := cellsFrom_le (cellsFrom_from ((memory_wf_iff m).1 h))

theorem memByte_memBelow (hc : c < a) : memByte (memBelow a m) c = memByte m c := by
  conv_rhs => rw [← memBelow_append_memFrom a m]
  exact (memByte_append_left fun e he => ne_of_gt (hc.trans_le (memFrom_le h a e he))).symm

omit h in
theorem memByte_memFrom (hc : a ≤ c) : memByte (memFrom a m) c = memByte m c := by
  conv_rhs => rw [← memBelow_append_memFrom a m]
  exact (memByte_append_right fun e he => ne_of_lt ((memBelow_lt e he).trans_le hc)).symm

/-- An erase leaves every byte outside its region. -/
theorem memByte_memErase_outside {n : Nat} (hc : c < a ∨ a + n ≤ c) : memByte (memErase a n m) c = memByte m c := by
  obtain hc | hc := hc
  · refine (memByte_append_left fun e he => ?_).trans (memByte_memBelow h hc)
    have := memFrom_le h (a + n) e he
    omega
  · refine (memByte_append_right fun e he => ?_).trans (memByte_memFrom hc)
    have := memBelow_lt e he
    omega

/-- An erased byte reads as one that nothing has written. -/
theorem memByte_memErase_inside {n : Nat} (ha : a ≤ c) (hc : c < a + n) : memByte (memErase a n m) c = memRest c := by
  refine memByte_unlisted fun e he => ?_
  obtain he | he := List.mem_append.1 he
  · exact ne_of_lt ((memBelow_lt e he).trans_le ha)
  · exact ne_of_gt (hc.trans_le (memFrom_le h (a + n) e he))

end Regions

/-! ### The staging area erased (O55) -/

theorem memRest_flash {a : Nat} (hlo : flashBase ≤ a) (hhi : a < flashBase + 0x4000000) : memRest a = 0xFF := if_pos ⟨hlo, hhi⟩

theorem updState_updStateTo (st : Nat) (d : Dev) : updState (updStateTo st d) = st % 2 ^ F.UPD_STATUS_STATE.width := by
  have hs : updState (fset F.UPD_STATUS_STATE st d) = st % 2 ^ F.UPD_STATUS_STATE.width := fget_fset_same _ _ _ (by decide)
  unfold updStateTo
  dsimp only
  split
  · exact hs
  · exact (fget_toPartner _ _ _).trans hs

/-- Settles O55: the erase takes the cells of its region out of the memories, and the update moves on. -/
theorem stagingEraseReachesItsBlocksAlone : Obligations.StagingEraseReachesItsBlocksAlone := by
  intro s hm hw hu size
  have hrun := onBlkBoth_whole 24 stagingErased s hw
  rw [stagingErased_erasing hu] at hrun
  refine ⟨_, hrun, rfl, updState_updStateTo 2 _, fun a ha => memByte_memErase_outside hm ha, fun a ⟨hlo, hsize, hhi⟩ => ?_⟩
  exact (memByte_memErase_inside hm hlo hsize).trans (memRest_flash (Nat.le_trans (by decide) hlo) hhi)

/-! ### The table of R494 (O48) -/

section Activation

variable {when1 : Bool} {ver : Nat} {d : Dev}

/-- The table of R494, a satellite image with WHEN 1 apart. -/
theorem zonePermits_iff {c : Nat} (h : ¬ (c = 5 ∧ when1 = true)) : zonePermits c when1 d = true ↔
    (c ≤ 4 ∧ (zone d = 0 ∨ zone d = 1 ∨ when1 = true)) ∨ (c = 5 ∧ when1 = false ∧ zone d = 1) ∨ c = 6 := by
  unfold zonePermits
  split
  case isTrue h6 => simp [h6]
  case isFalse h6 =>
    split
    case isTrue h5 =>
      have hw : when1 = false := Bool.eq_false_iff.2 fun hw => h ⟨h5, hw⟩
      simp [h5, hw]
    case isFalse h5 =>
      simp only [Bool.and_eq_true, Bool.or_eq_true, decide_eq_true_eq, beq_iff_eq, h5, h6, false_and, or_false, Nat.lt_succ_iff]
      tauto

/-- The answer of the pair rules; in ROM recovery they do not apply (R499, R502). -/
def activationByPair (d : Dev) : Option Nat × Dev :=
  if d.upd.rom then (none, d)
  else match pairBar d with
    | some r => (some stState, recordC 0x0E0E 0 r d)
    | none => (none, d)

theorem activateCheck_incomplete (h : updState d ≠ 3) : activateCheck when1 ver d = (some stState, d) := if_pos h

section Complete

variable (h : updState d = 3)
include h

theorem activateCheck_satellite_at_boot (hc : fget F.UPD_STATUS_CLASS d = 5 ∧ when1 = true) :
    activateCheck when1 ver d = (some stParam, d) :=
  (if_neg (not_not_intro h)).trans (if_pos hc)

variable (hc : ¬ (fget F.UPD_STATUS_CLASS d = 5 ∧ when1 = true))
include hc

theorem activateCheck_barred (hz : zonePermits (fget F.UPD_STATUS_CLASS d) when1 d = false) :
    activateCheck when1 ver d = (some stState, d) :=
  (if_neg (not_not_intro h)).trans ((if_neg hc).trans (if_pos (by rw [hz]; rfl)))

/-- What the table permits is answered by the version rules, and then by the pair's (R489, R499). -/
theorem activateCheck_permitted (hz : zonePermits (fget F.UPD_STATUS_CLASS d) when1 d = true)
    (hp : ¬ (fget F.UPD_STATUS_CLASS d = 4 ∧ d.pair.mode ≠ 0 ∧ d.upd.rom = false ∧ peerUp d = false)) :
    (∀ st, versionRules d.upd.header ver d = some st → activateCheck when1 ver d = (some st, d)) ∧
    (versionRules d.upd.header ver d = none → activateCheck when1 ver d = activationByPair d) := by
  have hz' : ¬ (!zonePermits (fget F.UPD_STATUS_CLASS d) when1 d) = true := by simp [hz]
  constructor
  · intro st hv
    simp only [activateCheck, if_neg (not_not_intro h), if_neg hc, if_neg hz', if_neg hp, hv]
  · intro hv
    simp only [activateCheck, if_neg (not_not_intro h), if_neg hc, if_neg hz', if_neg hp, hv]
    rfl

end Complete

end Activation

/-- Settles O48: the check's branches stand in the order of R494, and its zone test is the table. -/
theorem activationPermittedByClassAndZone : Obligations.ActivationPermittedByClassAndZone := by
  intro when1 ver d c permitted pairs
  have hiff (h : ¬ (c = 5 ∧ when1 = true)) : zonePermits c when1 d = true ↔ permitted := zonePermits_iff h
  have hnot : permitted → ¬ (c = 5 ∧ when1 = true) := by
    rintro hp ⟨h5, hw⟩
    simp [permitted, h5, hw] at hp
  refine ⟨activateCheck_incomplete, fun ⟨h, hc⟩ => activateCheck_satellite_at_boot h hc, fun ⟨h, hp, hc⟩ => ?_,
    fun ⟨h, hp, hl⟩ => ?_⟩
  · exact activateCheck_barred h hc (Bool.eq_false_iff.2 fun hz => hp ((hiff hc).1 hz))
  · exact activateCheck_permitted h (hnot hp) ((hiff (hnot hp)).2 hp) hl

end Sys2Proof.Machine
